-- ==== Sys2Proof/Word.lean ====
section
/-! DEFINITION. The words of the 8140: bytes, register words, beats, sectors and codeblocks (00 R9, R10; 05 R109). -/

namespace Sys2Proof

/-- A byte (00 R10). -/
abbrev Byte := BitVec 8

/-- A 32-bit register (16 R382). -/
abbrev Reg32 := BitVec 32

/-- One 64-bit beat of x_AD, or one 64-bit word of a sector (02 R45, 10 R253). -/
abbrev Beat64 := BitVec 64

/-- The 64 bytes of a sector; byte `j` is bits `[8j+7:8j]` (05 R109, 00 R10). -/
abbrev Sector := BitVec 512

/-- A byte mask over a sector, bit `j` for byte `j` (02 R49). -/
abbrev SectorMask := BitVec 64

/-- The 512 bytes of a pool codeblock; byte `j` is bits `[8j+7:8j]`, the message order of 10 R242. -/
abbrev Block := BitVec 4096

/-- A byte mask over a codeblock (07, the 512-bit byte-valid mask). -/
abbrev BlockMask := BitVec 512

/-- The 64 bytes of a check granule (10 R243). -/
abbrev Granule := BitVec 512

end Sys2Proof
end

