-- ==== Sys2Proof/Syntax.lean ====
section
/-! DEFINITION. The commands of the 8140: one constructor of `Instr` per row of spec/opcode_table.json. The table gives no
operands; these are the model's (log entry 2), each taken from the rules the row names. -/

namespace Sys2Proof

/-- The two Agent Ports (02). -/
inductive PortId where
  | A | B
  deriving DecidableEq, Repr

/-- One beat as received: x_AD and its byte parity x_ADP (02 R38). -/
structure Beat where
  ad  : Beat64
  adp : Byte
  deriving DecidableEq, Repr

/-- An agent tenure as the port received it (02 R36, R37, R45): the requester known from the grant, beat H0, the beats that
followed while x_AVLD_N stayed asserted, whether x_AVLD_N was asserted in the cycle after the header's last beat, whether the
tenure collided with an overrun (R63), and whether x_URG_N was asserted for it. -/
structure Tenure where
  who      : Fin 12
  h0       : Beat
  rest     : List Beat
  overrun  : Bool
  collided : Bool
  urg      : Bool
  deriving DecidableEq, Repr

/-- The request pins the arbiter samples at a handover (02 R39, R40); `quietMet` says that x_AVLD_N has been sampled
deasserted in two consecutive cycles, which ends a quiet period (R63). A set bit is an asserted pin. -/
structure PortPins where
  req      : BitVec 6
  urg      : BitVec 6
  quietMet : Bool
  deriving DecidableEq, Repr

/-- What the granted agent did in its H0 cycle (02 R43): drove H0, or forfeited, with x_REQ_N as it was in the grant cycle. -/
inductive H0Cycle where
  | driven
  | forfeited (reqInGrant : Bool)
  deriving DecidableEq, Repr

/-- Completion status of PCI Express (12 R302, R307). -/
inductive CplStatus where
  | sc | ur | crs | ca
  deriving DecidableEq, Repr

/-- A completion TLP received from the bridge (12 R307): tag, whether its requester ID is that of memory requests, status,
EP, byte count, lower address, payload bytes in ascending address order, and its header. -/
structure Cpl where
  tag       : BitVec 8
  ridOk     : Bool
  status    : CplStatus
  ep        : Bool
  byteCount : Nat
  lowerAddr : BitVec 7
  data      : List Byte
  header    : List Reg32
  deriving DecidableEq, Repr

/-- Link errors the port detects itself (12 R306), in the order of its table. -/
inductive LinkErr where
  | receiver | badTlp | badDllp | replayTimeout | replayRollover
  | surpriseDown | dlProtocol | flowControl | receiverOverflow
  deriving DecidableEq, Repr

/-- Messages received from the bridge (12 R306, R307 code 0x0C). -/
inductive BridgeMsg where
  | errCor | errFatal | errNonfatal | unsupported
  deriving DecidableEq, Repr

/-- Request and malformed TLPs received from the bridge (12 R307, codes 0x06 to 0x09). -/
inductive BridgeReq where
  | mrd | mwr | otherNonPosted | otherPosted | malformed
  deriving DecidableEq, Repr

/-- The outcome of a step of DDR4 initialization (13 R317, R475): it succeeded, or a byte lane failed to train. -/
inductive InitResult where
  | ok
  | failed (lane : Byte)
  deriving DecidableEq, Repr

/-- Posted domains (16 R395, 17 R408). -/
inductive Domain where
  | bedrock | phy
  deriving DecidableEq, Repr

/-- Why Sleep entry is given up (15 R362, 12 R304). -/
inductive EntryTimeout where
  | entryTmo
  | l12Limit
  deriving DecidableEq, Repr

/-- The run a WAKE_EPOCH step belongs to: a ring's command, or the run the 8140 makes itself at wake (09 R226, 15 R368). -/
inductive EpochRun where
  | ring (n : Fin 4)
  | self
  deriving DecidableEq, Repr

/-- One cycle of TCK: TMS and TDI at its rising edge (18 R410). -/
structure Tck where
  tms : Bool
  tdi : Bool
  deriving DecidableEq, Repr

/-- A transition at one leg of a PCIe receiver pair (18 R419): leg 2k is P of lane k, leg 2k + 1 its N. -/
structure Swing where
  leg  : Fin 16
  rise : Bool
  mv   : Nat
  deriving DecidableEq, Repr

/-- A run of TCK cycles (18 R410): the transitions that the test receivers meet before it, and the level that each boundary cell would
capture during it: of an input cell and of a receiver its pin's level (18 R417, R419). -/
structure TapRun where
  swings : List Swing
  pins   : BitVec 1112
  ticks  : List Tck
  deriving DecidableEq, Repr

/-- The commands. Each docstring names the operands. `who` in a register write is the processor agent whose write it is. -/
inductive Instr where
  /-- PORST_N falls with supplies in range (15 R357). -/
  | porstNAssert
  /-- PORST_N rises; `straps` is RWB_SEL as sampled (15 R358, 01 R21). -/
  | coldReset (straps : BitVec 3)
  /-- The crystal counter reaches 65,536 (14 R335). -/
  | xoStable
  /-- The lock counter reaches 4,096 (14 R340). -/
  | relockComplete
  /-- A window of 64 crystal cycles ends with `count` core cycles (14 R342). -/
  | lockMonitorWindow (count : Nat)
  | relock (who : Fin 8)
  | refback (who : Fin 8)
  /-- A window of 2^20 crystal cycles ends with `count` reference cycles (14 R348). -/
  | driftWindow (count : Nat)
  /-- A run of 4,096 SYNC boundaries has ended with `count` core cycles (14 R351). -/
  | syncMeasRunEnd (count : Nat)
  | crystalStop
  /-- The internal tick counter expires; `dmaReq` is x_REQ_N of channels 8-11 as sampled (08 R191, 11 R279). -/
  | tickBoundary (dmaReq : BitVec 4)
  /-- A rising SYNC edge whose boundary falls `since` core cycles after the last boundary, `relock` of them in a relock (08 R186). -/
  | syncEdge (since relock : Nat) (dmaReq : BitVec 4)
  | syncLoss (dmaReq : BitVec 4)
  | grant (port : PortId) (pins : PortPins) (h0 : H0Cycle)
  | read (t : Tenure)
  | readFetch (t : Tenure)
  | readSpec (t : Tenure)
  | write (t : Tenure)
  | writeNt (t : Tenure)
  | lockRead (t : Tenure)
  | lockWrite (t : Tenure)
  | lockAbort (t : Tenure)
  | atomic (t : Tenure)
  | watch (t : Tenure)
  | barrier (t : Tenure)
  /-- x_AVLD_N asserted in an idle cycle, or in the turnaround or header cycle of a response (02 R62 code 0x14). -/
  | avldOutOfTenure (port : PortId)
  /-- A handover at which a response tenure may start; `collided` says that it is the handover of an overrun, which meets the tenure's
  turnaround; `upset` are the bits of its data beats that have flipped in the response buffer (02 R54, R63; 10 R255, R256). -/
  | responseTenure (port : PortId) (pins : PortPins) (collided : Bool) (upset : List Beat64)
  | resetSenseAssert (who : Fin 12)
  | resetSenseDeassert (who : Fin 12)
  /-- EN of AGP_CFGx written from 1 to 0 with the whole value `val` (02 R59). -/
  | portDisable (who : Fin 8) (port : PortId) (val : Reg32)
  /-- The oldest queued probe that may be sent on the port is sent; `perr`: its queue entry failed parity (03 R74, 10 R256). -/
  | probeSend (port : PortId) (perr : Bool)
  /-- A run of `cycles` cycles of x_PACK_N of agent `k`; `late`: its first cycle is more than 16 bus cycles after the probe (03 R81, R89). -/
  | probeAck (k : Fin 8) (cycles : Nat) (late : Bool)
  | probeTimeout (k : Fin 8)
  | prbRevive (who : Fin 8) (mask : BitVec 8)
  | missHandlerGrant
  /-- A completion of a pool read arrives; `perr`: the miss handler data buffer failed parity (12 R307, 10 R248, R256). -/
  | poolReadCompletion (cpl : Cpl) (perr : Bool)
  | fillInstall (h : Fin 64)
  /-- The Cache Store Port picks an access; `ready` are the accesses whose bank can accept them (13 R325). -/
  | cacheStoreAccess (ready : List Nat)
  /-- Read data of access `id`: eight words with check bits per sector, in the order of the access (10 R254, 13 R321). -/
  | cacheStoreReadDone (id : Nat) (words : List (BitVec 64 × BitVec 8))
  | sectorClear
  | tagSetClearing
  | prefetchCandidate
  /-- The oldest entry of requester `r`'s queue retires if it may; `perr`: the entry failed parity (07 R158, 10 R256). -/
  | storeRetirement (r : Fin 13) (perr : Bool)
  | atomicPerformingPass (r : Fin 13)
  | mergeAgeMark
  | drainStart (perr : Bool)
  | completionLookup (slot : Nat)
  | drainWrite (slot : Nat) (perr : Bool)
  | flushRead
  | flushReadDone (cpl : Cpl)
  | lockTimeout (k : Fin 8)
  | bucketLeak (n : Fin 6)
  | suspectExpire
  | screeRetirement
  | completionTimeout (tag : BitVec 8)
  | linkTrainTimeout
  /-- The recovery probe read completes with `cpl`, or (none) passes T_cpl (12 R297). -/
  | probeReadDone (cpl : Option Cpl)
  | poolDownRetry
  | linkDown
  | linkError (e : LinkErr)
  | bridgeMessage (m : BridgeMsg) (header : List Reg32)
  | assertIntx
  | deassertIntx
  | bridgeRequest (r : BridgeReq) (header : List Reg32)
  | clkreqInSleep
  | aspmL1Entry
  /-- MEM_CFGA_CTRL written with GO = 1 and the whole value `val` (12 R302). -/
  | configRequest (who : Fin 8) (val : Reg32)
  /-- The configuration completion arrives with status and data, or (none) CFGTMO passes (12 R302). -/
  | configCompletion (res : Option (CplStatus × Reg32))
  | linkEnable (who : Fin 8) (val : Reg32)
  | perstOff (who : Fin 8) (val : Reg32)
  /-- RETRAIN written 1; the training ends at `speed` and `width` (12 R303, R309). -/
  | retrain (who : Fin 8) (speed width : BitVec 4)
  | hotrst (who : Fin 8)
  | pmeToAck (acked : Bool)
  | cspInit (who : Fin 8)
  | cspInitStepDone (r : InitResult)
  | ddrRefresh (rank : Fin 2)
  | zqcs (rank : Fin 2)
  | ddrAlert (rank : Fin 2)
  | vddqLowInSleep
  | cmdSqDb (who : Fin 8) (ring : Fin 4) (tail : BitVec 12)
  | descriptorRead (ring : Fin 4)
  | descriptorReadDone (ring : Fin 4)
  | completionEntryWrite
  | eventEntryWrite
  | commandUnitDone (ring : Fin 4) (perr : Bool)
  | nop (ring : Fin 4)
  /-- The tag walker clears the next `units` units of 64 entries (05 R127). -/
  | invalidateAll (ring : Fin 4) (units : Nat)
  | preload (ring : Fin 4)
  | lockWays (ring : Fin 4)
  | unlockWays (ring : Fin 4)
  | regionDrop (ring : Fin 4) (units : Nat)
  | restrength (ring : Fin 4)
  | verify (ring : Fin 4)
  | vaultSave (ring : Fin 4)
  | vaultLoad (ring : Fin 4)
  | wakeEpoch (run : EpochRun) (units : Nat)
  | cmdEnable (who : Fin 8) (val : Reg32)
  | abort (who : Fin 8) (mask : BitVec 4)
  | restart (who : Fin 8) (mask : BitVec 4)
  | cmdRingWrite (who : Fin 8) (off : BitVec 16) (val : Reg32)
  /-- CMD_CQ_HEAD (`eq` false) or CMD_EQ_HEAD written (09 R213). -/
  | ringHeadWrite (who : Fin 8) (eq : Bool) (val : Reg32)
  | rswClr (who : Fin 8)
  | cacheEnable (who : Fin 8)
  | cacheDisable (who : Fin 8)
  | crcPassStart
  | commitWindowExpire
  | cfgRefWrite (who : Fin 8) (val : Reg32)
  | keyUnlock (who : Fin 8) (val : Reg32)
  | keyLapse
  | snap (who : Fin 8)
  | snapClr (who : Fin 8)
  | seqWriteBack (who : Fin 8) (off : BitVec 16) (val : Reg32)
  | bitAliasWrite (who : Fin 8) (off : BitVec 16) (val : Reg32)
  | postedWriteTaken (d : Domain)
  | registerWrite (who : Fin 8) (off : BitVec 16) (val : Reg32)
  | dmaRestart (who : Fin 8) (mask : BitVec 4)
  | screeClr (who : Fin 8)
  | sleepReq
  | sleep (who : Fin 8)
  | sleepEntry
  | linkL12Reached
  | sleepEntryTimeout (cause : EntryTimeout)
  | sleepHeartbeatToggle
  | wakeReq
  | cspWake (pass : Bool)
  /-- The link returns to L0 (`inL0`), or is not there when the page read is due (12 R304, 15 R366). -/
  | l12ExitDone (inL0 : Bool)
  /-- `us`: microseconds from the qualified WAKE_REQ edge, as the WAKE event reports them (15 R381). -/
  | class0Ready (us : BitVec 16)
  | fullReady (us : BitVec 16)
  | offprep (who : Fin 8)
  | bedrockSupplyLoss
  | mbistStart (who : Fin 8)
  /-- An MBIST run ends; `fail` are the targets that failed (18 R423). -/
  | mbistDone (fail : BitVec 9)
  /-- TRST_N, or the TAP's own power-on detector (18 R410). -/
  | tapReset
  /-- An instruction of the TAP, from here to `bypass`: TCK runs, and this instruction is in force at the run's end (log entry 68). -/
  | extest (run : TapRun)
  | samplePreload (run : TapRun)
  | idcode (run : TapRun)
  | highz (run : TapRun)
  | clamp (run : TapRun)
  | extestPulse (run : TapRun)
  | extestTrain (run : TapRun)
  | mbist (run : TapRun)
  | bypass (run : TapRun)
  /-- x_REQ_N of the pair is asserted after having been deasserted (02 R62 code 0x13). -/
  | unattachedRequest (port : PortId) (pair : Fin 6)
  | dlUp (speed width : BitVec 4)
  | suppliesRemoved
  deriving DecidableEq, Repr

end Sys2Proof
end

