-- ==== Sys2Proof/Config.lean ====
section
/-! DEFINITION. The free values: what the spec leaves open while the machine goes on. Each is opaque, so no statement can
rest on a value of it (log entry 5). -/

namespace Sys2Proof.Config

/-- A tag entry whose content is undefined: after a cold reset or an MBIST run of target 0 until an INVALIDATE_ALL
(05 R130, 18 R423). The first argument counts the times the contents became undefined, the second is the position. -/
opaque freeTag : Nat → Nat → BitVec 40

/-- A count the spec calls undefined: COUNT0 and COUNT1 of a REGION_DROP over undefined tags (09 R226). -/
opaque freeCount : Nat → BitVec 64

/-- The INV probes that a REGION_DROP over undefined tags may queue (09 R226): pool codeblock and presence bits each. -/
opaque freeDropProbes : Nat → List (BitVec 44 × BitVec 8)

/-- The trained values of the Cache Store Port, as the 512-byte record of 13 R318: the spec gives no layout of it. -/
opaque freeTraining : Nat → BitVec 4096

/-- The link's equalisation results, as the 256-byte record of 15 R373: the spec gives no layout of it. -/
opaque freeEqualisation : Nat → BitVec 2048

end Sys2Proof.Config
end

