-- ==== Sys2Proof/Machine/State.lean ====
section
/-! DEFINITION. The state of the 8140 as plain data, one structure per register block, with the state right after reset
(PORST_N asserted, 15 R357), the faults and the refusals. A codeblock is named by its number (pool address divided by 512)
and a tag position by set × ways + way (11 R272). -/

namespace Sys2Proof.Machine

/-! ### What can stop a step -/

/-- Obligations whose breach makes the behaviour undefined until the next cold reset (00 R5), by the rule that says so. -/
inductive UndefCause where
  /-- pool ranges of enabled regions overlap (01 R26) -/
  | r26
  /-- a frozen region field changed outside the procedure (01 R31, 05 R131) -/
  | r31
  /-- CLKDIV or ATTACHED changed while EN = 1 (02 R57) -/
  | r57
  /-- CCH_GEOM changed while the cache is enabled (05 R131) -/
  | r131
  /-- a CMD_RING register written while EN = 1 (09 R206) -/
  | r206
  /-- a pool layout register changed while the cache is enabled (12 R291) -/
  | r291
  /-- a frozen Cache Store Port field changed while the cache is enabled (13 R316) -/
  | r316
  /-- CLKDIV holds 0b11 (14 R337) -/
  | r337
  /-- PCIREF_SEL changed or REFBACK written while MEM_LINK_CTRL EN = 1 (14 R347) -/
  | r347
  /-- a pin-control instruction of the TAP (18 R414) -/
  | r414
  deriving DecidableEq, Repr

/-- Faults: the machine stops. -/
inductive Fault where
  /-- Raised by every command but PORST_N_ASSERT, COLD_RESET, SUPPLIES_REMOVED and the TAP rows while the behaviour is
  undefined (00 R5). Safe: the hardware may do anything, the model stops. -/
  | undefinedBehaviour (cause : UndefCause)
  deriving DecidableEq, Repr

/-- Refusals: no meaning. -/
inductive Refusal where
  /-- An instruction not reached yet. No arm answers with it. Safe. -/
  | notModelled (mnemonic : String)
  /-- A request row whose tenure's header, received with good parity, names another row's command: no such event exists.
  Raised by the ten request rows. Safe. -/
  | illFormed
  deriving DecidableEq, Repr

/-! ### Requests -/

/-- The commands of the agent bus (02 R46). -/
inductive ReqCmd where
  | read | fetch | spec | write | writeNt | lockWrite | lockRead | lockAbort | atomic | watch | barrier
  deriving DecidableEq, Repr

/-- Ordering marks (02 R45, 04 R99). -/
inductive Mark where
  | none | acquire | release | durable | barrier
  deriving DecidableEq, Repr

/-- Response codes (02 R55). -/
inductive Rsp where
  | ok | okPoison | fetchFault | specRefused | decodeErr | lockBroken | watchWake | watchNowriter | channelHalted | protocolErr
  deriving DecidableEq, Repr

/-- Where a request decoded to; a region's attributes are kept as they stood then (01 R17, R28). -/
inductive Target where
  /-- nothing to decode (BARRIER) -/
  | nowhere
  /-- the register window, with the byte offset -/
  | window (off : Nat)
  /-- region `n` with its CCH_RGNn_ATTR as it stood at decode -/
  | region (n : Nat) (attr : Reg32)
  deriving DecidableEq, Repr

/-- Progress of a durable release or of an answer that waits for a flush (07 R172, R173; 04 R105). -/
inductive Dur where
  | idle
  /-- waits for the recorded entries and slots to issue their writes -/
  | drains (entries slots : List Nat)
  | needFlush
  | flushing
  | met
  deriving DecidableEq, Repr

/-- Where a request stands. -/
inductive Phase where
  /-- waits for order: marks, earlier requests, full ready (04 R99, R104, R107; 07 R161; 15 R365) -/
  | order
  /-- waits behind its requester's demand miss (06 R139) -/
  | miss
  /-- waits for a miss handler (06 R134) -/
  | handler
  /-- waits for the cache-store read `acc` -/
  | hit (acc : Nat)
  /-- waits on miss handler `h` -/
  | fill (h : Nat)
  /-- in its store queue, not retired -/
  | queue
  /-- an ATOMIC or LOCK_READ whose fetch is in flight (07 R174) -/
  | fetching
  /-- an ATOMIC or LOCK_READ whose fetch is complete, before its performing pass (07 R175) -/
  | fetched
  /-- retired; its answer waits for its own drain or a flush -/
  | answerWait
  /-- a watch held in the agent's watch entry (07 R179) -/
  | watching
  /-- performed -/
  | done
  deriving DecidableEq, Repr

/-- A watch arm: AP(k), WR(k), and the hit it was set by (07 R178). -/
structure Arm where
  cb : Option Nat
  wr : Bool
  hit : Option Nat
  deriving DecidableEq, Repr

/-- An accepted request, from admission until it is both answered and finished. -/
structure Req where
  id      : Nat
  who     : Nat
  tag     : BitVec 2
  cmd     : ReqCmd
  mark    : Mark
  /-- class it is scheduled in: 0 only when counted (08 R193) -/
  cls     : Nat
  counted : Bool
  addr    : BitVec 48
  pool    : Nat
  op      : BitVec 2
  len     : Nat
  mask    : SectorMask
  data    : Sector
  cmp     : Beat64
  target  : Target
  fwdMask : SectorMask
  fwdData : Sector
  phase   : Phase
  queued  : Bool
  answered : Bool
  /-- it has had its first lookup (06, R123) -/
  looked  : Bool
  /-- it is its requester's demand miss until its response is started (06 R138) -/
  miss    : Bool
  dur     : Dur
  own     : Dur
  /-- data read, in sector position, and the pool failure that met it: 0 none, 1 a reason, 2 timeout, 3 error status,
  4 parity (11 R262, R285) -/
  result  : Sector
  fail    : Nat
  /-- it has decided HIT: a READ_SPEC is not refused any more (06 R151) -/
  wasHit  : Bool := false
  /-- its agent's watch arm before that hit took it, which stands again should the read fail (07 R178) -/
  armWas  : Option Arm := none
  deriving DecidableEq, Repr

/-- A response waiting for its tenure (02 R53). -/
structure Resp where
  who      : Nat
  tag      : BitVec 2
  rsp      : Rsp
  beats    : List Beat64
  untagged : Bool
  retry    : Bool
  counted  : Bool
  /-- the request answered; none for a violation's answer -/
  req      : Option Nat
  /-- the codeblock whose data it carries (03 R84) -/
  cb       : Option Nat
  /-- parity its buffer stores for each beat; a beat beyond the list has the parity of its bytes (10 R255) -/
  par      : List Byte := []
  /-- it was ready when its port's EN fell (02 R59) -/
  kept     : Bool := false
  deriving DecidableEq, Repr

/-! ### Outputs -/

/-- TLPs the port sends (12 R292, R307). -/
inductive Tlp where
  | mrd (addr : BitVec 64) (bytes : Nat) (tag : Nat)
  | mrdZero (addr : BitVec 64) (tag : Nat)
  | mwr (addr : BitVec 64) (data : Block) (bytes : Nat) (enables : BitVec 64)
  | cfgRd (func : BitVec 3) (dw : BitVec 10) (be : BitVec 4)
  | cfgWr (func : BitVec 3) (dw : BitVec 10) (be : BitVec 4) (data : Reg32)
  | pmeTurnOff
  | urCompletion
  deriving DecidableEq, Repr

/-- Flow-control credits advertised to the bridge; none is infinite (12 R288). -/
structure Credits where
  posted     : Nat
  postedData : Nat
  nonPosted  : Nat
  nonPostedData : Nat
  completion : Option Nat
  deriving DecidableEq, Repr

/-- A sector's place in the devices: bank index b, and the bank group and bank it stands for (13 R320). -/
structure DramAddr where
  rank : Nat
  bank : Nat
  bg   : Nat
  ba   : Nat
  row  : Nat
  col  : Nat
  deriving DecidableEq, Repr

/-- What the mode registers are written to (13 R310 to R314, R317 step 4): latencies in nCK, resistances in ohm, RTT_PARK on the rank not
accessed, the refresh rate multiple. -/
structure ModeSettings where
  cl       : Nat
  cwl      : Nat
  wr       : Nat
  rtp      : Nat
  ccdL     : Nat
  drive    : Nat
  rttNom   : Nat
  rttWr    : Option Nat
  rttPark  : Nat
  caParity : Bool
  refresh  : Nat
  autoSelfRefresh : Bool
  dm       : Bool
  dbi      : Bool
  writeCrc : Bool
  deriving DecidableEq, Repr

/-- What the block drives on its pins, as a trace. -/
inductive Out where
  | grant (port : PortId) (pair : Nat)
  | response (port : PortId) (rh : Beat) (beats : List Beat)
  | probe (port : PortId) (prb : BitVec 48) (prbp : BitVec 6)
  | tlp (t : Tlp)
  /-- the credits advertised as the data link layer comes up (12 R288) -/
  | initFc (c : Credits)
  | ddrRead (a : DramAddr)
  /-- one burst: eight words with check bits, DM per word (13 R324) -/
  | ddrWrite (a : DramAddr) (words : List (BitVec 64 × BitVec 8)) (mask : BitVec 8)
  | ddrRef (rank : Nat)
  | ddrZqcs (rank : Nat)
  /-- ZQCL of `nck` clocks -/
  | ddrZqcl (rank nck : Nat)
  /-- mode register `mr` is written -/
  | ddrMrs (rank mr : Nat) (m : ModeSettings)
  | ddrSre (rank : Nat)
  | hotReset
  | retrain
  | syncPulse
  | tdo (level : Bool)
  deriving DecidableEq, Repr

/-! ### Agent ports -/

/-- One Agent Port (02). `vlog1` and `vcode` are AGP_VLOGx1 and the CODE of AGP_VLOGx2; `plog` is PRB_VLOGx. -/
structure Port where
  granted  : Option Nat
  /-- the handover at the last beat of an overrunning tenure is still to be taken; with the answer that the overrun itself
  queued, which came after that handover: its requester and its request (02 R40, R63) -/
  launch   : Option (Nat × Option Nat) := none
  /-- the granted tenure began at that handover: it collides with the overrun (02 R63) -/
  collide  : Bool := false
  /-- reset sense of its requester has been asserted during the tenure in progress: it is discarded (02 R60) -/
  dead     : Bool := false
  prevAgent : Bool
  lastUrg  : Nat
  lastAny  : Nat
  quiet    : Bool
  again    : Option Resp
  untag    : BitVec 6
  vlog0    : Reg32
  vlog1    : Reg32
  vcode    : BitVec 8
  plog     : Reg32
  deriving DecidableEq, Repr

/-- Agent ports, requests and responses. -/
structure Bus where
  portA   : Port
  portB   : Port
  /-- RWB_SEL as sampled (01 R21) -/
  strap   : BitVec 3
  /-- x_RSNS_N asserted, bit r for requester r, as the ports last sampled it (02 R60) -/
  rsns    : BitVec 12
  /-- its level on the pins, which the ports do not sample from step E6 of Sleep entry to step W8 of a wake (19 R426) -/
  rsnsPin : BitVec 12
  reqs    : List Req
  nextReq : Nat
  resps   : List Resp
  deriving DecidableEq, Repr

/-! ### Probes -/

/-- What a probe names (03 R75): a codeblock, or the whole L1. -/
inductive ProbeKind where
  | inv (cb : Nat)
  | invAll
  deriving DecidableEq, Repr

/-- A probe queued on one port or outstanding at agents of that port (03 R74, R80). -/
structure Probe where
  id     : Nat
  port   : PortId
  kind   : ProbeKind
  /-- pairs it has still to be sent to -/
  toSend : BitVec 4
  /-- pairs it is outstanding at, with the boundaries since its x_PV_N cycle -/
  out    : List (Nat × Nat)
  /-- requester and request whose store or ATOMIC queued it (03 R73) -/
  who    : Option (Nat × Nat)
  /-- codeblock it back-invalidates (03 R84) -/
  back   : Option Nat
  /-- the ATOMIC request whose issuer it names (03 R72) -/
  atomic : Option Nat
  /-- the run of the command that queued it: a ring, or 4 for the 8140's own WAKE_EPOCH (09 R219) -/
  ring   : Option Nat
  /-- queued by PRB_REVIVE (03 R86) -/
  revive : Bool
  deriving DecidableEq, Repr

structure Prb where
  probes : List Probe
  nextId : Nat
  unresp : BitVec 8
  toev   : BitVec 8
  seq    : BitVec 8
  deriving DecidableEq, Repr

/-! ### Cache, fills, prefetch -/

/-- What a miss handler is held for (06 R132). -/
inductive HKind where
  | demand | prefetch
  | preload (ring unit : Nat)
  | sectorMiss
  /-- part `i` of the revocation page, for ring `ring`'s WAKE_EPOCH (15 R366) -/
  | page (ring i : Nat)
  | uncached | device | fetch
  /-- a pool read of a command unit (09 R228, R230) -/
  | unit (ring unit : Nat)
  deriving DecidableEq, Repr

/-- Bytes of a drain whose codeblock write went out after a read's request (07 R171). -/
structure Drained where
  data   : Block
  valid  : BlockMask
  poison : Bool
  deriving DecidableEq, Repr

/-- A miss handler in use, with its read. -/
structure Handler where
  idx     : Nat
  kind    : HKind
  cb      : Nat
  /-- pool byte address and bytes of a DEVICE read -/
  dev     : Option (Nat × Nat)
  /-- the pending position, or the entry's position for a SECTOR_MISS -/
  pos     : Option Nat
  /-- TAG, C0 and AGE recorded at fill start (06 R140) -/
  tagF    : BitVec 18
  c0      : Bool
  age     : BitVec 2
  counted : Bool
  cls     : Nat
  /-- strength code to decode at (10 R248) -/
  str     : BitVec 3
  who     : Nat
  /-- requests answered by it -/
  reqs    : List Nat
  cancelled : Bool
  /-- codeblock and granule bytes received -/
  cbData  : Option Block
  grData  : Option Granule
  /-- WSEQ captured at issue (10 R247) -/
  expect  : Option (BitVec 16)
  later   : List Drained
  /-- fetched, decoded and overlaid data, with the failure as `Req.fail` -/
  data    : Option (Block × Nat)
  /-- bits corrected in the data (10 R249) -/
  fixed   : Nat
  /-- WSEQ in the granule as decoded (10 R258) -/
  found   : BitVec 16
  /-- read once more after a buffer parity error (10 R256) -/
  reread  : Bool
  /-- command units (ring, unit) that wait for a SECTOR_MISS fill (06 R153) -/
  units   : List (Nat × Nat)
  /-- PRELOAD units that met this fill in flight, and re-enter when it has installed or is cancelled (06 R153) -/
  waits   : List (Nat × Nat) := []
  /-- its pool read has been issued: it waits while a command unit rewrites the codeblock (09 R228) -/
  asked   : Bool := true
  /-- the region of the command unit it reads for was CACHEABLE at decode (01 R17) -/
  cacheable : Bool := true
  deriving DecidableEq, Repr

/-- A stride detector (06 R149), in codeblock units. -/
structure Detector where
  valid  : Bool
  last   : Nat
  stride : Int
  conf   : Nat
  deriving DecidableEq, Repr

/-- A prefetch candidate: codeblock and the region its training request decoded to (06 R150). -/
structure Candidate where
  cb     : Nat
  region : Nat
  attr   : Reg32
  deriving DecidableEq, Repr

/-- An operation of rank 2 of the lookup pipeline that waits (08 R197): the oldest queued set clearing, sector clearing or retirement, or a
fill whose data is there. -/
inductive Rank2 where
  | set | sector | retire
  | install (h : Nat)
  deriving DecidableEq, Repr

structure Cch where
  /-- tag entries below `known` that are not zero, by position -/
  tags    : List (Nat × BitVec 40)
  /-- positions at or above hold undefined contents (05 R130) -/
  known   : Nat
  /-- how many times contents became undefined -/
  epoch   : Nat
  enabled : Bool
  bypass  : Bool
  invDone : Bool
  enSeq   : BitVec 8
  enFail  : BitVec 4
  dlog0   : Reg32
  dlog1   : Reg32
  handlers : List Handler
  dets    : List Detector
  cands   : List Candidate
  /-- set clearings queued: set and failing ways (11 R268) -/
  setClr  : List (Nat × BitVec 16)
  /-- sector clearings queued: position and sector (11 R267) -/
  secClr  : List (Nat × Nat)
  /-- fault-handling operations and fill installs, in the order in which they fell due (08 R197) -/
  rank2   : List Rank2
  /-- the wake filter: pool ranges [first, end) and the position the walk has reached (15 R366) -/
  filter  : List (Nat × Nat)
  walked  : Nat
  deriving DecidableEq, Repr

/-! ### Write path -/

/-- Rank of a drain mark (07 R166). -/
inductive DrainRank where
  | durable | full (seq : Nat) | other
  deriving DecidableEq, Repr

/-- A merge buffer or NT combining buffer entry (07 R163). -/
structure Entry where
  id     : Nat
  nt     : Bool
  cb     : Nat
  data   : Block
  valid  : BlockMask
  contrib : BitVec 13
  str    : BitVec 3
  cls    : Nat
  age    : Nat
  mark   : Option DrainRank
  poison : Bool
  /-- a fetch into it is in flight: markings are deferred (07 R165) -/
  fetching : Bool
  /-- triggers that held meanwhile -/
  deferred : Option DrainRank
  /-- the region of the store that allocated it is cacheable (05 R119) -/
  cacheable : Bool
  /-- an unit of RESTRENGTH or VERIFY on this ring rewrites it (09 R228) -/
  rewrite : Option (Nat × Nat)
  /-- class of that unit's accesses, 0 when it was counted (01 R16, 09 R204) -/
  rcls   : Nat := 1
  deriving DecidableEq, Repr

/-- Where a drain stands (07 R166-R170). -/
inductive DrainStage where
  | lookup
  | cacheRead (acc : Nat)
  /-- waits until earlier drains of the codeblock have issued their writes, or for its read -/
  | poolWait
  | poolRead
  | ready
  deriving DecidableEq, Repr

/-- What a drain slot holds (07 R166). -/
inductive SlotKind where
  | drain
  /-- a flush read that confirms these requests, and whether Sleep or Off entry waits for it -/
  | flush (reqs : List Nat) (entry : Bool)
  deriving DecidableEq, Repr

structure Slot where
  id     : Nat
  kind   : SlotKind
  /-- the buffer entry it came from -/
  entry  : Nat
  cb     : Nat
  data   : Block
  valid  : BlockMask
  /-- bytes present at drain start, the ones overlaid (07 R171) -/
  own    : BlockMask
  contrib : BitVec 13
  str    : BitVec 3
  cls    : Nat
  poison : Bool
  cacheable : Bool
  /-- from an NT entry (07 R166, the limit of 48) -/
  nt     : Bool
  stage  : DrainStage
  /-- a completion read, or bytes taken from the pool, was bad (10 R245) -/
  bad    : Bool
  rewrite : Option (Nat × Nat)
  cbData : Option Block
  grData : Option Granule
  expect : Option (BitVec 16)
  later  : List Drained
  /-- a flush read is to be issued again (11 R276) -/
  resend : Bool
  deriving DecidableEq, Repr

structure Wrb where
  entries  : List Entry
  nextEnt  : Nat
  nextFull : Nat
  slots    : List Slot
  nextSlot : Nat
  /-- AP(k): codeblock, per agent (07 R178) -/
  arms     : List (Option Nat)
  /-- WR(k) -/
  armWr    : BitVec 8
  /-- the hit, its data still to come, that set the arm -/
  armBy    : List (Option Nat)
  /-- locks: agent, codeblock, boundaries since (07 R176) -/
  locks    : List (Nat × Nat × Nat)
  /-- broken-lock records: codeblock, owner (11 R277) -/
  broken   : List (Nat × Nat)
  brk      : BitVec 8
  deriving DecidableEq, Repr

/-! ### Quartz tick -/

/-- A weighted round (08 R198). -/
structure Round where
  cls  : Nat
  used : Nat
  deriving DecidableEq, Repr

structure Qtk where
  running  : Bool
  n        : Nat
  syncIn   : Bool
  syncOut  : Bool
  budget   : Nat
  inflight : Nat
  w1       : Nat
  w2       : Nat
  w3       : Nat
  cmdMin   : Nat
  csRound  : Round
  memRound : Round
  pipeRound : Round
  ageMax   : Nat
  ntAge    : Nat
  /-- a relock has run since the last boundary, and has run ever since it (R186) -/
  relocked : Bool
  relockAll : Bool
  /-- housekeeping quanta could start in the last boundary cycle (R192) -/
  quanta   : Bool
  /-- the port whose class 1-3 operation the lookup pipeline took last is B (R197) -/
  portB    : Bool
  /-- the operation it took last was a cycle of the wake walk (15 R366) -/
  walkLast : Bool
  syncOk   : Bool
  early    : Bool
  loss     : Bool
  seq      : BitVec 8
  deriving DecidableEq, Repr

/-! ### Command engine -/

/-- A command unit that waits outside the lookup pipeline: for a miss handler since `age` (06 R134), or for a fill in flight (06 R153).
`again`: it has waited for a fill before. Its codeblock and attributes stay as they were decoded (01 R17). -/
structure UnitWait where
  unit  : Nat
  attr  : Reg32
  cb    : Nat
  age   : Option Nat
  again : Bool
  deriving DecidableEq, Repr

/-- A command running on a ring (09 R224, R231). -/
structure Running where
  opcode : Nat
  irq    : Bool
  fence  : Bool
  wmask  : Bool
  repair : Bool
  cmdId  : Reg32
  addr   : Nat
  len    : Nat
  ways   : BitVec 16
  param  : BitVec 8
  /-- region its range decoded to, with attributes, and pool address of its first byte -/
  region : Nat
  attr   : Reg32
  pool   : Nat
  total  : Nat
  /-- units issued, and units whose effects are performed -/
  issued : Nat
  doneN  : Nat
  /-- issued units that wait outside the lookup pipeline -/
  waiting : List UnitWait
  /-- units below are admitted; of those still under way, the ones counted as class 0 (08 R193) -/
  admitted : Nat := 0
  c0      : List Nat := []
  count0 : BitVec 64
  count1 : BitVec 64
  errAddr : Option Nat
  /-- final status once stopping, and the unit it stopped at -/
  stop   : Option (Nat × Nat)
  stuckQt : Nat
  progQt : Nat
  progDone : Nat
  /-- a keyed change since it began (05 R124) -/
  keyed  : Bool
  /-- units redone after a work buffer parity error (10 R256) -/
  redo   : List Nat
  /-- bytes of the user area that a Vault command moves, first at bit 0; how many have been moved, and the engine's own
  request that moves the next ones -/
  user   : BitVec 24576
  src    : Nat
  req    : Option Nat
  /-- unit data read from the cache that the command has not taken yet: unit, codeblock -/
  got    : List (Nat × Block)
  /-- the slot that a VAULT_SAVE writes, and its image once it is composed -/
  image  : Option (Nat × BitVec 65536)
  /-- aborted by ABORT: its ring's head moves to the accepted tail at its end (09 R222) -/
  skip   : Bool
  /-- its final entry is queued -/
  final  : Bool
  /-- that entry is DONE -/
  good   : Bool
  /-- a REGION_DROP's walk has begun -/
  begun  : Bool
  /-- which of the descriptors its ring was ever given it is -/
  num    : Nat
  deriving DecidableEq, Repr

/-- A submission ring; the fifth stands for the 8140's own WAKE_EPOCH, ring 4 of its entries (09 R226). -/
structure Ring where
  head   : Nat
  pend   : Nat
  acc    : Nat
  /-- descriptors the head has ever moved past -/
  num    : Nat
  halt   : Bool
  abort  : Bool
  /-- request of the descriptor read in flight -/
  desc   : Option Nat
  /-- boundary counts at which the accepted descriptors not yet read were accepted, and that of the one read (09 R216) -/
  stamps : List (BitVec 64)
  stamp  : BitVec 64
  /-- descriptor read, not started: waits for FENCE -/
  held   : Option (BitVec 512)
  run    : Option Running
  /-- boundaries since an accepted tail's ACCEPTED entry fell due, none when none is due (15 R371 check 1) -/
  dueQt  : Option Nat
  upd    : BitVec 8
  prog   : Reg32
  next   : BitVec 48
  deriving DecidableEq, Repr

/-- A completion entry waiting (09 R235). -/
structure CEntry where
  typ    : Nat
  ring   : Nat
  opcode : Nat
  status : Nat
  cmdId  : Reg32
  accTail : Nat
  pct    : Nat
  next   : BitVec 64
  count0 : BitVec 64
  count1 : BitVec 64
  errAddr : BitVec 64
  tick   : BitVec 64
  /-- ERROR or DONE: the ring goes on when it is written -/
  final  : Bool
  irq    : Bool
  durable : Bool
  deriving DecidableEq, Repr

/-- An event waiting (09 R236); the payload is bytes 63:16. -/
structure Event where
  block  : BitVec 4
  code   : BitVec 16
  tick   : BitVec 64
  payload : BitVec 384
  deriving DecidableEq, Repr

/-- Outcome of a WAKE_EPOCH (12 R301). -/
inductive Outcome3 where
  | none | drop | full
  deriving DecidableEq, Repr

/-- A WAKE_EPOCH in progress (15 R366). `ring` is 4 for the 8140's own run. -/
structure Epoch where
  ring    : Nat
  started : Bool
  /-- page reads issued, or waiting for a miss handler -/
  asked   : Nat := 0
  /-- parts read again after a work buffer parity error (10 R256) -/
  redo    : List Nat := []
  page    : List (Option Block)
  failed  : Bool
  decided : Option Outcome3
  /-- it walks the tags -/
  walks   : Bool := false
  epochV  : BitVec 64
  units   : Nat
  deriving DecidableEq, Repr

/-- The restrength window (09 R227). -/
structure Window where
  region : Nat
  old    : BitVec 3
  new    : BitVec 3
  first  : Nat
  cbs    : Nat
  converted : List Nat
  /-- codeblocks between step 1 and conversion: other reads wait (09 R228) -/
  busy   : List Nat
  deriving DecidableEq, Repr

/-- A completion or event entry whose write is not retired (09 R207): the engine's request, and what its retirement brings. -/
structure EngWrite where
  req    : Nat
  ring   : Nat
  /-- final entry of the ring's command; ACCEPTED entry -/
  final  : Bool
  accepted : Bool
  /-- interrupt sources it raises (09 R238) -/
  irq    : Bool
  event  : Bool
  deriving DecidableEq, Repr

structure Eng where
  en      : Bool
  /-- commands may start: EN, as the last boundary or a write of 1 left it -/
  starts  : Bool
  cfgErr  : Bool
  eqErr   : Bool
  cqErr   : Bool
  /-- rings that a lost completion entry halted (09 R223) -/
  cqHalted : BitVec 4
  seq     : BitVec 8
  rings   : List Ring
  cqHead  : Nat
  cqTail  : Nat
  cqPhase : Bool
  eqHead  : Nat
  eqTail  : Nat
  eqPhase : Bool
  /-- the event ring runs: EN has been set since the ring was last reset (14 R352, 15 R377) -/
  eqRuns  : Bool
  eqLost  : Reg32
  /-- the overflow marker is to be written when an entry frees (09 R237) -/
  marker  : Bool
  markTick : BitVec 64
  cqSaid  : Bool
  cqFullQt : Nat
  cents   : List CEntry
  /-- entries of the 8140's own WAKE_EPOCH that wait for EN (15 R368) -/
  held    : List CEntry
  events  : List Event
  writes  : List EngWrite
  /-- holders: rings 0-3, 4 for the 8140's own WAKE_EPOCH (09 R218) -/
  buffer  : Option Nat
  walker  : Option Nat
  bufLast : Nat
  walkLast : Nat
  window  : Option Window
  epoch   : Option Epoch
  deriving DecidableEq, Repr

/-! ### Integrity codes, errors -/

structure Icb where
  gseq   : BitVec 16
  /-- recent-write table, most recently updated first (10 R247) -/
  recent : List (Nat × BitVec 16)
  log0   : Reg32
  log1   : Reg32
  log2   : Reg32
  deriving DecidableEq, Repr

structure Bucket where
  level : Nat
  leak  : Nat
  /-- a configuration write resets it at the next boundary (11 R271) -/
  rst   : Bool
  deriving DecidableEq, Repr

/-- Why a position is retired (11 R285): 1 SEC, 2 DED, 3 tag parity. -/
structure Suspect where
  pos    : Nat
  count  : Nat
  wstart : BitVec 64
  deriving DecidableEq, Repr

structure Err where
  intStatus : BitVec 20
  intSeq  : BitVec 8
  fBypass : Bool
  fPoolDown : Bool
  fCsloss : Bool
  fScree  : Bool
  dmaHalt : BitVec 4
  bypLog  : Reg32
  buckets : List Bucket
  ovf     : BitVec 6
  bktSeq  : BitVec 8
  suspects : List Suspect
  /-- positions to retire, with the cause -/
  retire  : List (Nat × Nat)
  scree   : List Nat
  screeSize : BitVec 3
  screeWays : BitVec 2
  dlkPrev : Bool
  deriving DecidableEq, Repr

/-! ### Memory Port -/

/-- Who a memory read belongs to. -/
inductive ReadOwner where
  | handler (h : Nat) (granule : Bool)
  | slot (s : Nat) (granule : Bool)
  | flush (s : Nat)
  | probe
  deriving DecidableEq, Repr

/-- A memory read handed to the port (12 R292, R296, R472). `tag` is none until it is sent. -/
structure MRead where
  owner  : ReadOwner
  tag    : Option Nat
  addr   : Nat
  bytes  : Nat
  got    : List Byte
  cls    : Nat
  /-- quarantined: timed out, or ended with error status (R296, R472) -/
  quar   : Bool
  /-- it was ended with error status: its tag waits for every completion still to come (R472) -/
  ended  : Bool := false
  /-- the data link layer has been down since it was issued: no completion can come -/
  lost   : Bool
  deriving DecidableEq, Repr

/-- Link recovery (12 R297). -/
inductive Recovery where
  | idle | training | probing
  deriving DecidableEq, Repr

structure Mem where
  reads   : List MRead
  recov   : Recovery
  cause   : Nat
  downQt  : Nat
  /-- a retry fell due at the last boundary, and has not started (12 R298) -/
  retryDue : Bool
  dlUp    : Bool
  pstate  : BitVec 2
  width   : BitVec 4
  speed   : BitVec 4
  /-- a retraining that software asked for runs -/
  retraining : Bool
  cfgBusy : Bool
  /-- the request outstanding is a CfgRd0 -/
  cfgRead : Bool
  /-- the request while it waits to be sent, and its tag once it is (12 R287, R297) -/
  cfgWait : Option Tlp
  cfgTag  : Option Nat
  cfgCpls : BitVec 3
  aerCor  : BitVec 6
  aerUnc  : BitVec 6
  corSeq  : BitVec 8
  uncSeq  : BitVec 8
  bridgeInt : Bool
  vSeq    : BitVec 8
  vCode   : BitVec 8
  vHdr    : List Reg32
  /-- SEEN as the Bedrock island holds it (12 R301) -/
  seen    : BitVec 64
  /-- PE_CLKREQ_N was asserted in Sleep: logged at wake (12 R307) -/
  clkreq  : Bool
  deriving DecidableEq, Repr

/-! ### Cache Store Port -/

/-- What an access of the Cache Store Port serves (13 R322). -/
inductive AccKind where
  | hit (req : Nat)
  | completion (slot : Nat)
  | fetch (req : Nat)
  | unit (ring unit : Nat)
  | store
  | install (h : Nat)
  deriving DecidableEq, Repr

/-- An access. For a write `data` and `mask` are what it writes; for a read, what writes before it have served it with (13 R323). -/
structure Acc where
  id     : Nat
  kind   : AccKind
  pos    : Nat
  sectors : List Nat
  data   : Block
  mask   : BlockMask
  counted : Bool
  cls    : Nat
  /-- bursts still to be issued, by sector; it holds its bank between two of them (13 R325) -/
  left   : List Nat
  inRow  : Bool := false
  /-- a read, or read-modify-write, whose bursts are all issued: its data is to come -/
  issued : Bool
  deriving DecidableEq, Repr

structure Csp where
  ready   : Bool
  busy    : Bool
  step    : BitVec 4
  errCode : BitVec 4
  seq     : BitVec 8
  fromVault : Bool
  sref    : Bool
  /-- trained values and stamp, the stamp in bytes 3:0 -/
  record  : Block
  /-- values of a Vault record are being checked (13 R318) -/
  trial   : Bool
  accs    : List Acc
  nextAcc : Nat
  vddqLow : Bool
  cke     : Bool
  resetN  : Bool
  ddrLock : Bool
  /-- boundaries since the last ZQCS or READY, per rank -/
  zq0     : Nat
  zq1     : Nat
  /-- ZQIVL as the last boundary took it (13 R316) -/
  ivl     : Nat
  deriving DecidableEq, Repr

/-! ### Clocks -/

/-- Class of a drift window (14 R348). -/
inductive Drift where
  | good | warning | fault | lost
  deriving DecidableEq, Repr

structure Clk where
  xoOk    : Bool
  lock    : Bool
  relocking : Bool
  trigger : Nat
  lol     : Bool
  warnEv  : Bool
  faultEv : Bool
  lossEv  : Bool
  fault   : Bool
  refsw   : Bool
  seq     : BitVec 8
  monUpd  : BitVec 8
  monD    : BitVec 24
  lastWin : Option Drift
  measValid : Bool
  measCount : BitVec 31
  /-- boundaries of the SYNC measurement run, and whether one was a lost edge's or a relock overlapped it; the validity of a run that has
  ended and whose count is still to be written (14 R351) -/
  measN   : Nat
  measBad : Bool
  measEnd : Option Bool
  /-- loop bandwidth in force, BW as the last relock took it (14 R339) -/
  bw      : BitVec 2
  deriving DecidableEq, Repr

/-! ### Power, Vault -/

/-- Where the part stands (15 R353, R357, R358). -/
inductive PPhase where
  | off | reset | c1 | c2 | on | sleep | offrdy
  deriving DecidableEq, Repr

/-- STATE of PWR_STATUS (15 R379); Run and Idle are told apart when it is read. -/
inductive PState where
  | run | entering | waking | preparing | offrdy
  deriving DecidableEq, Repr

/-- Step of Sleep or Off entry reached (15 R361). -/
inductive EStep where
  | armed | e2 | e3 | e3flush | e4 | turnOff
  deriving DecidableEq, Repr

structure EntryRun where
  off   : Bool
  step  : EStep
  ticks : Nat
  flushed : Bool
  deriving DecidableEq, Repr

structure Wake where
  w3 : Bool
  w4 : Bool
  w5 : Bool
  w7 : Bool
  outcome : Outcome3
  deriving DecidableEq, Repr

structure Pwr where
  phase   : PPhase
  st      : PState
  entry   : Option EntryRun
  /-- a SLEEP_REQ edge, and a SLEEP write, met while entry or wake was in progress (15 R360) -/
  latchSleep : Bool
  latchWrite : Bool
  latchWake : Bool
  failRsn : BitVec 4
  seq     : BitVec 8
  hbFail  : BitVec 8
  fullRdy : Bool
  c0Rdy   : Bool
  hb      : Bool
  wake    : Option Wake
  /-- PWR_HB_CFG as the Bedrock domain holds it -/
  hbBr    : Reg32
  /-- TST_LANE_CFG as the PHY domain holds it -/
  lanePhy : Reg32
  busyBr  : Bool
  busyPhy : Bool
  /-- INT_N and FAULT_N asserted, as step E6 of Sleep entry met them: they hold those levels until step W8 (19 R426, R433) -/
  intHeld   : Bool
  faultHeld : Bool
  deriving DecidableEq, Repr

structure Vlt where
  slots  : List (BitVec 65536)
  bad    : BitVec 8
  valid  : BitVec 8
  none   : Bool
  newest : BitVec 3
  sseq   : Reg32
  deriving DecidableEq, Repr

/-! ### Register file and its guards -/

/-- A cacheable NORMAL region whose EN was cleared while the cache is enabled: the old pool range [first, end) is still to be dropped
(01 R31 step 2), by a REGION_DROP submitted after that. `rung` is how many descriptors each ring had been given when EN was cleared. -/
structure Stale where
  region : Nat
  first  : Nat
  stop   : Nat
  rung   : List Nat
  deriving DecidableEq, Repr

structure Cfg where
  /-- stored registers that differ from their reset value, by offset -/
  regs    : List (Nat × Reg32)
  /-- members whose stored parity bit is not the even parity of the stored value -/
  parBad  : List Nat
  /-- members whose parity error has been a cause since their last write (11 R280) -/
  parSeen : List Nat
  live    : List (Nat × BitVec 64)
  hold    : List (Nat × BitVec 64)
  unlocked : Option Nat
  unlkQt  : Nat
  seq     : BitVec 8
  dropPhy : Bool
  dropBr  : Bool
  keyBad  : Bool
  refused : Bool
  keyLog  : Reg32
  snapSeq : BitVec 8
  armed   : Bool
  window  : Bool
  winQt   : Nat
  /-- the last boundary found a pass due, which has not started -/
  passWait : Bool
  pass    : Bool
  passPos : Nat
  passCrc : Reg32
  /-- the running pass started after the most recent Bypass cause -/
  passNew : Bool
  lastOk  : Bool
  crcLast : Reg32
  refPend : Bool
  /-- a pass that started after the most recent Bypass cause has matched (05 R125 check 4) -/
  okSince : Bool
  stale   : List Stale
  deriving DecidableEq, Repr

/-- TAP instructions (18 R413). -/
inductive TapInstr where
  | extest | sample | idcode | highz | clamp | pulse | train | mbist | bypass
  deriving DecidableEq, Repr

/-- The states of the TAP controller (18 R410, IEEE 1149.1). -/
inductive TapState where
  | testLogicReset | runTestIdle
  | selectDr | captureDr | shiftDr | exit1Dr | pauseDr | exit2Dr | updateDr
  | selectIr | captureIr | shiftIr | exit1Ir | pauseIr | exit2Ir | updateIr
  deriving DecidableEq, Repr

/-- The test access port. -/
structure Tap where
  st     : TapState
  /-- the instruction of the opcode that Update-IR applied last, or of a reset -/
  instr  : TapInstr
  /-- the shift stages of the instruction register (18 R412), of the identification and MBIST registers (R415, R425), of the bypass
  register (R416) and of the boundary register (R417) -/
  ir     : BitVec 8
  dr     : BitVec 32
  byp    : BitVec 1
  cells  : BitVec 1112
  /-- the updated output and control cells (18 R417) -/
  update : BitVec 1112
  /-- PCIe transmitters drive the complement of their cells (18 R419) -/
  flip   : Bool
  /-- polarity of the last transition at each leg of the test receivers: 1 rising (18 R419) -/
  rx     : BitVec 16
  deriving DecidableEq, Repr

structure Tst where
  busy   : Bool
  done   : Bool
  rsn    : BitVec 2
  fail   : BitVec 9
  tested : BitVec 9
  /-- a run waits for the ports and drains to be quiet (18 R422) -/
  quiescing : Bool
  tap    : Tap
  deriving DecidableEq, Repr

/-! ### The state -/

structure State where
  pending : List Instr
  undef   : Option UndefCause
  freeCtr : Nat
  out     : List Out
  bus     : Bus
  prb     : Prb
  cch     : Cch
  wrb     : Wrb
  qtk     : Qtk
  eng     : Eng
  icb     : Icb
  err     : Err
  mem     : Mem
  csp     : Csp
  clk     : Clk
  pwr     : Pwr
  vlt     : Vlt
  cfg     : Cfg
  tst     : Tst
  deriving DecidableEq, Repr

/-! ### Reset -/

def Port.reset : Port :=
  { granted := none, prevAgent := false, lastUrg := 5, lastAny := 5, quiet := false, again := none, untag := 0,
    vlog0 := 0, vlog1 := 0, vcode := 0, plog := 0 }

def Bus.reset : Bus :=
  { portA := Port.reset, portB := Port.reset, strap := 0, rsns := 0, rsnsPin := 0, reqs := [], nextReq := 0, resps := [] }

def Prb.reset : Prb := { probes := [], nextId := 0, unresp := 0, toev := 0, seq := 0 }

def Detector.reset : Detector := { valid := false, last := 0, stride := 0, conf := 0 }

def Cch.reset : Cch :=
  { tags := [], known := 0, epoch := 0, enabled := false, bypass := false, invDone := false, enSeq := 0, enFail := 0,
    dlog0 := 0, dlog1 := 0, handlers := [], dets := List.replicate 12 Detector.reset, cands := [], setClr := [],
    secClr := [], rank2 := [], filter := [], walked := 0 }

def Wrb.reset : Wrb :=
  { entries := [], nextEnt := 0, nextFull := 0, slots := [], nextSlot := 0, arms := List.replicate 8 none, armWr := 0, armBy := List.replicate 8 none,
    locks := [], broken := [], brk := 0 }

def Round.reset : Round := { cls := 1, used := 0 }

def Qtk.reset : Qtk :=
  { running := false, n := 10, syncIn := false, syncOut := false, budget := 16, inflight := 3, w1 := 4, w2 := 2, w3 := 1,
    cmdMin := 32, csRound := Round.reset, memRound := Round.reset, pipeRound := Round.reset, ageMax := 4, ntAge := 1, relocked := false, relockAll := false, quanta := true, portB := true,
    walkLast := false,
    syncOk := false, early := false, loss := false, seq := 0 }

def Ring.reset : Ring :=
  { head := 0, pend := 0, acc := 0, num := 0, halt := false, abort := false, desc := none, stamps := [], stamp := 0,
    held := none, run := none, dueQt := none, upd := 0, prog := 0, next := 0 }

def Eng.reset : Eng :=
  { en := false, starts := false, cfgErr := false, eqErr := false, cqErr := false, cqHalted := 0, seq := 0, rings := List.replicate 5 Ring.reset,
    cqHead := 0, cqTail := 0, cqPhase := true, eqHead := 0, eqTail := 0, eqPhase := true, eqRuns := false, eqLost := 0, marker := false,
    markTick := 0, cqSaid := false, cqFullQt := 0, cents := [], held := [], events := [], writes := [], buffer := none, walker := none, bufLast := 3,
    walkLast := 3, window := none, epoch := none }

def Icb.reset : Icb := { gseq := 0, recent := [], log0 := 0, log1 := 0, log2 := 0 }

def Bucket.reset : Bucket := { level := 0, leak := 0, rst := false }

def Err.reset : Err :=
  { intStatus := 0, intSeq := 0, fBypass := false, fPoolDown := false, fCsloss := false, fScree := false, dmaHalt := 0,
    bypLog := 0, buckets := List.replicate 6 Bucket.reset, ovf := 0, bktSeq := 0, suspects := [], retire := [],
    scree := [], screeSize := 0, screeWays := 0, dlkPrev := false }

def Mem.reset : Mem :=
  { reads := [], recov := .idle, cause := 0, downQt := 0, retryDue := false, dlUp := false, pstate := 0,
    width := 0, speed := 0, retraining := false, cfgBusy := false, cfgRead := false, cfgWait := none, cfgTag := none, cfgCpls := 0, aerCor := 0, aerUnc := 0, corSeq := 0, uncSeq := 0,
    bridgeInt := false, vSeq := 0, vCode := 0, vHdr := [0, 0, 0, 0], seen := 0, clkreq := false }

def Csp.reset : Csp :=
  { ready := false, busy := false, step := 0, errCode := 0, seq := 0, fromVault := false, sref := false, record := 0,
    trial := false, accs := [], nextAcc := 0, vddqLow := false, cke := false, resetN := false, ddrLock := false, zq0 := 0,
    zq1 := 0, ivl := 8 }

def Clk.reset : Clk :=
  { xoOk := false, lock := false, relocking := false, trigger := 0, lol := false, warnEv := false, faultEv := false,
    lossEv := false, fault := false, refsw := false, seq := 0, monUpd := 0, monD := 0, lastWin := none,
    measValid := false, measCount := 0, measN := 0, measBad := false, measEnd := none, bw := 1 }

def Pwr.reset : Pwr :=
  { phase := .reset, st := .run, entry := none, latchSleep := false, latchWrite := false, latchWake := false, failRsn := 0, seq := 0, hbFail := 0,
    fullRdy := true, c0Rdy := true, hb := false, wake := none, hbBr := 0x8C080007, lanePhy := 0, busyBr := false,
    busyPhy := false, intHeld := false, faultHeld := false }

/-- VLT registers at reset; the Vault's slots themselves are kept over a reset (15 R357). -/
def Vlt.reset : Vlt :=
  { slots := List.replicate 8 0, bad := 0, valid := 0, none := false, newest := 0, sseq := 0 }

def Cfg.reset : Cfg :=
  { regs := [], parBad := [], parSeen := [], live := [], hold := [], unlocked := none, unlkQt := 0, seq := 0,
    dropPhy := false, dropBr := false, keyBad := false, refused := false, keyLog := 0, snapSeq := 0, armed := false,
    window := false, winQt := 0, passWait := false, pass := false, passPos := 0, passCrc := 0xFFFFFFFF, passNew := false, lastOk := false,
    crcLast := 0, refPend := false, okSince := false, stale := [] }

/-- The TAP as its power-on detector leaves it: Test-Logic-Reset with IDCODE (18 R410); the registers hold 0 (log entry 8). -/
def Tap.reset : Tap :=
  { st := .testLogicReset, instr := .idcode, ir := 0, dr := 0, byp := 0, cells := 0, update := 0, flip := false, rx := 0 }

def Tst.reset : Tst :=
  { busy := false, done := false, rsn := 0, fail := 0, tested := 0, quiescing := false, tap := Tap.reset }

/-- The machine right after reset: PORST_N asserted, every register at its reset value (15 R357, 17 R404), tags undefined,
HEARTBEAT low. The rising edge of PORST_N is COLD_RESET. Values the spec does not give are named in log entry 8. -/
def State.reset : State :=
  { pending := [], undef := none, freeCtr := 0, out := [], bus := Bus.reset, prb := Prb.reset, cch := Cch.reset,
    wrb := Wrb.reset, qtk := Qtk.reset, eng := Eng.reset, icb := Icb.reset, err := Err.reset, mem := Mem.reset,
    csp := Csp.reset, clk := Clk.reset, pwr := Pwr.reset, vlt := Vlt.reset, cfg := Cfg.reset, tst := Tst.reset }

end Sys2Proof.Machine
end

