-- ==== Sys2Proof/Machine/Bits.lean ====
section
/-! DEFINITION. Bit fields, bytes, masks, parity and canonical maps: the helpers every other file uses (00 R9, R10, R11). -/

namespace Sys2Proof.Machine

/-! ### Canonical maps: keys strictly rising, no value equal to the default -/

/-- The value at `k`: the listed one, else the default. -/
def mget {α : Type} (d : Nat → α) : List (Nat × α) → Nat → α
  | [], k => d k
  | (i, v) :: m, k => if i = k then v else mget d m k

/-- Insert in rising key order, replacing an entry of the same key. -/
def minsert {α : Type} (k : Nat) (v : α) : List (Nat × α) → List (Nat × α)
  | [] => [(k, v)]
  | (i, w) :: m => if k < i then (k, v) :: (i, w) :: m else if i = k then (k, v) :: m else (i, w) :: minsert k v m

def merase {α : Type} (k : Nat) (m : List (Nat × α)) : List (Nat × α) := m.filter fun e => e.1 != k

/-- Write `v` at `k`; the default is not listed. -/
def mset {α : Type} [DecidableEq α] (d : Nat → α) (m : List (Nat × α)) (k : Nat) (v : α) : List (Nat × α) :=
  if v = d k then merase k m else minsert k v m

/-- The canonical form. -/
def mwf {α : Type} [DecidableEq α] (d : Nat → α) (m : List (Nat × α)) : Bool :=
  decide (m.Pairwise fun a b => a.1 < b.1) && m.all fun e => decide (e.2 ≠ d e.1)

/-! ### Lists of records -/

/-- Change every element that satisfies `p`. -/
def updIf {α : Type} (l : List α) (p : α → Bool) (f : α → α) : List α := l.map fun x => if p x then f x else x

/-- Change element `i`. -/
def updAt {α : Type} (l : List α) (i : Nat) (f : α → α) : List α := l.modify i f

/-! ### Fields -/

/-- Bits `[hi:lo]` as a number. -/
def fld {w : Nat} (x : BitVec w) (hi lo : Nat) : Nat := (x.extractLsb' lo (hi + 1 - lo)).toNat

/-- `x` with bits `[hi:lo]` replaced. -/
def put (x : Reg32) (hi lo v : Nat) : Reg32 :=
  let m : Reg32 := BitVec.ofNat 32 ((2 ^ (hi + 1 - lo) - 1) <<< lo)
  (x &&& ~~~m) ||| (BitVec.ofNat 32 (v <<< lo) &&& m)

/-- A shift register takes `b` at its top; its lowest bit has gone out. -/
def shiftIn {w : Nat} (x : BitVec w) (b : Bool) : BitVec w := (x >>> 1) ||| ((BitVec.ofBool b).setWidth w <<< (w - 1))

def bit {w : Nat} (b : Bool) (i : Nat) : BitVec w := if b then BitVec.ofNat w (1 <<< i) else 0

/-- Set or clear bit `i`. -/
def setBit {w : Nat} (x : BitVec w) (i : Nat) (b : Bool) : BitVec w :=
  if b then x ||| bit true i else x &&& ~~~(bit true i)

/-- Number of ones. -/
def ones : Nat → Nat → Nat
  | 0, _ => 0
  | n + 1, x => (x % 2) + ones n (x / 2)

/-- Even parity bit of the low `n` bits (02 R38, 05 R113). -/
def parity (n x : Nat) : Bool := ones n x % 2 == 1

/-- Byte parity of `n` bytes, bit `i` for byte `i` (02 R38, 03 R75). -/
def byteParity (n : Nat) (x : Nat) : Nat :=
  (List.range n).foldl (fun a i => if parity 8 (x >>> (8 * i)) then a ||| (1 <<< i) else a) 0

/-- Indexes of the set bits below `n`. -/
def bitsOf {w : Nat} (n : Nat) (x : BitVec w) : List Nat := (List.range n).filter fun i => x.getLsbD i

/-! ### Bytes -/

/-- Byte `i`. -/
def byteAt {w : Nat} (x : BitVec w) (i : Nat) : Byte := x.extractLsb' (8 * i) 8

/-- Little-endian number of a list of bytes (00 R11). -/
def ofBytes : List Byte → Nat
  | [] => 0
  | b :: bs => b.toNat + 256 * ofBytes bs

/-- A byte mask of `n` bytes as a bit mask. -/
def spread : Nat → Nat → Nat
  | 0, _ => 0
  | n + 1, m => (if m.testBit n then 0xFF <<< (8 * n) else 0) ||| spread n m

def spreadSector (m : SectorMask) : Sector := BitVec.ofNat 512 (spread 64 m.toNat)
def spreadBlock (m : BlockMask) : Block := BitVec.ofNat 4096 (spread 512 m.toNat)

/-- Put the bytes of `new` that `m` selects over `old`. -/
def overSector (old new : Sector) (m : SectorMask) : Sector :=
  (old &&& ~~~(spreadSector m)) ||| (new &&& spreadSector m)

/-- Put the bytes of `new` that `m` selects over `old` (07 R163, R171). -/
def overBlock (old new : Block) (m : BlockMask) : Block :=
  (old &&& ~~~(spreadBlock m)) ||| (new &&& spreadBlock m)

/-- Sector `k` of a codeblock (05 R109). -/
def sectorOf (b : Block) (k : Nat) : Sector := b.extractLsb' (512 * k) 512

/-- A sector's bytes in their place in the codeblock. -/
def placeSector (s : Sector) (k : Nat) : Block := (s.setWidth 4096) <<< (512 * k)
def placeMask (m : SectorMask) (k : Nat) : BlockMask := (m.setWidth 512) <<< (64 * k)

/-- The mask of whole sector `k`. -/
def sectorMask (k : Nat) : BlockMask := placeMask (BitVec.allOnes 64) k

/-- Beat `i` of a sector. -/
def beatOf (s : Sector) (i : Nat) : Beat64 := s.extractLsb' (64 * i) 64

/-- Beats first to first + n - 1 of a sector. -/
def beatsOf (s : Sector) (first n : Nat) : List Beat64 := (List.range n).map fun i => beatOf s (first + i)

/-- Sectors that hold a byte of the mask. -/
def sectorsIn (m : BlockMask) : List Nat :=
  (List.range 8).filter fun k => m.extractLsb' (64 * k) 64 != (0 : BitVec 64)

/-- Sector mask of the beats `first … first + n - 1`. -/
def beatMask (first n : Nat) : SectorMask := BitVec.ofNat 64 ((2 ^ (8 * n) - 1) <<< (8 * first))

end Sys2Proof.Machine
end

