-- ==== Sys2Proof/Machine/Regs.lean ====
section
/-! DEFINITION. The register file: offsets, reset values, writable bits, members and keyed registers (17), the stored values
with their parity (16 R398), and the fields other chapters act on, each as it acts. -/

namespace Sys2Proof.Machine

/-! ### Offsets (17) -/

def rAgpCfg : PortId → Nat | .A => 0x0000 | .B => 0x0004
def rPrbCfg : Nat := 0x1000
def rRgnBase (n : Nat) : Nat := 0x2000 + 0x10 * n
def rRgnLimit (n : Nat) : Nat := 0x2004 + 0x10 * n
def rRgnXlat (n : Nat) : Nat := 0x2008 + 0x10 * n
def rRgnAttr (n : Nat) : Nat := 0x200C + 0x10 * n
def rGeom : Nat := 0x2100
def rRepl : Nat := 0x2110
def rPf : Nat := 0x2114
def rWrbCfg : Nat := 0x3000
def rQtkCfg : Nat := 0x4000
def rQtkBudget : Nat := 0x4008
def rQtkSched : Nat := 0x400C
def rRingLo (n : Nat) : Nat := 0x5000 + 0x10 * n
def rRingHi (n : Nat) : Nat := 0x5004 + 0x10 * n
def rRingSize (n : Nat) : Nat := 0x5008 + 0x10 * n
def rCmdCfg : Nat := 0x5104
def rIcbCfg : Nat := 0x6000
def rIntEn : Nat := 0x7004
def rBktCfg (n : Nat) : Nat := 0x7020 + 4 * n
def rSuspCfg : Nat := 0x7060
def rLockCfg : Nat := 0x7064
def rDlkCfg : Nat := 0x7068
def rScreeCtrl : Nat := 0x7070
def rScreeIdx : Nat := 0x7074
def rPoolLo : Nat := 0x8000
def rPoolHi : Nat := 0x8004
def rDsize : Nat := 0x8008
def rLinkCfg : Nat := 0x8010
def rLinkCtrl : Nat := 0x8014
def rCfgaAddr : Nat := 0x8020
def rCfgaCtrl : Nat := 0x8024
def rCfgaData : Nat := 0x8028
def rEpochLo : Nat := 0x8030
def rEpochHi : Nat := 0x8034
def rCspCfg : Nat := 0x9000
def rTim0 : Nat := 0x9004
def rTim1 : Nat := 0x9008
def rTim2 : Nat := 0x900C
def rPllCfg : Nat := 0xA000
def rGate : Nat := 0xA00C
def rMon : Nat := 0xA010
def rPwrCfg : Nat := 0xB004
def rHbCfg : Nat := 0xB008
def rCfgRef : Nat := 0xD010
def rTapCfg : Nat := 0xE000
def rMbistSel : Nat := 0xE004
def rLane : Nat := 0xE010

/-- Stored registers (RW, RWK, RWP fields) outside the region and ring arrays: offset, reset value, writable stored bits. -/
def storedTable : List (Nat × Reg32 × Reg32) :=
  [(0x0000, 0x00002000, 0x8000303F), (0x0004, 0x00002000, 0x8000303F), (0x1000, 0x00000004, 0x000000FF),
   (0x2100, 0x00000033, 0x00000037), (0x2110, 0x00000741, 0xFFFF0FF1), (0x2114, 0x00100822, 0x80FFFFF3),
   (0x3000, 0x04040410, 0x0FFF0FF0), (0x4000, 0x0000000A, 0x0000031F), (0x4008, 0x00000310, 0x00000FFF),
   (0x400C, 0x20000124, 0xFF000FFF), (0x5104, 0x00400800, 0x00FF0F00), (0x6000, 0x00000001, 0x00000003),
   (0x7004, 0x00000000, 0x000FFFFF)] ++
  [(0x7020, 0x00100040, 0x00FFFFFF), (0x7024, 0x00040020, 0x00FFFFFF), (0x7028, 0x00FF0004, 0x00FFFFFF),
   (0x702C, 0x00400010, 0x00FFFFFF), (0x7030, 0x00FF0002, 0x00FFFFFF), (0x7034, 0x00FF0002, 0x00FFFFFF),
   (0x7060, 0x00030400, 0x000FFFFF), (0x7064, 0x00000040, 0x000000FF), (0x7068, 0x00000001, 0x00000001),
   (0x7074, 0x00000000, 0x000003FF)] ++
  [(0x8000, 0x00000000, 0xFFFF0000), (0x8004, 0x00000000, 0xFFFFFFFF), (0x8008, 0x00000000, 0x00003FFF),
   (0x800C, 0x00320028, 0x00FF003F), (0x8010, 0x00000A34, 0x0001FF7F), (0x8014, 0x00000000, 0xC0000000),
   (0x8020, 0x00000000, 0x00007FFC), (0x8024, 0x0000000F, 0x0000010F), (0x8028, 0x00000000, 0xFFFFFFFF),
   (0x8030, 0x00000000, 0xFFFFFFFF), (0x8034, 0x00000000, 0xFFFFFFFF)] ++
  [(0x9000, 0x001E0100, 0x003F1313), (0x9004, 0x038C596B, 0x07FFFBFF), (0x9008, 0x71595988, 0xFFFFFFFC),
   (0x900C, 0x34090800, 0xFFDFFF00), (0xA000, 0x00000001, 0x00000103), (0xA00C, 0x0000003F, 0x0000003F),
   (0xA010, 0x13E800FA, 0xF3FF03FF), (0xB004, 0x04000001, 0xFFFF0001), (0xB008, 0x8C080007, 0x8F0F007F),
   (0xD010, 0x00000000, 0xFFFFFFFF), (0xE000, 0x00000000, 0x00000001), (0xE004, 0x00000000, 0x000001FF),
   (0xE010, 0x00000000, 0x00000033)]

/-- Row of the table, with the region registers (01 R23) and ring registers (09 R205). -/
def storedRow (off : Nat) : Option (Reg32 × Reg32) :=
  if 0x2000 ≤ off && off < 0x2100 && off % 4 = 0 then
    some (0, if off % 16 = 8 then 0x0FFFFFFF else if off % 16 = 12 then 0x800703F9 else 0xFFFFFFFF)
  else if 0x5000 ≤ off && off < 0x5060 && off % 4 = 0 then
    if off % 16 = 0 then some (0, 0xFFFFFC00) else if off % 16 = 4 then some (0, 0x0000FFFF)
    else if off % 16 = 8 then some (0, 0x0000000F) else none
  else (storedTable.find? fun r => r.1 == off).map fun r => r.2

/-- Value while PORST_N is asserted (17 R404). -/
def resetVal (off : Nat) : Reg32 := ((storedRow off).map fun r => r.1).getD 0

/-- Stored bits; reserved bits store 0 (00 R13). -/
def storedMask (off : Nat) : Reg32 := ((storedRow off).map fun r => r.2).getD 0

/-- The 120 members of the configuration set in ascending offset order (16 R399, 17 R405). -/
def members : List Nat :=
  [0x0000, 0x0004, 0x1000] ++ (List.range 64).map (fun i => 0x2000 + 4 * i) ++
  [0x2100, 0x2110, 0x2114, 0x3000, 0x4000, 0x4008, 0x400C] ++
  (List.range 6).flatMap (fun n => [0x5000 + 0x10 * n, 0x5004 + 0x10 * n, 0x5008 + 0x10 * n]) ++
  [0x5104, 0x6000, 0x7020, 0x7024, 0x7028, 0x702C, 0x7030, 0x7034, 0x7060, 0x7064, 0x7068,
   0x8000, 0x8004, 0x8008, 0x800C, 0x8010, 0x9000, 0x9004, 0x9008, 0x900C, 0xA000, 0xA00C, 0xA010,
   0xB004, 0xB008, 0xE000, 0xE004, 0xE010]

def isMember (off : Nat) : Bool := members.contains off

/-- Registers with an RWK field (16 R389, 17 column K). -/
def isKeyed (off : Nat) : Bool :=
  [0x0000, 0x0004, 0x1000, 0x2100, 0x2110, 0x4000, 0x4008, 0x5104, 0x6000, 0x7070, 0x8000, 0x8004, 0x8008, 0x800C, 0x8010,
   0x9000, 0x9004, 0x9008, 0x900C, 0xA000, 0xB004].contains off
  || (0x2000 ≤ off && off < 0x2100 && off % 4 == 0) || (0x5000 ≤ off && off < 0x5060 && off % 4 == 0 && off % 16 != 12)

/-! ### Stored values -/

/-- The stored value of a register. -/
def reg (s : State) (off : Nat) : Reg32 := mget resetVal s.cfg.regs off

/-- Store a value: reserved bits store 0 (00 R13) and a fresh parity bit is generated (16 R398). -/
def regPut (s : State) (off : Nat) (v : Reg32) : State :=
  { s with cfg := { s.cfg with
      regs := mset resetVal s.cfg.regs off (v &&& storedMask off),
      parBad := s.cfg.parBad.filter (· != off),
      parSeen := s.cfg.parSeen.filter (· != off) } }

/-! ### Fields as they act -/

def portOf (who : Nat) : PortId := if who < 4 ∨ who = 8 ∨ who = 9 then .A else .B

/-- Request/grant pair of a requester (01 R14). -/
def pairOf (who : Nat) : Nat := if who < 8 then who % 4 else 4 + who % 2

/-- Requester on a pair (01 R14). -/
def whoAt (p : PortId) (pair : Nat) : Nat :=
  match p with
  | .A => if pair < 4 then pair else 4 + pair
  | .B => if pair < 4 then 4 + pair else 6 + pair

def portEn (s : State) (p : PortId) : Bool := (reg s (rAgpCfg p)).getLsbD 31
def attachedMask (s : State) (p : PortId) : BitVec 6 := (reg s (rAgpCfg p)).extractLsb' 0 6
def attached (s : State) (who : Nat) : Bool := (attachedMask s (portOf who)).getLsbD (pairOf who)
def inReset (s : State) (who : Nat) : Bool := s.bus.rsns.getLsbD who

/-- Probe timeout in Qt (03 R88). -/
def probeTmo (s : State) : Nat := max 1 (fld (reg s rPrbCfg) 7 0)

/-- Region attribute fields (01 R23). -/
def attrEn (a : Reg32) : Bool := a.getLsbD 31
def attrStr (a : Reg32) : BitVec 3 := a.extractLsb' 16 3
def attrClass (a : Reg32) : Nat := fld a 9 8
def attrDurable (a : Reg32) : Bool := a.getLsbD 7
def attrLockable (a : Reg32) : Bool := a.getLsbD 6
def attrPrefetch (a : Reg32) : Bool := a.getLsbD 5
def attrEarly (a : Reg32) : Bool := a.getLsbD 4
def attrCacheable (a : Reg32) : Bool := a.getLsbD 3
def attrDevice (a : Reg32) : Bool := a.getLsbD 0

def rgnBase (s : State) (n : Nat) : Nat := (reg s (rRgnBase n)).toNat <<< 16
def rgnLimit (s : State) (n : Nat) : Nat := (reg s (rRgnLimit n)).toNat <<< 16
def rgnXlat (s : State) (n : Nat) : Nat := (reg s (rRgnXlat n)).toNat <<< 16
def rgnAttr (s : State) (n : Nat) : Reg32 := reg s (rRgnAttr n)

/-- Geometry (05 R120): log2 of the ways, of the lines, of the sets. -/
def logWays (s : State) : Nat := fld (reg s rGeom) 5 4 + 1
def ways (s : State) : Nat := 2 ^ logWays s
def sizeCode (s : State) : Nat := fld (reg s rGeom) 2 0
def logSets (s : State) : Nat := 18 + sizeCode s - logWays s
def sets (s : State) : Nat := 2 ^ logSets s

/-- Cacheable span (05): pool addresses below it. -/
def span (s : State) : Nat := min (2 ^ (27 + logSets s)) (2 ^ 44)

/-- Replacement fields (06 R145). -/
def rsvWays (s : State) : BitVec 16 := (reg s rRepl).extractLsb' 16 16
def lockMax (s : State) : Nat := min (fld (reg s rRepl) 11 8) (ways s - 1)
def c0Max (s : State) : Nat := fld (reg s rRepl) 7 4
def c0Prot (s : State) : Bool := (reg s rRepl).getLsbD 0

/-- Prefetch fields (06 R148). -/
def pfEn (s : State) : Bool := (reg s rPf).getLsbD 31
def pfMax (s : State) : Nat := min 0x30 (fld (reg s rPf) 23 16)
def pfFloor (s : State) : Nat := fld (reg s rPf) 15 8
def pfDepth (s : State) : Nat := min 8 (max 1 (fld (reg s rPf) 7 4))
def pfConf (s : State) : Nat := fld (reg s rPf) 1 0

/-- Write buffer fields (07 R180). -/
def c0Rsv (s : State) : Nat := min 8 (fld (reg s rWrbCfg) 27 24)
def lowWater (s : State) : Nat := fld (reg s rWrbCfg) 11 8

/-- Pool layout (12 R289, R291): DSIZE in bytes, check region, control area. -/
def dsize (s : State) : Nat := let d := fld (reg s rDsize) 13 0; if d > 0x3800 then 0 else d
def dataEnd (s : State) : Nat := 2 ^ 30 * dsize s
def granuleAddr (s : State) (cb : Nat) : Nat := dataEnd s + cb * 64
def controlBase (s : State) : Nat := 2 ^ 30 * dsize s + 2 ^ 27 * dsize s
def flushWord (s : State) : Nat := controlBase s + 0x1000

/-- Bus address of a pool address (12 R290). -/
def busAddr (s : State) (a : Nat) : BitVec 64 :=
  BitVec.ofNat 64 (2 ^ 32 * (reg s rPoolHi).toNat + (reg s rPoolLo).toNat + a)

/-- Rings (09 R205): entries, 0 when absent; base. -/
def ringSize (s : State) (n : Nat) : Nat := let l := fld (reg s (rRingSize n)) 3 0; if 4 ≤ l ∧ l ≤ 12 then 2 ^ l else 0
def ringBase (s : State) (n : Nat) : Nat := 2 ^ 32 * (reg s (rRingHi n)).toNat + (reg s (rRingLo n)).toNat
def mhMax (s : State) : Nat := min 8 (max 1 (fld (reg s rCmdCfg) 11 8))
def progIvl (s : State) : Nat := fld (reg s rCmdCfg) 23 16

def blankOk (s : State) : Bool := (reg s rIcbCfg).getLsbD 1
def seqChk (s : State) : Bool := (reg s rIcbCfg).getLsbD 0

/-- Buckets, suspect table, locks (11 R270, R272, R277). -/
def bktDepth (s : State) (n : Nat) : Nat := max 1 (fld (reg s (rBktCfg n)) 15 0)
def bktLeak (s : State) (n : Nat) : Nat := fld (reg s (rBktCfg n)) 23 16
def suspRepeat (s : State) : Nat := max 1 (fld (reg s rSuspCfg) 19 16)
def suspWindow (s : State) : Nat := max 1 (fld (reg s rSuspCfg) 15 0)
def lockTmo (s : State) : Nat := max 1 (fld (reg s rLockCfg) 7 0)
def dlkEn (s : State) : Bool := (reg s rDlkCfg).getLsbD 0

/-- Links (12). -/
def linkEn (s : State) : Bool := (reg s rLinkCtrl).getLsbD 31
def perstOffBit (s : State) : Bool := (reg s rLinkCtrl).getLsbD 30
def maxWidth (s : State) : Nat := let m := fld (reg s rLinkCfg) 6 4; if m < 3 then 2 ^ m else 8
def maxSpeed (s : State) : Nat := let m := fld (reg s rLinkCfg) 3 0; if 1 ≤ m ∧ m ≤ 4 then m else 4
def aspmL1 (s : State) : Bool := (reg s rLinkCfg).getLsbD 16

/-- Cache Store Port (13 R312-R315). -/
def cspRanks (s : State) : Nat := 1 + fld (reg s rCspCfg) 12 12
def cspX16 (s : State) : Bool := (reg s rCspCfg).getLsbD 4
def cspDens (s : State) : Nat := fld (reg s rCspCfg) 9 8
/-- Data capacity in bytes (13 R313): ranks × devices × density. -/
def cspCapacity (s : State) : Nat :=
  if cspDens s = 3 then 0 else cspRanks s * (if cspX16 s then 4 else 8) * 2 ^ (cspDens s + 29)
def trMode (s : State) : Nat := let m := fld (reg s rCspCfg) 21 20; if m = 1 then 1 else 0
/-- Timing limits in nCK for the rate (13 R315): CL, TRCD, TRP; TRAS; TWR. -/
def timLimits (s : State) : Nat × Nat × Nat :=
  match fld (reg s rCspCfg) 1 0 with
  | 0 => (11, 28, 12) | 1 => (12, 32, 14) | 2 => (14, 37, 16) | _ => (16, 42, 18)
def timOk (s : State) : Bool :=
  let t := reg s rTim0
  let l := timLimits s
  decide (fld t 4 0 ≤ l.1 ∧ fld t 9 5 ≤ l.1 ∧ fld t 15 11 ≤ l.1 ∧ fld t 26 21 ≤ l.2.1 ∧ fld t 20 16 ≤ l.2.2)
def zqIvl (s : State) : Nat := fld (reg s rTim2) 15 8

/-- Power (15 R379). -/
def autoEpoch (s : State) : Bool := (reg s rPwrCfg).getLsbD 0
def entryTmo (s : State) : Nat := max 1 (fld (reg s rPwrCfg) 31 16)
def hbEn (s : State) : Bool := s.pwr.hbBr.getLsbD 31
def hbK (s : State) : Nat := fld s.pwr.hbBr 19 16
def hbMask (s : State) : BitVec 8 := (s.pwr.hbBr.extractLsb' 0 7).setWidth 8 ||| 0x80

/-- Monitor (14 R348). -/
def monEn (s : State) : Bool := (reg s rMon).getLsbD 31
def monExpected (s : State) : Nat := if (reg s rMon).getLsbD 30 then 4183818 else 4194304
def monLimit (s : State) (ppm : Nat) : Nat := ppm * monExpected s / 1000000
def monAct (s : State) : Nat := fld (reg s rMon) 29 28

/-- The register window's base (01 R21). -/
def windowBase (s : State) : Nat := 0xFFFFFFF80000 + s.bus.strap.toNat * 0x10000

end Sys2Proof.Machine
end

