-- ==== Sys2Proof/Machine/Flags.lean ====
section
/-! DEFINITION. Counters, interrupt sources, events, violation logs and the outputs trace: what every block raises
(16 R393, 11 R282, 09 R236). -/

namespace Sys2Proof.Machine

/-! ### Counters (17 R406) -/

def cntAgpPar (p : PortId) : Nat := match p with | .A => 0x0800 | .B => 0x0818
def cntAgpFmt (p : PortId) : Nat := match p with | .A => 0x0808 | .B => 0x0820
def cntAgpSeq (p : PortId) : Nat := match p with | .A => 0x0810 | .B => 0x0828
def cntPrbProbe (p : PortId) : Nat := match p with | .A => 0x1800 | .B => 0x1820
def cntPrbViol (p : PortId) : Nat := match p with | .A => 0x1808 | .B => 0x1828
def cntPrbTmo (p : PortId) : Nat := match p with | .A => 0x1810 | .B => 0x1830
def cntPrbLate (p : PortId) : Nat := match p with | .A => 0x1818 | .B => 0x1838
def cntDecode : Nat := 0x2800
def cntHit : Nat := 0x2808
def cntSmiss : Nat := 0x2810
def cntMiss : Nat := 0x2818
def cntSpan : Nat := 0x2820
def cntMhWait : Nat := 0x2828
def cntNoAlloc : Nat := 0x2830
def cntPfIssue : Nat := 0x2838
def cntPfDrop : Nat := 0x2840
def cntSpecRef : Nat := 0x2848
def cntDrain : Nat := 0x3800
def cntCplCache : Nat := 0x3808
def cntCplPool : Nat := 0x3810
def cntFetch : Nat := 0x3818
def cntFlush : Nat := 0x3820
def cntTick : Nat := 0x4800
def cntC0 : Nat := 0x4808
def cntDemote : Nat := 0x4810
def cntSyncEarly : Nat := 0x4818
def cntSyncLoss : Nat := 0x4820
def cntIcbCorr : Nat := 0x6800
def cntIcbBit : Nat := 0x6808
def cntIcbUnc : Nat := 0x6810
def cntIcbMisdir : Nat := 0x6818
def cntIcbStale : Nat := 0x6820
def cntIcbBlank : Nat := 0x6828
def cntIcbSec : Nat := 0x6830
def cntIcbDed : Nat := 0x6838
def cntIcbBpar : Nat := 0x6840
def cntPoolFail : Nat := 0x7800
def cntCplTmo : Nat := 0x7808
def cntDmaHalt : Nat := 0x7810
def cntCsRec : Nat := 0x7818
def cntTagRec : Nat := 0x7820
def cntSuspEvict : Nat := 0x7828
def cntRetire : Nat := 0x7830
def cntLockBrk : Nat := 0x7838
def cntDlk : Nat := 0x7840
def cntBypass : Nat := 0x7848
def cntMrd : Nat := 0x8800
def cntMwr : Nat := 0x8808
def cntCor : Nat := 0x8810
def cntMemViol : Nat := 0x8818
def cntLate : Nat := 0x8820
def cntRecov : Nat := 0x8828
def cntRef : Nat := 0x9800
def cntZq : Nat := 0x9808
def cntRmw : Nat := 0x9810
def cntYield : Nat := 0x9818
def cntAlert : Nat := 0x9820
def cntRelock : Nat := 0xA800
def cntLol : Nat := 0xA808
def cntWarnWin : Nat := 0xA810
def cntKeyRef : Nat := 0xD800
def cntPass : Nat := 0xD808

def zero64 : Nat → BitVec 64 := fun _ => 0

/-- A counter's live count and holding copy (16 R393). -/
def live (s : State) (c : Nat) : BitVec 64 := mget zero64 s.cfg.live c
def held (s : State) (c : Nat) : BitVec 64 := mget zero64 s.cfg.hold c

/-- Advance a live count, modulo 2^64 (16 R393). -/
def countN (s : State) (c n : Nat) : State :=
  { s with cfg := { s.cfg with live := mset zero64 s.cfg.live c (live s c + BitVec.ofNat 64 n) } }

def count (s : State) (c : Nat) : State := countN s c 1

/-- QTK_TICK_CNT, the TICK of every entry (08 R203). -/
def tickCnt (s : State) : BitVec 64 := live s cntTick

/-! ### Interrupt sources (11 R282) -/

/-- Raise source `n`: its bit sets and SEQ advances, whether or not the bit was set. -/
def raiseInt (s : State) (n : Nat) : State :=
  { s with err := { s.err with intStatus := setBit s.err.intStatus n true, intSeq := s.err.intSeq + 1 } }

def srcAgpViol (p : PortId) : Nat := match p with | .A => 0 | .B => 1
def srcPrbTmo : Nat := 2
def srcPrbViol (p : PortId) : Nat := match p with | .A => 3 | .B => 4
def srcSyncLoss : Nat := 5
def srcCompl : Nat := 6
def srcEvent : Nat := 7
def srcEqOvf : Nat := 8
def srcBktOvf : Nat := 9
def srcPoolBad : Nat := 10
def srcDmaHalt : Nat := 11
def srcLockBroken : Nat := 12
def srcDeadlock : Nat := 13
def srcScree : Nat := 14
def srcBypass : Nat := 15
def srcCplTmo : Nat := 16
def srcMem : Nat := 17
def srcClk : Nat := 18
def srcPwr : Nat := 19

/-- The core domain is powered and out of reset (15 R353, R358). -/
def isOn (s : State) : Bool := s.pwr.phase == .on

/-- The pins have left their Sleep states: in Run, and in a wake from step W8 (19 R426). -/
def pinsLive (s : State) : Bool := isOn s && s.pwr.c0Rdy

/-- The pins hold their Sleep states: from step E6 to step W8 (19 R426). -/
def pinsHeld (s : State) : Bool := s.pwr.phase == .sleep || (isOn s && !s.pwr.c0Rdy)

/-- The interrupt line as the sources and their enables make it (11 R283). -/
def intLevel (s : State) : Bool := s.err.intStatus &&& (reg s rIntEn).extractLsb' 0 20 != 0

/-- The fault line as ERR_FAULT makes it (11 R284). -/
def faultLevel (s : State) : Bool := s.err.fBypass || s.err.fPoolDown || s.err.fCsloss || s.err.fScree

/-- INT_N asserted: it follows R283 in Run, holds its level in Sleep, and is released in reset (11 R283, 19 R433). -/
def intAsserted (s : State) : Bool := if pinsHeld s then s.pwr.intHeld else isOn s && intLevel s

/-- FAULT_N asserted (11 R284, 19 R433). -/
def faultAsserted (s : State) : Bool := if pinsHeld s then s.pwr.faultHeld else isOn s && faultLevel s

/-! ### Events (09 R236) -/

/-- Payload from (first entry byte, value) pairs; bytes 63:16 of the entry. -/
def payload (l : List (Nat × Nat)) : BitVec 384 :=
  BitVec.ofNat 384 (l.foldl (fun a e => a ||| (e.2 <<< (8 * (e.1 - 16)))) 0)

/-- An event arises. Before the event ring runs it is not written (14 R352, 15 R377); the ring runs from the first time EN is set
after its last reset, and goes on while EN = 0 (log entry 9). -/
def event (s : State) (block code : Nat) (pl : BitVec 384) : State :=
  if s.eng.eqRuns then
    { s with eng := { s.eng with events := s.eng.events ++
        [{ block := BitVec.ofNat 4 block, code := BitVec.ofNat 16 code, tick := tickCnt s, payload := pl }] } }
  else s

/-! ### Outputs -/

def emit (s : State) (o : Out) : State := { s with out := o :: s.out }

/-! ### Ports -/

def port (s : State) (p : PortId) : Port := match p with | .A => s.bus.portA | .B => s.bus.portB

def setPort (s : State) (p : PortId) (f : Port → Port) : State :=
  match p with
  | .A => { s with bus := { s.bus with portA := f s.bus.portA } }
  | .B => { s with bus := { s.bus with portB := f s.bus.portB } }

/-- What a violation log shows of H0 (02 R64): none when the header could not be read. -/
structure VSeen where
  tag  : Option (BitVec 2)
  addr : Option (BitVec 48)

/-- Log a bus violation: overwrite the port's log, advance SEQ, raise the source (02 R64). -/
def logViolation (s : State) (p : PortId) (who : Nat) (v : VSeen) (code : Nat) : State :=
  let s := setPort s p fun q => { q with
    vlog0 := ((v.addr.getD 0).setWidth 32),
    vlog1 := put (put (put (put (put (put q.vlog1 31 24 ((fld q.vlog1 31 24 + 1) % 256)) 23 20 who) 19 18 (v.tag.getD 0).toNat)
        17 17 (if v.tag.isSome then 1 else 0)) 16 16 (if v.addr.isSome then 1 else 0)) 15 0 (fld (v.addr.getD 0) 47 32),
    vcode := BitVec.ofNat 8 code }
  raiseInt s (srcAgpViol p)

/-- Log a probe violation (03 R89, R90). -/
def logProbeViol (s : State) (p : PortId) (agent code : Nat) : State :=
  let s := setPort s p fun q => { q with
    plog := put (put (put q.plog 31 24 ((fld q.plog 31 24 + 1) % 256)) 23 20 agent) 7 0 code }
  raiseInt (count s (cntPrbViol p)) (srcPrbViol p)

/-- Log a link-partner violation, count it, raise the MEM source (12 R307, R308). -/
def logMemViol (s : State) (code : Nat) (hdr : List Reg32) : State :=
  let s := { s with mem := { s.mem with vSeq := s.mem.vSeq + 1, vCode := BitVec.ofNat 8 code,
                                        vHdr := (hdr ++ [0, 0, 0, 0]).take 4 } }
  raiseInt (count s cntMemViol) srcMem

/-- The next free value's number. -/
def nextFree (s : State) : Nat × State := (s.freeCtr, { s with freeCtr := s.freeCtr + 1 })

end Sys2Proof.Machine
end

