-- ==== Sys2Proof/Machine/Codes.lean ====
section
/-! DEFINITION. Integrity codes (10): the BCH code over GF(2^13) with its check granule, the checks of R248, SECDED(72,64), and
CRC-32 (16 R400). -/

namespace Sys2Proof.Machine

/-! ### The field GF(2^13) (R240) -/

/-- `a·x` reduced by p(x) = x^13 + x^4 + x^3 + x + 1. -/
def gx (a : Nat) : Nat := let b := a * 2; if b < 8192 then b else b ^^^ 0x201B

/-- Product, `n` bits of `b` taken. -/
def gmulGo : Nat → Nat → Nat → Nat → Nat
  | 0, _, _, acc => acc
  | n + 1, a, b, acc => gmulGo n (gx a) (b / 2) (if b % 2 = 1 then acc ^^^ a else acc)

def gmul (a b : Nat) : Nat := gmulGo 13 a b 0

/-- `a^e`, `n` bits of `e` taken. -/
def gpowGo : Nat → Nat → Nat → Nat → Nat
  | 0, _, _, acc => acc
  | n + 1, a, e, acc => gpowGo n (gmul a a) (e / 2) (if e % 2 = 1 then gmul acc a else acc)

def gpow (a e : Nat) : Nat := gpowGo 13 a e 1

/-- α^e, exponents modulo 8,191. -/
def alpha (e : Nat) : Nat := gpow 2 (e % 8191)

def ginv (a : Nat) : Nat := gpow a 8190

/-! ### Generator (R241): polynomials over the field are coefficient lists, lowest degree first -/

/-- (x − r)·p. -/
def polyRoot (r : Nat) (p : List Nat) : List Nat :=
  List.zipWith (· ^^^ ·) (0 :: p) (p.map (gmul r) ++ [0])

/-- m_i(x), as a bit number: bit k is the coefficient of x^k. -/
def minPoly (i : Nat) : Nat :=
  ((List.range 13).foldl (fun p k => polyRoot (alpha (i * 2 ^ k)) p) [1]).foldr (fun c a => 2 * a + c % 2) 0

/-- Carry-less product, `n` bits of `b` taken. -/
def clmul : Nat → Nat → Nat → Nat
  | 0, _, _ => 0
  | n + 1, a, b => (if b % 2 = 1 then a else 0) ^^^ clmul n (2 * a) (b / 2)

/-- g_t(x) = m_1 · m_3 · … · m_(2t−1). -/
def genPoly (t : Nat) : Nat := (List.range t).foldl (fun g j => clmul 14 g (minPoly (2 * j + 1))) 1

/-- t of a STRENGTH code (01 R23); none when reserved. -/
def strengthT (c : BitVec 3) : Option Nat :=
  match c.toNat with
  | 0 => some 4 | 1 => some 8 | 2 => some 12 | 3 => some 16 | 4 => some 24 | 5 => some 32 | _ => none

def tOf (c : BitVec 3) : Nat := (strengthT c).getD 32

/-! ### Encoding (R242) -/

/-- The check polynomial r(x) of a message of `k` bits, highest first, by division. -/
def bchRem (g d : Nat) : Nat → Nat → Nat → Nat
  | 0, _, r => r
  | k + 1, m, r =>
    let fb := (r >>> (d - 1)) % 2 != (m >>> k) % 2
    let r' := (2 * r) % 2 ^ d
    bchRem g d k m (if fb then r' ^^^ (g % 2 ^ d) else r')

/-- The message of a codeblock: its 512 bytes, then META (R242). -/
def bchMsg (data : Block) (meta' : BitVec 96) : Nat := data.toNat + meta'.toNat <<< 4096

/-- Check bits r_0 to r_(13t−1), bit i for r_i. -/
def bchCheck (t : Nat) (msg : Nat) : Nat := bchRem (genPoly t) (13 * t) 4192 msg 0

/-! ### The check granule (R243, R244) -/

/-- META as a drain writes it. -/
def metaOf (str : BitVec 3) (unc : Bool) (wseq : BitVec 16) (cb : Nat) : BitVec 96 :=
  BitVec.ofNat 96 ((1 <<< 60) + (if unc then 1 <<< 59 else 0) + (str.toNat <<< 56) + (wseq.toNat <<< 40) + cb % 2 ^ 35)

/-- The granule that goes with `data`. -/
def granuleOf (data : Block) (str : BitVec 3) (unc : Bool) (wseq : BitVec 16) (cb : Nat) : Granule :=
  let m := metaOf str unc wseq cb
  BitVec.ofNat 512 (bchCheck (tOf str) (bchMsg data m) + m.toNat <<< 416)

/-! ### Decoding (R248 check 1) -/

/-- The received codeword: check bits, then the message. -/
def codeword (t : Nat) (data : Block) (g : Granule) : Nat :=
  g.toNat % 2 ^ (13 * t) + bchMsg data (g.extractLsb' 416 96) <<< (13 * t)

/-- S_j = c(α^j): Horner over `n` bits. -/
def syndromeGo (a : Nat) : Nat → Nat → Nat → Nat
  | 0, _, acc => acc
  | n + 1, c, acc => syndromeGo a n c (gmul acc a ^^^ (c >>> n) % 2)

def syndrome (n c j : Nat) : Nat := syndromeGo (alpha j) n c 0

/-- State of the Berlekamp–Massey recurrence: locator, previous locator, length, gap, previous discrepancy. -/
structure BM where
  c : List Nat
  b : List Nat
  l : Nat
  m : Nat
  d : Nat

def polyAdd : List Nat → List Nat → List Nat
  | [], q => q
  | p, [] => p
  | x :: p, y :: q => (x ^^^ y) :: polyAdd p q

def bmStep (syn : List Nat) (st : BM) (i : Nat) : BM :=
  let disc := (List.range (st.l + 1)).foldl (fun a k => if k ≤ i then a ^^^ gmul (st.c.getD k 0) (syn.getD (i - k) 0) else a) 0
  if disc = 0 then { st with m := st.m + 1 }
  else
    let f := gmul disc (ginv st.d)
    let c' := polyAdd st.c (List.replicate st.m 0 ++ st.b.map (gmul f))
    if 2 * st.l ≤ i then { c := c', b := st.c, l := i + 1 - st.l, m := 1, d := disc }
    else { st with c := c', m := st.m + 1 }

/-- The error locator Λ and its length for the syndromes S_1 to S_2t. -/
def errorLocator (syn : List Nat) : List Nat × Nat :=
  let st := (List.range syn.length).foldl (bmStep syn) { c := [1], b := [1], l := 0, m := 1, d := 1 }
  (st.c, st.l)

def polyEval (p : List Nat) (x : Nat) : Nat := p.foldr (fun c a => gmul a x ^^^ c) 0

/-- Positions 0 to n − 1 whose α^(−i) is a root of Λ. -/
def errorPositions (n : Nat) (p : List Nat) : List Nat :=
  (List.range n).filter fun i => polyEval p (alpha (8191 - i % 8191)) == 0

/-- The unique pattern of at most t errors within positions 0 to n − 1 that meets the syndromes, if there is one (R248 check 1):
found by the locator and accepted only when it has at most t bits and leaves a codeword. -/
def bchErrors (t c : Nat) : Option (List Nat) :=
  let n := 4192 + 13 * t
  if bchCheck t (c >>> (13 * t)) = c % 2 ^ (13 * t) then some []
  else
    let syn := (List.range (2 * t)).map fun j => syndrome n c (j + 1)
    let (p, l) := errorLocator syn
    if l > t then none
    else
      let es := errorPositions n p
      let c' := es.foldl (fun a i => a ^^^ (1 <<< i)) c
      if es.length ≤ t ∧ bchCheck t (c' >>> (13 * t)) = c' % 2 ^ (13 * t) then some es else none

/-- What a read of a codeblock with its granule gives (R248): reason (0 good), data, bits corrected, whether blank, and the
WSEQ as decoded. -/
structure Decoded where
  reason : Nat
  data   : Block
  fixed  : Nat
  blank  : Bool
  found  : BitVec 16
  deriving DecidableEq, Repr

/-- The checks of R248 in order. -/
def decodeBlock (str : BitVec 3) (cb : Nat) (expect : Option (BitVec 16)) (blankOk seqChk : Bool) (data : Block)
    (g : Granule) : Decoded :=
  let t := tOf str
  let c := codeword t data g
  match bchErrors t c with
  | none => { reason := 1, data := data, fixed := 0, blank := false, found := g.extractLsb' 456 16 }
  | some es =>
    let c' := es.foldl (fun a i => a ^^^ (1 <<< i)) c
    let d' : Block := BitVec.ofNat 4096 (c' >>> (13 * t))
    let m : BitVec 96 := BitVec.ofNat 96 (c' >>> (13 * t + 4096))
    let wseq : BitVec 16 := m.extractLsb' 40 16
    let blank := decide (c' = 0)
    let reason :=
      if blank then (if blankOk then 0 else 2)
      else if ¬ (fld m 61 60 = 1 ∧ fld m 95 62 = 0 ∧ fld m 39 35 = 0) then 3
      else if fld m 34 0 ≠ cb % 2 ^ 35 then 4
      else if fld m 58 56 ≠ str.toNat then 5
      else if seqChk ∧ expect.isSome ∧ expect ≠ some wseq then 6
      else if m.getLsbD 59 then 7
      else 0
    { reason := reason, data := d', fixed := es.length, blank := blank, found := wseq }

/-! ### SECDED(72,64) (R252, R254) -/

/-- Columns h_0 to h_63. -/
def secCols : List Nat :=
  (List.range 256).filter (fun v => ones 8 v == 3) ++ [0x1F, 0x2F, 0x37, 0x3B, 0x3D, 0x3E, 0x4F, 0x57]

/-- Check bits of a data word: the XOR of h_d over its set bits. -/
def secEncode (d : BitVec 64) : BitVec 8 :=
  BitVec.ofNat 8 ((bitsOf 64 d).foldl (fun a i => a ^^^ secCols.getD i 0) 0)

/-- Outcome of a word read (R254). -/
inductive SecOut where
  | good
  | corrected
  | bad
  deriving DecidableEq, Repr

def secDecode (d : BitVec 64) (c : BitVec 8) : BitVec 64 × SecOut :=
  let s := (c ^^^ secEncode d).toNat
  if s = 0 then (d, .good)
  else match secCols.findIdx? (· == s) with
    | some i => (d ^^^ bit true i, .corrected)
    | none => if ones 8 s = 1 then (d, .corrected) else (d, .bad)

/-- The eight words of a sector with their check bits (R253). -/
def secWords (x : Sector) : List (BitVec 64 × BitVec 8) := (beatsOf x 0 8).map fun w => (w, secEncode w)

/-- The sector of eight words. -/
def ofBeats (l : List (BitVec 64)) : Nat := l.foldr (fun w a => w.toNat + 2 ^ 64 * a) 0

/-! ### CRC-32 (16 R400) -/

def crcBit (c : Reg32) : Reg32 := if c.getLsbD 0 then (c >>> 1) ^^^ 0xEDB88320 else c >>> 1

def crcByte (c : Reg32) (b : Byte) : Reg32 :=
  let c := c ^^^ b.setWidth 32
  crcBit (crcBit (crcBit (crcBit (crcBit (crcBit (crcBit (crcBit c)))))))

/-- The running value over `bytes`; a run starts at all ones and ends complemented. -/
def crcRun (c : Reg32) (bytes : List Byte) : Reg32 := bytes.foldl crcByte c

def crc32 (bytes : List Byte) : Reg32 := crcRun 0xFFFFFFFF bytes ^^^ 0xFFFFFFFF

end Sys2Proof.Machine
end

