-- ==== Sys2Proof/Machine/Operands.lean ====
section
/-! DEFINITION. The forms a request, a response, a probe and a tag entry take: header H0 and byte mask (02 R45 to R50), the
beats a tenure must carry (R46), the format rows of the violation table (R62), address decode (01 R24 to R28), the response
header (02 R53), the probe word (03 R75, R78) and the tag entry (05 R110, R112). -/

namespace Sys2Proof.Machine

/-! ### Beats and headers -/

/-- Bytes of a beat with bad parity, bit i for byte i (02 R38). -/
def badBytes (b : Beat) : Byte := BitVec.ofNat 8 (byteParity 8 b.ad.toNat) ^^^ b.adp

/-- x_ADP as the 8140 drives it with a beat: correct parity (02 R38). -/
def beatPar (b : Beat64) : Byte := BitVec.ofNat 8 (byteParity 8 b.toNat)

def h0Op (h : Beat64) : BitVec 2 := h.extractLsb' 62 2
def h0Len (h : Beat64) : Nat := fld h 61 59
def h0Mark (h : Beat64) : Nat := fld h 58 56
def h0Class (h : Beat64) : Nat := fld h 55 54
def h0Tag (h : Beat64) : BitVec 2 := h.extractLsb' 52 2
def h0Cmd (h : Beat64) : Nat := fld h 51 48
def h0Addr (h : Beat64) : BitVec 48 := h.extractLsb' 0 48

/-- CMD codes (02 R46); none when reserved. -/
def cmdOf (n : Nat) : Option ReqCmd :=
  match n with
  | 0x0 => some .read | 0x1 => some .fetch | 0x2 => some .spec | 0x4 => some .write | 0x5 => some .writeNt
  | 0x6 => some .lockWrite | 0x8 => some .lockRead | 0x9 => some .lockAbort | 0xA => some .atomic | 0xC => some .watch
  | 0xF => some .barrier | _ => none

/-- MARK codes (02 R45); none when reserved. -/
def markOf (n : Nat) : Option Mark :=
  match n with
  | 0 => some .none | 1 => some .acquire | 2 => some .release | 3 => some .durable | 4 => some .barrier | _ => none

/-- Commands whose tenure carries H1 and data beats (02 R46). -/
def carriesData (c : ReqCmd) : Bool :=
  match c with
  | .write | .writeNt | .lockWrite | .atomic => true
  | _ => false

/-- READ, READ_FETCH and READ_SPEC. -/
def isRead (c : ReqCmd) : Bool :=
  match c with
  | .read | .fetch | .spec => true
  | _ => false

/-- Commands a DMA channel may not send (02 R46). -/
def procOnly (c : ReqCmd) : Bool :=
  match c with
  | .lockWrite | .lockRead | .lockAbort | .atomic | .watch => true
  | _ => false

/-- Beats after H0 (02 R46). A reserved CMD fixes none: its tenure is H0 alone (log entry 20). -/
def beatsAfterH0 (h : Beat64) : Nat :=
  match cmdOf (h0Cmd h) with
  | some c => if carriesData c then h0Len h + 2 else 0
  | none => 0

/-- First beat a request covers, ADDR[5:3] (02 R47). -/
def firstBeat (a : BitVec 48) : Nat := fld a 5 3

/-- Bytes a request covers in its sector (02 R47): an ATOMIC covers one beat. -/
def coverMask (c : ReqCmd) (a : BitVec 48) (len : Nat) : SectorMask :=
  match c with
  | .atomic => beatMask (firstBeat a) 1
  | _ => beatMask (firstBeat a) (len + 1)

/-- The data beats in their place in the sector (02 R47); an ATOMIC's D0 in its beat. -/
def placeData (c : ReqCmd) (a : BitVec 48) (ds : List Beat64) : Sector :=
  let ds := match c with | .atomic => ds.take 1 | _ => ds
  BitVec.ofNat 512 (ofBeats ds <<< (64 * firstBeat a))

/-- The mask selects one naturally aligned group of 1, 2, 4 or 8 bytes of the beat (02 R50). -/
def atomicMaskOk (a : BitVec 48) (m : SectorMask) : Bool :=
  let b := firstBeat a
  let lanes := (m >>> (8 * b)).toNat % 256
  (m &&& ~~~(beatMask b 1) == 0) &&
  ([1, 2, 4, 8].any fun w => (List.range (8 / w)).any fun i => lanes == (2 ^ w - 1) <<< (w * i))

def maskOk (c : ReqCmd) (a : BitVec 48) (len : Nat) (m : SectorMask) : Bool :=
  match c with
  | .atomic => atomicMaskOk a m
  | .write | .writeNt | .lockWrite => m != 0 && (m &&& ~~~(coverMask c a len) == 0)
  | _ => true

/-- LEN allowed for the command and OP (02 R46). The table gives an ATOMIC no LEN for the reserved OP 0b11: any LEN passes here, so
that row 0x0B or 0x0C answers (log entry 77; DESIGN CHOICE). -/
def lenOk (c : ReqCmd) (op : BitVec 2) (len : Nat) : Bool :=
  match c with
  | .lockAbort | .watch | .barrier => len == 0
  | .atomic => if op = 3 then true else len == (if op = 2 then 1 else 0)
  | _ => true

/-- Rows 0x06 to 0x0D of the violation table (02 R62), in order: the first that applies, 0 when none does. -/
def formatCode (who : Nat) (h : Beat64) (m : SectorMask) : Nat :=
  match cmdOf (h0Cmd h) with
  | none => 0x06
  | some c =>
    let a := h0Addr h
    if (markOf (h0Mark h)).isNone ∨ (c = .barrier ∧ h0Mark h ≠ 4) then 0x07
    else if c ≠ .barrier ∧ fld a 2 0 ≠ 0 then 0x08
    else if c ≠ .barrier ∧ c ≠ .atomic ∧ firstBeat a + h0Len h > 7 then 0x09
    else if lenOk c (h0Op h) (h0Len h) = false then 0x0A
    else if maskOk c a (h0Len h) m = false then 0x0B
    else if h0Op h = 3 ∨ (c ≠ .atomic ∧ h0Op h ≠ 0) then 0x0C
    else if who ≥ 8 ∧ procOnly c then 0x0D
    else 0

/-! ### Responses (02 R53, R55) -/

def rspCode (r : Rsp) : Nat :=
  match r with
  | .ok => 0 | .okPoison => 1 | .fetchFault => 2 | .specRefused => 3 | .decodeErr => 4 | .lockBroken => 5
  | .watchWake => 6 | .watchNowriter => 7 | .channelHalted => 8 | .protocolErr => 9

/-- RH. -/
def rhOf (r : Resp) (retry : Bool) : Beat64 :=
  BitVec.ofNat 64 ((if r.untagged then 1 <<< 15 else 0) + (if retry then 1 <<< 14 else 0) + (r.beats.length <<< 10) +
    (rspCode r.rsp <<< 6) + ((if r.untagged then 0 else r.tag.toNat) <<< 4) + r.who)

/-! ### Decode (01 R24 to R28) -/

/-- The answer of decode. -/
inductive Dec where
  /-- refused, with REASON of the decode log when the answer is logged (01 R29) -/
  | refuse (rsp : Rsp) (reason : Option Nat)
  | window (off : Nat)
  | region (n : Nat) (attr : Reg32) (pool : Nat)
  deriving DecidableEq, Repr

/-- Region `n` matches an agent address (01 R25). -/
def rgnMatch (s : State) (n : Nat) (a : Nat) : Bool :=
  attrEn (rgnAttr s n) && decide (rgnBase s n ≤ a ∧ a ≤ rgnLimit s n + 0xFFFF)

/-- The lowest-numbered enabled region that matches (R28 step 2). -/
def rgnOf (s : State) (a : Nat) : Option Nat := (List.range 16).find? fun n => rgnMatch s n a

/-- Pool address (R24). -/
def poolOf (s : State) (n a : Nat) : Nat := a - rgnBase s n + rgnXlat s n

def inWindow (s : State) (a : Nat) : Bool := decide (windowBase s ≤ a ∧ a < windowBase s + 0x10000)

/-- A register access as R22 and R383 allow it: a processor agent, READ or WRITE, LEN 0, a WRITE of one whole register. -/
def windowOk (who : Nat) (c : ReqCmd) (a : BitVec 48) (len : Nat) (m : SectorMask) : Bool :=
  decide (who < 8) && len == 0 &&
  (match c with
   | .read => true
   | .write => m == (0x0F : SectorMask) <<< (8 * firstBeat a) || m == (0xF0 : SectorMask) <<< (8 * firstBeat a)
   | _ => false)

/-- Offset of the register a window access names; a WRITE of the high four bytes names the next one (16 R383). -/
def windowOff (s : State) (c : ReqCmd) (a : BitVec 48) (m : SectorMask) : Nat :=
  let o := a.toNat - windowBase s
  if c = .write ∧ m = (0xF0 : SectorMask) <<< (8 * firstBeat a) then o + 4 else o

/-- The refusal of the command's own row of the table of R28: answer and REASON. -/
def cmdRow (c : ReqCmd) (attr : Reg32) : Option (Rsp × Option Nat) :=
  if attrDevice attr then
    match c with
    | .fetch => some (.fetchFault, none)
    | .spec => some (.specRefused, none)
    | .atomic | .lockRead | .lockWrite | .lockAbort => some (.decodeErr, some 4)
    | .watch => some (.decodeErr, some 5)
    | _ => none
  else
    match c with
    | .atomic | .lockRead => if attrLockable attr then none else some (.decodeErr, some 4)
    | _ => none

/-- Decode of a request (R28). -/
def decodeReq (s : State) (who : Nat) (c : ReqCmd) (mark : Mark) (a : BitVec 48) (len : Nat) (m : SectorMask) : Dec :=
  let A := a.toNat
  let err (reason : Nat) : Dec := if c = .spec then .refuse .specRefused none else .refuse .decodeErr (some reason)
  if inWindow s A then
    if c = .spec then .refuse .specRefused none
    else if c = .fetch then .refuse .fetchFault none
    else if windowOk who c a len m then .window (windowOff s c a m)
    else .refuse .decodeErr (some 3)
  else
    match rgnOf s A with
    | none => err 1
    | some n =>
      let attr := rgnAttr s n
      if !attrDevice attr && (strengthT (attrStr attr)).isNone then err 7
      else
        let p := poolOf s n A
        if p ≥ dataEnd s then err 2
        else
          match cmdRow c attr with
          | some (r, why) => .refuse r why
          | none =>
            if mark = .durable ∧ attrDurable attr = false then
              (if c = .spec then .refuse .specRefused none else .refuse .decodeErr (some 6))
            else .region n attr p

/-- Codeblock number of a pool address. -/
def cbOf (p : Nat) : Nat := p / 512
/-- Sector of a pool address. -/
def secOf (p : Nat) : Nat := p / 64 % 8

/-- The request's mask in its codeblock. -/
def reqMask (r : Req) : BlockMask := placeMask r.mask (secOf r.pool)
def reqData (r : Req) : Block := placeSector r.data (secOf r.pool)
def reqCb (r : Req) : Nat := cbOf r.pool

/-- Attributes of the region a request decoded to. -/
def reqAttr (r : Req) : Reg32 := match r.target with | .region _ a => a | _ => 0
def isDevice (r : Req) : Bool := match r.target with | .region _ a => attrDevice a | _ => false
def isWindow (r : Req) : Bool := match r.target with | .window _ => true | _ => false
def isNormal (r : Req) : Bool := match r.target with | .region _ a => !attrDevice a | _ => false

/-! ### Pool ranges and probe addresses (03 R78) -/

/-- Pool range of region `n`: first byte and one past the last; empty when LIMIT is below BASE. -/
def poolRange (s : State) (n : Nat) : Nat × Nat :=
  if rgnLimit s n < rgnBase s n then (0, 0)
  else (rgnXlat s n, rgnXlat s n + (rgnLimit s n - rgnBase s n) + 0x10000)

def inPool (r : Nat × Nat) (p : Nat) : Bool := decide (r.1 ≤ p ∧ p < r.2)

/-- The region whose mapping names a codeblock to the agents: enabled first, then disabled (R78). -/
def probeRgn (s : State) (p : Nat) : Option Nat :=
  match (List.range 16).find? fun n => attrEn (rgnAttr s n) && inPool (poolRange s n) p with
  | some n => some n
  | none => (List.range 16).find? fun n => !attrEn (rgnAttr s n) && inPool (poolRange s n) p

/-- x_PRB (R75): PTYPE, TGT and ADDR; an INV with no region is sent as INV_ALL (R78). -/
def probeWord (s : State) (k : ProbeKind) (tgt : BitVec 4) : BitVec 48 :=
  let w (ptype addr : Nat) : BitVec 48 := BitVec.ofNat 48 ((ptype <<< 44) + (tgt.toNat <<< 40) + addr)
  match k with
  | .invAll => w 2 0
  | .inv cb =>
    match probeRgn s (cb * 512) with
    | none => w 2 0
    | some n => w 1 ((cb * 512 - rgnXlat s n + rgnBase s n) / 512 % 2 ^ 39)

/-- x_PRBP (R75). -/
def probePar (w : BitVec 48) : BitVec 6 := BitVec.ofNat 6 (byteParity 6 w.toNat)

/-! ### Tag entries (05 R110, R112) -/

structure TagEntry where
  tag    : BitVec 18
  age    : BitVec 2
  lock   : Bool
  c0     : Bool
  pres   : BitVec 8
  svalid : BitVec 8
  deriving DecidableEq, Repr

/-- Fields of the 40 stored bits. -/
def tagFields (e : BitVec 40) : TagEntry :=
  { tag := e.extractLsb' 22 18, age := e.extractLsb' 20 2, lock := e.getLsbD 19, c0 := e.getLsbD 18,
    pres := e.extractLsb' 10 8, svalid := e.extractLsb' 2 8 }

/-- The entry with both parity bits generated (R113). -/
def tagWord (t : TagEntry) : BitVec 40 :=
  let v := (t.tag.toNat <<< 22) + (t.age.toNat <<< 20) + (t.lock.toNat <<< 19) + (t.c0.toNat <<< 18) +
    (t.pres.toNat <<< 10) + (t.svalid.toNat <<< 2)
  let ph := if parity 20 (v >>> 20) then 2 else 0
  let pl := if parity 18 (v >>> 2 % 2 ^ 18) then 1 else 0
  BitVec.ofNat 40 (v + ph + pl)

/-- Both parities hold: PARH over [39:20], PARL over [19:2] (R113). -/
def tagParOk (e : BitVec 40) : Bool :=
  (parity 20 (e.toNat >>> 20) == e.getLsbD 1) && (parity 18 (e.toNat >>> 2 % 2 ^ 18) == e.getLsbD 0)

/-- Set of a codeblock (R110). -/
def setOf (s : State) (cb : Nat) : Nat := cb % sets s
/-- TAG field of a codeblock: pool address bits from 9 + s upwards, 18 bits (R110). -/
def tagOf (s : State) (cb : Nat) : BitVec 18 := BitVec.ofNat 18 (cb / sets s)
/-- The codeblock a valid entry of set `i` holds (R114). -/
def cbOfTag (s : State) (i : Nat) (t : BitVec 18) : Nat := t.toNat * sets s + i

end Sys2Proof.Machine
end

