-- ==== Sys2Proof/Machine/Ops.lean ====
section
/-! DEFINITION. The named operations over the state that every family shares: the outcome of a command, leaky buckets and
suspects (11), the tag store and its lookup (05), miss handlers (06), probes (03), and requests with their answers (02, 04). -/

namespace Sys2Proof.Machine

/-! ### Outcome of a command -/

/-- A command's effect, unless the behaviour is undefined (00 R5; log entry 6). -/
def guarded (s : State) (f : State → State) : Host.Outcome State Fault Refusal :=
  match s.undef with
  | some c => .fault (.undefinedBehaviour c)
  | none => .next (f s)

/-- The effect `f` when `c` holds; a command that is not due leaves the state as it is (log entry 10). -/
def when (s : State) (c : Bool) (f : State → State) : State := if c then f s else s

/-- The behaviour is undefined from now on (00 R5). -/
def breach (s : State) (c : UndefCause) : State := { s with undef := some c }

/-! ### Leaky buckets, suspects (11 R271, R272) -/

/-- One event fed to bucket `n`. -/
def bucketEvent (s : State) (n : Nat) : State :=
  let b := s.err.buckets.getD n Bucket.reset
  if b.level < bktDepth s n then
    { s with err := { s.err with buckets := updAt s.err.buckets n fun b => { b with level := b.level + 1 } } }
  else
    let s := { s with err := { s.err with
      buckets := updAt s.err.buckets n (fun b => { b with level := 0 }),
      ovf := setBit s.err.ovf n true, bktSeq := s.err.bktSeq + 1 } }
    raiseInt (event s 7 1 (payload [(16, n), (18, bktDepth s n)])) srcBktOvf

/-- The suspect entry with the lowest WSTART, first of equals. -/
def oldestSuspect (l : List Suspect) : Option Suspect :=
  l.foldl (fun a x => match a with
    | none => some x
    | some y => if x.wstart < y.wstart then some x else some y) none

/-- An operation of rank 2 falls due, or is performed (08 R197). -/
def due2 (s : State) (o : Rank2) : State := { s with cch := { s.cch with rank2 := s.cch.rank2 ++ [o] } }
def over2 (s : State) (o : Rank2) : State := { s with cch := { s.cch with rank2 := s.cch.rank2.erase o } }

/-- An event of weight `w` at a position (11 R272); `cause` is the cause its retirement would carry. -/
def suspectEvent (s : State) (pos w cause : Nat) : State :=
  let s : State := (match s.err.suspects.find? (·.pos == pos) with
    | some _ => { s with err := { s.err with suspects := updIf s.err.suspects (·.pos == pos) fun e => { e with count := e.count + w } } }
    | none =>
      let s : State := if s.err.suspects.length < 64 then s else (match oldestSuspect s.err.suspects with
        | some o => count { s with err := { s.err with suspects := s.err.suspects.filter (·.pos != o.pos) } } cntSuspEvict
        | none => s)
      { s with err := { s.err with suspects := s.err.suspects ++ [{ pos := pos, count := w, wstart := tickCnt s }] } })
  match s.err.suspects.find? (·.pos == pos) with
  | some e =>
    if e.count ≥ suspRepeat s then
      due2 { s with err := { s.err with suspects := s.err.suspects.filter (·.pos != pos), retire := s.err.retire ++ [(pos, cause)] } } .retire
    else s
  | none => s

/-- A buffer parity error of structure `k` (10 R256, R259, R260). Rows that may find one take it as an operand (log entry 94). -/
def bufParity (s : State) (k who : Nat) : State :=
  bucketEvent (event (count s cntIcbBpar) 6 2 (payload [(16, k), (17, who)])) 5

/-! ### Scree list (11 R273, R274) -/

/-- The list's stamp differs from the geometry. -/
def screeStale (s : State) : Bool :=
  !s.err.scree.isEmpty && (s.err.screeSize.toNat != sizeCode s || s.err.screeWays.toNat != fld (reg s rGeom) 5 4)

/-- The position is retired. -/
def retired (s : State) (pos : Nat) : Bool := !screeStale s && s.err.scree.contains pos

/-! ### Tag store (05) -/

/-- The 40 stored bits of a position: what was written, or undefined contents (05 R130). -/
def tagBits (s : State) (pos : Nat) : BitVec 40 :=
  if pos < s.cch.known then mget (fun _ => 0) s.cch.tags pos else Config.freeTag s.cch.epoch pos

def tagAt (s : State) (pos : Nat) : TagEntry := tagFields (tagBits s pos)

/-- Write the stored bits of a position whose contents are known. -/
def tagPutBits (s : State) (pos : Nat) (v : BitVec 40) : State :=
  if pos < s.cch.known then { s with cch := { s.cch with tags := mset (fun _ => 0) s.cch.tags pos v } } else s

/-- Write an entry with fresh parity (R113). -/
def tagPut (s : State) (pos : Nat) (t : TagEntry) : State := tagPutBits s pos (tagWord t)

def posOf (s : State) (set way : Nat) : Nat := set * ways s + way

/-- An entry holds a codeblock (R114). -/
def valid (t : TagEntry) : Bool := t.svalid != 0

/-- The codeblock a position would hold (R114). -/
def cbAtPos (s : State) (pos : Nat) : Nat := cbOfTag s (pos / ways s) (tagAt s pos).tag

/-- Ways of a set that are not retired (R115). -/
def liveWays (s : State) (set : Nat) : List Nat := (List.range (ways s)).filter fun w => !retired s (posOf s set w)

/-- The decision of a lookup (R117, R118). -/
inductive Look where
  | parErr (ways : BitVec 16)
  /-- in the armed wake filter (15 R366) -/
  | filtered
  | hit (way : Nat)
  | smiss (way : Nat)
  | miss
  deriving DecidableEq, Repr

def waysMask (l : List Nat) : BitVec 16 := l.foldl (fun m w => m ||| bit true w) 0

/-- The wake filter holds the codeblock, in a set the walk has not passed (15 R366 step 3). -/
def filtered (s : State) (cb : Nat) : Bool :=
  s.cch.filter.any (fun g => inPool g (cb * 512)) && decide (s.cch.walked < (setOf s cb + 1) * ways s)

/-- Look up codeblock `cb`, which needs the sectors of `need` (R113 to R118). The set read checks parity first, also for a codeblock of
the armed wake filter (R113). -/
def lookup (s : State) (cb : Nat) (need : BitVec 8) : Look :=
  let set := setOf s cb
  let ws := liveWays s set
  let bad := ws.filter fun w => !tagParOk (tagBits s (posOf s set w))
  let mine := ws.filter fun w => let t := tagAt s (posOf s set w); valid t && t.tag == tagOf s cb
  if bad ≠ [] then .parErr (waysMask bad)
  else if 1 < mine.length then .parErr (waysMask mine)
  else if filtered s cb then .filtered
  else
    match mine with
    | [] => .miss
    | w :: _ => if (tagAt s (posOf s set w)).svalid &&& need = need then .hit w else .smiss w

/-- An operation on `cb` is looked up (R119, R111). -/
def lookable (s : State) (cacheable : Bool) (cb : Nat) : Bool :=
  cacheable && s.cch.enabled && decide (cb * 512 < span s)

/-- A request's region is cacheable NORMAL (R119). -/
def reqCacheable (r : Req) : Bool := isNormal r && attrCacheable (reqAttr r)

/-- A tag parity error found in a set: it joins a queued clearing, or queues one (11 R268). -/
def tagParity (s : State) (set : Nat) (bad : BitVec 16) : State :=
  if s.cch.setClr.any (·.1 == set) then s
  else
    let s := due2 { s with cch := { s.cch with setClr := s.cch.setClr ++ [(set, bad)] } } .set
    let s := bucketEvent (event s 7 0xA (payload [(16, set), (20, bad.toNat)])) 2
    (bitsOf 16 bad).foldl (fun s w => suspectEvent s (posOf s set w) 1 3) s

/-- A clearing of the codeblock's set is queued: operations on it re-enter after it (11 R268). -/
def clearingDue (s : State) (cb : Nat) : Bool := s.cch.setClr.any (·.1 == setOf s cb)

/-- A clearing of one of these sectors of the position is queued: operations on them re-enter after it (11 R267). -/
def secDue (s : State) (pos : Nat) (need : BitVec 8) : Bool :=
  s.cch.secClr.any fun c => c.1 == pos && (c.2 == 8 || need.getLsbD c.2)

/-! ### Miss handlers and fills (06 R132 to R143) -/

def handlerBusy (s : State) (i : Nat) : Bool := s.cch.handlers.any (·.idx == i)

def freeReserved (s : State) : List Nat := (List.range 8).filter fun i => !handlerBusy s i
def freeShared (s : State) : List Nat := ((List.range 56).map (· + 8)).filter fun i => !handlerBusy s i

/-- A fill installs a new entry (R140); a sector miss and reads that install nothing do not. -/
def isFill (k : HKind) : Bool :=
  match k with
  | .demand | .prefetch | .preload _ _ => true
  | _ => false

/-- A position is pending (R140). -/
def pendingPos (s : State) (pos : Nat) : Bool :=
  s.cch.handlers.any fun h => isFill h.kind && !h.cancelled && h.pos == some pos

/-- The fill a MISS of `cb` joins (R135). A SECTOR_MISS refetch of the codeblock whose entry has been victimised or zeroed since is not
joined: R132 calls it a demand fill, R140 gives it no fill start (log entry 81; DESIGN CHOICE). -/
def fillOf (s : State) (cb : Nat) : Option Handler :=
  s.cch.handlers.find? fun h => isFill h.kind && !h.cancelled && h.cb == cb

/-- The SECTOR_MISS fill of an entry (R143). -/
def smissOf (s : State) (pos cb : Nat) : Option Handler :=
  s.cch.handlers.find? fun h => h.kind == .sectorMiss && !h.cancelled && h.pos == some pos && h.cb == cb

def updHandler (s : State) (i : Nat) (f : Handler → Handler) : State :=
  { s with cch := { s.cch with handlers := updIf s.cch.handlers (·.idx == i) f } }

def getHandler (s : State) (i : Nat) : Option Handler := s.cch.handlers.find? (·.idx == i)

/-- Release a handler (R136). -/
def dropHandler (s : State) (i : Nat) : State :=
  { s with cch := { s.cch with handlers := s.cch.handlers.filter (·.idx != i) } }

/-- Cancel the fills that `p` selects (R142); prefetch fills cancelled are counted (R156). -/
def cancelFills (s : State) (p : Handler → Bool) : State :=
  let hit (h : Handler) : Bool := (isFill h.kind || h.kind == .sectorMiss) && !h.cancelled && p h
  let n := (s.cch.handlers.filter fun h => hit h && h.kind == .prefetch).length
  let s := { s with cch := { s.cch with handlers := updIf s.cch.handlers hit fun h => { h with cancelled := true } } }
  if n = 0 then s else countN s cntPfDrop n

/-! ### Probes (03) -/

def unresp (s : State) (k : Nat) : Bool := s.prb.unresp.getLsbD k

/-- An agent takes probes: attached, out of reset sense, and responsive unless the probe is a revive (R80, R86, R87). -/
def probeable (s : State) (k : Nat) (revive : Bool) : Bool :=
  attached s k && !inReset s k && (revive || !unresp s k)

/-- Attached agents (R71). -/
def attachedAgents (s : State) : BitVec 8 := (List.range 8).foldl (fun m k => if probeable s k false then m ||| bit true k else m) 0

/-- The pairs of a port that a probe to `agents` is queued for; the others are counted as acknowledged at once. -/
def probePairs (s : State) (agents : BitVec 8) (p : PortId) (revive : Bool) : BitVec 4 :=
  (List.range 4).foldl (fun m k =>
    let a := whoAt p k
    if agents.getLsbD a && probeable s a revive then m ||| bit true k else m) 0

/-- Entries held in a port's probe queue (R74). -/
def probeQueueLen (s : State) (p : PortId) : Nat := (s.prb.probes.filter fun x => x.port == p && x.toSend != 0).length

/-- The probe queue entries an event needs are free (R74). -/
def probeRoom (s : State) (agents : BitVec 8) : Bool :=
  [PortId.A, PortId.B].all fun p => probePairs s agents p false == 0 || decide (probeQueueLen s p < 16)

/-- What an event's probe is for. -/
structure ProbeFor where
  who    : Option (Nat × Nat) := none
  back   : Option Nat := none
  atomic : Option Nat := none
  ring   : Option Nat := none
  revive : Bool := false

def queueOn (s : State) (kind : ProbeKind) (agents : BitVec 8) (f : ProbeFor) (p : PortId) : State :=
  let m := probePairs s agents p f.revive
  if m = 0 then s
  else { s with prb := { s.prb with nextId := s.prb.nextId + 1, probes := s.prb.probes ++
    [{ id := s.prb.nextId, port := p, kind := kind, toSend := m, out := [], who := f.who, back := f.back,
       atomic := f.atomic, ring := f.ring, revive := f.revive }] } }

/-- Queue a probe to agents, one entry on each port that has one of them (R71, R74). -/
def queueProbe (s : State) (kind : ProbeKind) (agents : BitVec 8) (f : ProbeFor) : State :=
  queueOn (queueOn s kind agents f .A) kind agents f .B

/-- Drop probes that every agent they name has acknowledged. -/
def prune (s : State) : State :=
  { s with prb := { s.prb with probes := s.prb.probes.filter fun x => x.toSend != 0 || !x.out.isEmpty } }

/-- Every probe queued for or outstanding at agent `k` that `p` selects is counted as acknowledged. -/
def ackAll (s : State) (k : Nat) (queued : Bool) (p : Probe → Bool) : State :=
  prune { s with prb := { s.prb with probes := updIf s.prb.probes (fun x => x.port == portOf k && p x) fun x =>
    { x with out := x.out.filter (·.1 != pairOf k),
             toSend := if queued then setBit x.toSend (pairOf k) false else x.toSend } } }

/-- A back-invalidation of the codeblock is outstanding (R84). -/
def backBusy (s : State) (cb : Nat) : Bool := s.prb.probes.any (·.back == some cb)

/-- Clear the presence bits of agents in an entry (R67). -/
def clearPres (s : State) (pos : Nat) (agents : BitVec 8) : State :=
  let t := tagAt s pos
  if t.pres &&& agents = 0 then s else tagPut s pos { t with pres := t.pres &&& ~~~agents }

/-- Invalidate a position with INV to its holders while the cache is enabled, and cancel a pending fill there (R71, R142). -/
def invalPos (s : State) (pos : Nat) (f : ProbeFor) : State :=
  let t := tagAt s pos
  let s : State := if valid t && s.cch.enabled then queueProbe s (.inv (cbAtPos s pos)) t.pres f else s
  let s := cancelFills s fun h => h.pos == some pos && (isFill h.kind || valid t)
  if tagBits s pos = 0 then s else tagPutBits s pos 0

/-- Room for the probes that invalidating a position queues. -/
def invalRoom (s : State) (pos : Nat) : Bool := let t := tagAt s pos; !valid t || !s.cch.enabled || probeRoom s t.pres

/-- The position still holds the codeblock: its whole entry is invalidated, at once or, while the probe queues are full, as a
fault-handling operation of its own (11 R267, R74). Index 8 stands for the whole entry. -/
def dropEntry (s : State) (pos cb : Nat) : State :=
  if valid (tagAt s pos) && cbAtPos s pos == cb then
    (if invalRoom s pos then invalPos s pos {} else due2 { s with cch := { s.cch with secClr := s.cch.secClr ++ [(pos, 8)] } } .sector)
  else s

/-! ### Rings of the command engine (09) -/

def getRing (s : State) (n : Nat) : Ring := s.eng.rings.getD n Ring.reset

def updRing (s : State) (n : Nat) (f : Ring → Ring) : State :=
  { s with eng := { s.eng with rings := updAt s.eng.rings n f } }

def getRun (s : State) (n : Nat) : Option Running := (getRing s n).run

def updRun (s : State) (n : Nat) (f : Running → Running) : State := updRing s n fun r => { r with run := r.run.map f }

/-- Units of ring `n`'s command that are issued and not performed. -/
def inFlight (s : State) (n : Nat) : List Nat :=
  let mine (o : Option (Nat × Nat)) : Option Nat := match o with | some (r, u) => if r = n then some u else none | none => none
  (s.cch.handlers.filterMap fun h => match h.kind with
    | .preload r u | .unit r u | .page r u => if r = n then some u else none
    | _ => none) ++
  (s.cch.handlers.flatMap fun h => h.units.filterMap fun p => if p.1 = n then some p.2 else none) ++
  (s.wrb.entries.filterMap fun e => mine e.rewrite) ++ (s.wrb.slots.filterMap fun t => mine t.rewrite) ++
  (match s.eng.window, getRun s n with
   | some w, some x => if x.opcode = 6 then w.busy.map fun cb => cb - w.first else []
   | _, _ => []) ++
  (match getRun s n with | some x => x.waiting.map (·.unit) | none => [])

/-! ### The order in which miss handlers are given (06 R133, R134) -/

/-- An operation that waits for a miss handler, with its age: a request's admission, or the moment a command unit began to wait. -/
structure HWait where
  age     : Nat
  counted : Bool

/-- Age of a request in this order; a command unit stands between the request admitted last before it and the next one. -/
def reqAge (id : Nat) : Nat := 2 * id + 1

def unitWaits (s : State) (n : Nat) : List HWait :=
  match getRun s n with
  | some x => x.waiting.filterMap fun w => w.age.map fun t => { age := t, counted := x.c0.contains w.unit }
  | none => []

/-- A request that may take a reserved handler: one counted as class 0, but for a READ_SPEC (R133). -/
def takesReserved (r : Req) : Bool := r.counted && r.cmd != .spec

/-- Requests and command units that wait for a miss handler. -/
def handlerWaits (s : State) : List HWait :=
  (s.bus.reqs.filterMap fun r => if r.phase == .handler then some { age := reqAge r.id, counted := takesReserved r } else none) ++
  (List.range 5).flatMap (unitWaits s)

/-- The handler that one of the waiting operations may take, those before it in R134's order served first: operations counted as class
0, oldest first, take the lowest reserved one, then a shared one; the others take a shared one (R133). -/
def handlerInTurn (s : State) (w : HWait) : Option Nat :=
  let l := handlerWaits s
  let w0 := (l.filter fun x => x.counted && (!w.counted || decide (x.age < w.age))).length
  let w1 := (l.filter fun x => !x.counted && !w.counted && decide (x.age < w.age)).length
  let shared := (freeShared s).drop (w0 - (freeReserved s).length + w1)
  if w.counted then ((freeReserved s).drop w0 ++ shared).head? else shared.head?

/-- The handler a newcomer may take: what the operations already waiting leave (R133, R134). -/
def pickHandler (s : State) (counted : Bool) : Option Nat :=
  let l := handlerWaits s
  let w0 := (l.filter (·.counted)).length
  let shared := (freeShared s).drop (w0 - (freeReserved s).length + (l.length - w0))
  if counted then ((freeReserved s).drop w0 ++ shared).head? else shared.head?

/-- Ways that hold or await a filtered codeblock (15 R366 step 3). -/
def filteredPos (s : State) (cb : Nat) : List Nat :=
  ((liveWays s (setOf s cb)).map (posOf s (setOf s cb))).filter fun p =>
    (tagAt s p).tag == tagOf s cb && (valid (tagAt s p) || pendingPos s p)

def filteredRoom (s : State) (cb : Nat) : Bool := (filteredPos s cb).all (invalRoom s)

/-- A lookup of a filtered codeblock invalidates its ways (15 R366 step 3); they are entries that the WAKE_EPOCH in progress has
invalidated, and count in its COUNT1 (R367; DEDUCED). -/
def dropFiltered (s : State) (cb : Nat) (f : ProbeFor) : State :=
  let ps := filteredPos s cb
  let s := ps.foldl (fun s p => invalPos s p f) s
  match s.eng.epoch with
  | some e => updRun s e.ring fun x => { x with count1 := x.count1 + BitVec.ofNat 64 ps.length }
  | none => s

/-! ### Requests and answers (02, 04) -/

def getReq (s : State) (id : Nat) : Option Req := s.bus.reqs.find? (·.id == id)

def updReq (s : State) (id : Nat) (f : Req → Req) : State :=
  { s with bus := { s.bus with reqs := updIf s.bus.reqs (·.id == id) f } }

def addReq (s : State) (r : Req) : State := { s with bus := { s.bus with reqs := s.bus.reqs ++ [r] } }

/-- Performed (04 R92); a hit is performed at its tag decision. -/
def performed (r : Req) : Bool :=
  match r.phase with
  | .hit _ | .answerWait | .watching | .done => true
  | _ => false

/-- Its response is queued or has been started. -/
def responded (s : State) (r : Req) : Bool := r.answered || s.bus.resps.any (·.req == some r.id)

/-- The requester's store queue, oldest first (07 R157). -/
def storeQueue (s : State) (who : Nat) : List Req := s.bus.reqs.filter fun r => r.who == who && r.queued

/-- A tag is outstanding (02 R51). -/
def tagBusy (s : State) (who : Nat) (tag : BitVec 2) : Bool :=
  s.bus.reqs.any (fun r => r.who == who && !r.answered && r.tag == tag)
  || s.bus.resps.any (fun r => r.who == who && !r.untagged && r.tag == tag)

/-- In progress: its response has not been started; a request of the engine ends when it is done (08 R193). -/
def inProgress (r : Req) : Bool := !r.answered && !(r.who == 12 && r.phase == .done)

/-- Requests counted as class 0 and in progress, command steps of the class-0 ring included (08 R193). -/
def inFlight0 (s : State) : Nat :=
  (s.bus.reqs.filter fun r => r.counted && inProgress r).length +
  (match getRun s 0 with
   | some x => (x.c0.filter fun u => decide (x.issued ≤ u) || (inFlight s 0).contains u).length
   | none => 0)

/-- A response to the requester is discarded: it is in reset sense, or its port's EN is 0 (02 R59, R60). -/
def silenced (s : State) (who : Nat) : Bool := inReset s who || !portEn s (portOf who)

/-- Give request `id` its response. The engine has no tenure: its answer stands in the request (02 R16, 09 R207). A response given
while the port's EN is 0 is discarded (02 R59), and its tag is outstanding no more: R51 and R59 do not say when such a tag is free
(log entry 78; DESIGN CHOICE). -/
def respond (s : State) (id : Nat) (rsp : Rsp) (beats : List Beat64) (cb : Option Nat) : State :=
  match getReq s id with
  | none => s
  | some r =>
    if responded s r then s
    else if r.who = 12 then s
    else if silenced s r.who then updReq s id fun q => if silenced s q.who then { q with answered := true } else q
    else { s with bus := { s.bus with resps := s.bus.resps ++
      [{ who := r.who, tag := r.tag, rsp := rsp, beats := beats, untagged := false, retry := false, counted := r.counted,
         req := some id, cb := cb, par := beats.map beatPar, kept := false }] } }

/-- Bytes a read takes from its requester's own earlier stores that are still queued, youngest last (04 R93, R95). -/
def forwarded (s : State) (r : Req) : SectorMask × Sector :=
  (s.bus.reqs.filter fun q => q.who == r.who && q.queued && decide (q.id < r.id) && isNormal q &&
      (match q.cmd with | .write | .writeNt | .lockWrite => true | _ => false) && q.pool / 64 == r.pool / 64).foldl
    (fun a q => (a.1 ||| q.mask, overSector a.2 q.data q.mask)) (0, 0)

/-- Beats of a request's data from its sector. -/
def dataBeats (r : Req) (x : Sector) : List Beat64 := beatsOf x (firstBeat r.addr) (r.len + 1)

/-- A requester has a demand miss outstanding (06 R138). -/
def missBusy (s : State) (who : Nat) : Bool := s.bus.reqs.any fun r => r.who == who && r.miss && inProgress r

/-- Agent `who`'s watch arm. -/
def armOf (s : State) (who : Nat) : Arm :=
  { cb := s.wrb.arms.getD who none, wr := s.wrb.armWr.getLsbD who, hit := s.wrb.armBy.getD who none }

def putArm (s : State) (who : Nat) (a : Arm) : State :=
  { s with wrb := { s.wrb with arms := updAt s.wrb.arms who (fun _ => a.cb), armWr := setBit s.wrb.armWr who a.wr,
                               armBy := updAt s.wrb.armBy who (fun _ => a.hit) } }

/-- Reads of NORMAL regions by processor agents arm (07 R178). -/
def arming (r : Req) : Bool := decide (r.who < 8) && isNormal r

/-- The agent's arm takes the codeblock of a read performed with OK on a NORMAL region (07 R178). -/
def armWatch (s : State) (r : Req) : State :=
  if arming r then putArm s r.who { cb := some (reqCb r), wr := false, hit := none } else s

/-- The same at a hit, which is performed at its tag decision: the arm as it stood is kept until the read's data is there. -/
def armHit (s : State) (r : Req) : State :=
  if arming r then
    updReq (putArm s r.who { cb := some (reqCb r), wr := false, hit := some r.id }) r.id fun q => { q with armWas := some (armOf s r.who) }
  else s

/-- A read that hit is not performed with OK after all: the arm is again what it would be without it (07 R178). -/
def disarm (s : State) (r : Req) : State :=
  match r.armWas with
  | none => s
  | some a =>
    let s : State := if (armOf s r.who).hit = some r.id then putArm s r.who a else s
    let mine (x : Arm) : Arm := if x.hit = some r.id then a else x
    { s with bus := { s.bus with reqs := s.bus.reqs.map fun q => { q with armWas := if q.id = r.id then none else q.armWas.map mine } } }

/-! ### Pool failures (11 R262 to R265) -/

/-- DMA channels 0 to 3 are requesters 8 to 11 (01 R14). -/
def isChannel (who : Nat) : Bool := decide (8 ≤ who ∧ who < 12)

def isHalted (s : State) (who : Nat) : Bool := isChannel who && s.err.dmaHalt.getLsbD (who - 8)

/-- The answer of a channel's read whose response has not been started (08 R193) is CHANNEL_HALTED from now on; what a store was
answered stands (R265). -/
def haltResp (s : State) (ch : Nat) (r : Resp) : Resp :=
  if r.who = ch && (r.req.bind (getReq s)).any (fun q => isRead q.cmd) then
    { r with rsp := .channelHalted, beats := [], cb := none, par := [] }
  else r

/-- Halt a DMA channel (R265). -/
def haltDma (s : State) (ch pool cause : Nat) : State :=
  if !isChannel ch || isHalted s ch then s
  else
    let s := { s with bus := { s.bus with resps := s.bus.resps.map (haltResp s ch) } }
    let s := { s with err := { s.err with dmaHalt := setBit s.err.dmaHalt (ch - 8) true } }
    let s := raiseInt (event (count s cntDmaHalt) 7 4 (payload [(16, pool), (22, cause), (23, ch)])) srcDmaHalt
    let mine := s.bus.reqs.filter fun r => r.who == ch && !responded s r
    mine.foldl (fun s r =>
      match r.phase with
      | .queue | .fetching | .fetched =>
        updReq (respond s r.id .channelHalted [] none) r.id fun r => { r with queued := false, phase := .done }
      | .answerWait => updReq (respond s r.id .channelHalted [] none) r.id fun r => { r with phase := .done }
      | .order | .miss | .handler =>
        if r.cmd = .barrier then s
        else updReq (respond s r.id .channelHalted [] none) r.id fun r => { r with queued := false, phase := .done }
      | .hit _ | .fill _ => respond s r.id .channelHalted [] none
      | _ => s) s

/-- Answer a request whose pool read failed (R263); `x` holds the bytes its beats carry (R264). -/
def failReq (s : State) (r : Req) (x : Sector) (cause : Nat) : State :=
  let said := responded s r
  let s := updReq (disarm s r) r.id fun r => { r with fail := cause, result := x, phase := .done, queued := false }
  if r.who = 12 || said then s
  else
    let poison := dataBeats r x
    let s := count s cntPoolFail
    if r.cmd = .fetch then respond s r.id .fetchFault [] none
    else if r.who ≥ 8 then
      let s := respond s r.id .channelHalted [] none
      haltDma s r.who r.pool cause
    else respond s r.id .okPoison poison (if isNormal r && isRead r.cmd then some (reqCb r) else none)

end Sys2Proof.Machine
end

