-- ==== Sys2Proof/Machine/Port.lean ====
section
/-! DEFINITION. The two ports below the cache: weighted rounds (08 R198), read requests and tags of the Memory Port (12 R292 to
R298), the recent-write table (10 R247), the overlay (07 R171), and the accesses the Cache Store Port holds (13 R320 to R323). -/

namespace Sys2Proof.Machine

/-! ### Weighted rounds (08 R198) -/

def weightOf (s : State) (c : Nat) : Nat := if c = 1 then s.qtk.w1 else if c = 2 then s.qtk.w2 else s.qtk.w3

def nextClass (c : Nat) : Nat := if c ≥ 3 then 1 else c + 1

/-- The class served among those ready, and the round after serving it; none when no class is ready. -/
def roundPick (s : State) (ready : Nat → Bool) : Nat → Round → Option (Nat × Round)
  | 0, _ => none
  | n + 1, r =>
    if ready r.cls && decide (r.used < weightOf s r.cls) then
      some (r.cls, if r.used + 1 = weightOf s r.cls then { cls := nextClass r.cls, used := 0 } else { r with used := r.used + 1 })
    else roundPick s ready n { cls := nextClass r.cls, used := 0 }

/-- A demoted request, and a drain of class 0, take part as class 1 (07 R471, 08 R198). -/
def roundClass (c : Nat) : Nat := if c = 0 then 1 else c

/-! ### Memory Port -/

/-- New requests are held: link recovery runs, or the pool is down (12 R297, R298). -/
def portHeld (s : State) : Bool := s.mem.recov != .idle || s.err.fPoolDown

/-- What the header of a TLP says of its sender (12 R287): requester 00:00.0, but 00:00.1 for configuration requests; traffic class 0,
Relaxed Ordering, No Snoop and ID-Based Ordering 0, no digest. -/
structure TlpHeader where
  requester : BitVec 16
  tc        : BitVec 3
  attr      : BitVec 3
  digest    : Bool
  deriving DecidableEq, Repr

def tlpHeader (t : Tlp) : TlpHeader :=
  { requester := (match t with | .cfgRd .. | .cfgWr .. => 1 | _ => 0), tc := 0, attr := 0, digest := false }

/-- The credits the 8140 advertises (12 R288). -/
def advertised : Credits := { posted := 8, postedData := 16, nonPosted := 4, nonPostedData := 4, completion := none }

/-- A TLP goes out while the data link layer is up; a link in L1 returns to L0 for it (12 R304). -/
def sendTlp (s : State) (t : Tlp) : State :=
  if s.mem.dlUp then emit { s with mem := { s.mem with pstate := 0 } } (.tlp t) else s

/-- Posted writes wait: requests are held, or there is no link to take them (12 R298, 11 R275). -/
def writesHeld (s : State) : Bool := portHeld s || !s.mem.dlUp

/-- Earlier drains of the slot's codeblock have all issued both writes (07 R168, R169). -/
def firstOfBlock (s : State) (t : Slot) : Bool :=
  !s.wrb.slots.any fun x => x.kind == .drain && x.cb == t.cb && decide (x.id < t.id)

/-- A drain's two writes may be issued: its bytes are complete, earlier drains of the codeblock are done, and the port takes writes. -/
def drainReady (s : State) (t : Slot) : Bool :=
  t.kind == .drain && t.stage == .ready && firstOfBlock s t && !writesHeld s

/-- A tag is in use: by a read that is outstanding or quarantined, or by the configuration request (12 R287, R296). -/
def tagUsed (s : State) (t : Nat) : Bool := s.mem.reads.any (·.tag == some t) || s.mem.cfgTag == some t

/-- Tags that any request may take: 0 to 15 are kept for reads of handlers 0 to 7 (12 R293). -/
def sharedTags : List Nat := (List.range 240).map (· + 16)

/-- The lowest free tag that a read may take (log entry 15). A read of handlers 0 to 7 has all 256. -/
def freeTagFor (s : State) (o : ReadOwner) : Option Nat :=
  let low : Bool := match o with | .handler h _ => decide (h < 8) | _ => false
  (if low then List.range 256 else sharedTags).find? fun t => !tagUsed s t

/-- WSEQ of the codeblock's entry in the recent-write table (10 R247). -/
def recentOf (s : State) (cb : Nat) : Option (BitVec 16) := (s.icb.recent.find? (·.1 == cb)).map (·.2)

/-- The codeblock read of a handler or slot captures the expected WSEQ when it is issued; bytes drained before it need no
overlay (10 R247, 07 R171). -/
def captureWseq (s : State) (o : ReadOwner) : State :=
  match o with
  | .handler h false => updHandler s h fun x => { x with expect := recentOf s x.cb, later := [] }
  | .slot i false =>
    { s with wrb := { s.wrb with slots := updIf s.wrb.slots (·.id == i) (fun x => { x with expect := recentOf s x.cb, later := [] }) } }
  | _ => s

/-- Send one read with a tag. -/
def sendRead (s : State) (m : MRead) (tag : Nat) : State :=
  let reads := updIf s.mem.reads (fun x => x.owner == m.owner && x.tag.isNone) fun x => { x with tag := some tag, lost := !s.mem.dlUp }
  let s := { s with mem := { s.mem with reads := reads } }
  let s := countN s cntMrd 1
  let s := captureWseq s m.owner
  sendTlp s (if m.bytes = 0 then .mrdZero (busAddr s m.addr) tag else .mrd (busAddr s m.addr) m.bytes tag)

/-- Unsent reads that have a tag, oldest first. -/
def readyReads (s : State) : List (MRead × Nat) :=
  s.mem.reads.filterMap fun m => if m.tag.isNone then (freeTagFor s m.owner).map fun t => (m, t) else none

/-- Ready drains of a class, oldest first. -/
def readyDrains (s : State) (k : Nat) : List Slot := s.wrb.slots.filter fun t => drainReady s t && roundClass t.cls == k

/-- The class whose operation the port issues next, and the round after it: class 0 first, then the weighted round, in which drains take
part with their two writes as one operation (08 R196, R198; 07 R471). -/
def memPick (s : State) : Option (Nat × Round) :=
  if (readyReads s).any (·.1.cls == 0) then some (0, s.qtk.memRound)
  else roundPick s (fun k => (readyReads s).any (·.1.cls == k) || !(readyDrains s k).isEmpty) 3 s.qtk.memRound

/-- The read issued next, with its tag. Within a class reads go before drains: R198 says the oldest, and no rule compares the age of a
read with that of a drain (log entry 87; DESIGN CHOICE). -/
def pickRead (s : State) : Option (MRead × Nat × Round) :=
  match memPick s with
  | some (k, r) => ((readyReads s).find? (·.1.cls == k)).map fun x => (x.1, x.2, r)
  | none => none

/-- The drain whose writes are issued next. -/
def pickDrain (s : State) : Option (Slot × Round) :=
  match memPick s with
  | some (k, r) => if (readyReads s).any (·.1.cls == k) then none else (readyDrains s k).head?.map fun t => (t, r)
  | none => none

/-- The configuration request is sent: while link recovery runs it is held like every new request (12 R297), and it takes a tag, one of the
256 non-posted requests that may be outstanding (R287). -/
def pumpCfg (s : State) : State :=
  match s.mem.cfgWait, sharedTags.find? fun t => !tagUsed s t with
  | some t, some n =>
    if s.mem.recov = .idle && s.mem.dlUp then sendTlp { s with mem := { s.mem with cfgWait := none, cfgTag := some n } } t else s
  | _, _ => s

/-- Send what may be sent, up to `n` reads. -/
def sendReads : Nat → State → State
  | 0, s => s
  | n + 1, s =>
    if portHeld s then s
    else
      match pickRead s with
      | none => s
      | some (m, t, r) => sendReads n (sendRead { s with qtk := { s.qtk with memRound := r } } m t)

/-- Hand a read to the Memory Port. `cls` is 0 for a request counted as class 0. -/
def askRead (s : State) (o : ReadOwner) (addr bytes cls : Nat) : State :=
  sendReads 1 { s with mem := { s.mem with reads := s.mem.reads ++
    [{ owner := o, tag := none, addr := addr, bytes := bytes, got := [], cls := cls, quar := false, lost := false }] } }

/-- The codeblock and its granule (12 R292). -/
def askBlock (s : State) (o : Bool → ReadOwner) (cb cls : Nat) : State :=
  askRead (askRead s (o false) (cb * 512) 512 cls) (o true) (granuleAddr s cb) 64 cls

/-- Update the recent-write table: the codeblock's entry, else the least recently updated one (10 R247). -/
def recentPut (s : State) (cb : Nat) (w : BitVec 16) : State :=
  { s with icb := { s.icb with recent := ((cb, w) :: s.icb.recent.filter (·.1 != cb)).take 256 } }

/-! ### Overlay (07 R171) -/

/-- Codeblocks' pending bytes over pool data: drains whose write was issued after the read's request, those still in slots in
drain start order, then the open entry; and whether a poisoned one was among them (10 R248). -/
def overlay (s : State) (cb : Nat) (later : List Drained) (b : Block) : Block × Bool :=
  let x := later.foldl (fun a d => (overBlock a.1 d.data d.valid, a.2 || d.poison)) (b, false)
  let x := (s.wrb.slots.filter fun t => t.kind == .drain && t.cb == cb).foldl
    (fun a t => (overBlock a.1 t.data t.own, a.2 || t.poison)) x
  (s.wrb.entries.filter fun e => e.cb == cb).foldl (fun a e => (overBlock a.1 e.data e.valid, a.2 || e.poison)) x

/-! ### Cache Store Port accesses -/

/-- Places for `n` more accesses: 48, eight of them only for accesses of requests counted as class 0 (13 R322). -/
def accRoomFor (s : State) (counted : Bool) (n : Nat) : Bool := decide (s.csp.accs.length + n ≤ if counted then 48 else 40)
def accRoom (s : State) (counted : Bool) : Bool := accRoomFor s counted 1

/-- A rising list of sectors as runs of consecutive ones: an access is one such run (13 R322). -/
def sectorRuns (l : List Nat) : List (List Nat) :=
  l.foldr (fun k rs => match rs with
    | (j :: r) :: t => if k + 1 = j then (k :: j :: r) :: t else [k] :: (j :: r) :: t
    | _ => [[k]]) []

/-- Hand an access to the Cache Store Port; while READY = 0 it is dropped by the caller (13 R474). -/
def addAcc (s : State) (kind : AccKind) (pos : Nat) (sectors : List Nat) (data : Block) (mask : BlockMask) (counted : Bool)
    (cls : Nat) : State :=
  { s with csp := { s.csp with nextAcc := s.csp.nextAcc + 1, accs := s.csp.accs ++
    [{ id := s.csp.nextAcc, kind := kind, pos := pos, sectors := sectors, data := data, mask := mask, counted := counted,
       cls := cls, left := sectors, inRow := false, issued := false }] } }

/-- One access for each run of the sectors. -/
def addRuns (s : State) (kind : AccKind) (pos : Nat) (sectors : List Nat) (data : Block) (mask : BlockMask) (counted : Bool)
    (cls : Nat) : State :=
  (sectorRuns sectors).foldl (fun s l => addAcc s kind pos l data (mask &&& (l.foldl (fun m k => m ||| sectorMask k) 0)) counted cls) s

/-- Place of a sector in the devices (13 R320). -/
def dramAddr (s : State) (pos k : Nat) : DramAddr :=
  let n := if cspX16 s then 3 else 4
  let r := cspRanks s - 1
  let b := (pos ^^^ (pos >>> logWays s)) % 2 ^ n
  { rank := if r = 1 then pos / 2 ^ (n + 4) % 2 else 0
    bank := b
    bg := if cspX16 s then b % 2 else b % 4
    ba := if cspX16 s then b / 2 % 4 else b / 4
    row := pos >>> (n + 4 + r)
    col := ((pos >>> n) % 16) * 64 + k * 8 }

/-- Sectors of a cached copy that a store writes: the valid ones it has bytes of, while the port takes accesses (07 R159, 13 R474). -/
def storeSectors (s : State) (pos : Nat) (mask : BlockMask) : List Nat :=
  if s.csp.ready then (sectorsIn mask).filter fun k => (tagAt s pos).svalid.getLsbD k else []

/-- Bytes written to a cached copy. -/
def storeHit (s : State) (pos : Nat) (data : Block) (mask : BlockMask) (counted : Bool) (cls : Nat) : State :=
  addRuns s .store pos (storeSectors s pos mask) data mask counted cls

end Sys2Proof.Machine
end

