-- ==== Sys2Proof/Machine/Cache.lean ====
section
/-! DEFINITION. Lookups of reads, fill start and replacement, stride training, handing fetched data to waiting requests, and
leaving the enabled state (05, 06). -/

namespace Sys2Proof.Machine

/-! ### Replacement (06 R146) -/

/-- One aging round's end: the first way of age 3, or all aged by one. -/
def ageRounds (s : State) (set : Nat) (e : List Nat) : Nat → State × Option Nat
  | 0 => (s, none)
  | n + 1 =>
    match e.find? fun w => (tagAt s (posOf s set w)).age == 3 with
    | some w => (s, some w)
    | none => ageRounds (e.foldl (fun s w => let p := posOf s set w; let t := tagAt s p; tagPut s p { t with age := t.age + 1 }) s) set e n

/-- The ways a victim may be chosen from: `mask` is a PRELOAD's way mask. -/
def victimWays (s : State) (set : Nat) (mask : Option (BitVec 16)) : List Nat :=
  (liveWays s set).filter fun w =>
    let p := posOf s set w
    let t := tagAt s p
    !(valid t && t.lock) && !pendingPos s p &&
    (match mask with
     | some m => m.getLsbD w
     | none => !(rsvWays s).getLsbD w)

/-- victim(set, kind, fill_class, mask): the way, with the ages as the choice leaves them. `protect`: class-0 protection may
apply (not a PRELOAD, and fill_class is not 0). -/
def victim (s : State) (set : Nat) (protect : Bool) (mask : Option (BitVec 16)) : State × Option Nat :=
  let e := victimWays s set mask
  match e.find? fun w => !valid (tagAt s (posOf s set w)) with
  | some w => (s, some w)
  | none =>
    if e.isEmpty then (s, none)
    else
      let c0 := ((List.range (ways s)).filter fun w => let t := tagAt s (posOf s set w); valid t && t.c0).length
      let e2 := e.filter fun w => !(tagAt s (posOf s set w)).c0
      let e := if protect && c0Prot s && decide (c0 ≤ c0Max s) && !e2.isEmpty then e2 else e
      ageRounds s set e 4

/-- A handler just taken. -/
def newHandler (idx : Nat) (kind : HKind) (cb : Nat) (who : Nat) (str : BitVec 3) (counted : Bool) (cls : Nat)
    (reqs : List Nat) : Handler :=
  { idx := idx, kind := kind, cb := cb, dev := none, pos := none, tagF := 0, c0 := false, age := 0, counted := counted,
    cls := cls, str := str, who := who, reqs := reqs, cancelled := false, cbData := none, grData := none, expect := none,
    later := [], data := none, fixed := 0, found := 0,
    reread := false, units := [] }

def addHandler (s : State) (h : Handler) : State := { s with cch := { s.cch with handlers := s.cch.handlers ++ [h] } }

/-- Class of a Memory Port read: 0 only when counted (08 R196). -/
def portClass (counted : Bool) (cls : Nat) : Nat := if counted then 0 else roundClass cls

/-- The strength a codeblock read is decoded at: the region's, or that of an open restrength window (10 R248, 09 R227). -/
def strengthFor (s : State) (cb : Nat) (str : BitVec 3) : BitVec 3 :=
  match s.eng.window with
  | none => str
  | some w =>
    if w.first ≤ cb ∧ cb < w.first + w.cbs then (if w.converted.contains cb then w.new else w.old) else str

/-- A codeblock that RESTRENGTH or VERIFY holds between reading and rewriting it: other pool reads wait (09 R228). -/
def windowBusy (s : State) (cb : Nat) : Bool :=
  s.wrb.entries.any (fun e => e.cb == cb && e.rewrite.isSome) || s.wrb.slots.any (fun t => t.cb == cb && t.rewrite.isSome) ||
  (match s.eng.window with | some w => w.busy.contains cb | none => false)

/-- The handler reads for the unit that rewrites its codeblock. -/
def rewriterRead (s : State) (h : Handler) : Bool :=
  match h.kind with
  | .unit n u => s.wrb.entries.any fun e => e.cb == h.cb && e.rewrite == some (n, u)
  | _ => false

/-- Issue the codeblock read of a handler; while a command unit rewrites the codeblock, any other read waits (09 R228). -/
def readFor (s : State) (h : Handler) : State :=
  if windowBusy s h.cb && !rewriterRead s h then addHandler s { h with asked := false }
  else askBlock (addHandler s h) (.handler h.idx) h.cb (portClass h.counted h.cls)

/-- Reads that waited for the rewriting of their codeblock are issued, at the strength it has now (09 R227). -/
def pumpFills (s : State) : State :=
  (s.cch.handlers.filter fun h => !h.asked && !windowBusy s h.cb).foldl (fun s h =>
    askBlock (updHandler s h.idx fun x => { x with asked := true, str := strengthFor s h.cb h.str }) (.handler h.idx) h.cb
      (portClass h.counted h.cls)) s

/-- The install value of AGE (R146). -/
def installAge (k : HKind) : BitVec 2 :=
  match k with
  | .prefetch => 2
  | .preload _ _ => 0
  | _ => 1

/-- Fill start (R140): victim, entry written, back-invalidation queued (03 R83), read issued. The handler comes with kind and
codeblock; none when no way could be chosen. -/
def fillStart (s : State) (h : Handler) (mask : Option (BitVec 16)) : Option State :=
  let set := setOf s h.cb
  let isPre := match h.kind with | .preload _ _ => true | _ => false
  match victim s set (!isPre && !h.counted) mask with
  | (_, none) => none
  | (s', some w) =>
    let p := posOf s set w
    let t := tagAt s' p
    let c0 := h.kind == .demand && h.counted
    let ring := match h.kind with | .preload n _ => some n | _ => none
    let old := cbOfTag s set t.tag
    let s1 := if valid t then queueProbe s' (.inv old) t.pres { back := some old, ring := ring } else s'
    let s1 := tagPut s1 p { tag := tagOf s h.cb, age := installAge h.kind, lock := false, c0 := c0, pres := 0, svalid := 0 }
    some (readFor s1 { h with pos := some p, tagF := tagOf s h.cb, c0 := c0, age := installAge h.kind })

/-- The probe queue entries that this fill start would need are free (03 R74). -/
def fillRoom (s : State) (cb : Nat) (protect : Bool) (mask : Option (BitVec 16)) : Bool :=
  let set := setOf s cb
  match victim s set protect mask with
  | (_, none) => true
  | (s', some w) => invalRoom s' (posOf s set w)

/-! ### Stride training (06 R149) -/

def trainDet (s : State) (d : Detector) (cb : Nat) : Detector × List Int :=
  if !d.valid then ({ valid := true, last := cb, stride := 0, conf := 0 }, [])
  else
    let diff : Int := (cb : Int) - (d.last : Int)
    if diff = 0 then (d, [])
    else
      let d' :=
        if diff.natAbs > 64 then { d with stride := 0, conf := 0 }
        else if diff = d.stride then { d with conf := min (d.conf + 1) 3 }
        else { d with stride := diff, conf := 0 }
      let d' := { d' with last := cb }
      (d', if pfEn s && d'.stride != 0 && decide (d'.conf ≥ pfConf s)
           then (List.range (pfDepth s)).map fun k => (cb : Int) + (k + 1 : Int) * d'.stride else [])

/-- A first lookup of a READ or READ_FETCH trains its requester's detector (R149). -/
def trainOn (s : State) (r : Req) : State :=
  if r.who < 12 && (r.cmd == .read || r.cmd == .fetch) && attrPrefetch (reqAttr r) then
    let (d, c) := trainDet s (s.cch.dets.getD r.who Detector.reset) (reqCb r)
    let n := match r.target with | .region n _ => n | _ => 0
    let cs := c.filterMap fun (i : Int) => if 0 ≤ i then some { cb := i.toNat, region := n, attr := reqAttr r : Candidate } else none
    { s with cch := { s.cch with dets := updAt s.cch.dets r.who (fun _ => d), cands := s.cch.cands ++ cs } }
  else s

/-- Detectors lose their training: cold reset, wake, enable (R149). -/
def resetDetectors (s : State) : State :=
  { s with cch := { s.cch with dets := List.replicate 12 Detector.reset } }

/-! ### Answers with data -/

/-- A read is answered with OK and these bytes of its sector, its requester's queued bytes forwarded over them (04 R93). -/
def answerRead (s : State) (r : Req) (x : Sector) : State :=
  let f := if isNormal r then forwarded s r else (0, 0)
  let x := overSector x f.2 f.1
  let s := updReq s r.id fun r => { r with phase := .done, result := x, fail := 0 }
  armWatch (respond s r.id .ok (dataBeats r x) (if isNormal r then some (reqCb r) else none)) r

/-- Hand a handler's data to one waiting read. -/
def handTo (b : Block) (fail : Nat) (s : State) (id : Nat) : State :=
  match getReq s id with
  | none => s
  | some r =>
    let x := sectorOf b (secOf r.pool)
    if fail = 0 then answerRead s r x
    else let f := if isNormal r then forwarded s r else (0, 0); failReq s r (overSector x f.2 f.1) fail

/-- Presence bits an install sets: processor agents it answers with OK by a READ, READ_FETCH or READ_SPEC (03 R66). -/
def presFor (s : State) (ids : List Nat) : BitVec 8 :=
  ids.foldl (fun m id => match getReq s id with
    | some r => if r.who < 8 && isRead r.cmd && !r.answered && !silenced s r.who then m ||| bit true r.who else m
    | none => m) 0

/-! ### Reads of NORMAL regions (05 R117, 06 R132 to R139, R151) -/

def markLooked (s : State) (id : Nat) : State := updReq s id fun r => { r with looked := true }

/-- A lookup's decision: the first one is counted and trains its requester's detector (R123, R149). -/
def firstLook (s : State) (r : Req) (c : Nat) : State := markLooked (if r.looked then s else trainOn (count s c) r) r.id

/-- READ_SPEC refused (R151). -/
def specRefuse (s : State) (r : Req) : State :=
  respond (updReq (count s cntSpecRef) r.id fun r => { r with phase := .done, mark := .none }) r.id .specRefused [] none

/-- A READ_SPEC that has not hit before: it may be refused (R151). -/
def isSpec (r : Req) : Bool := r.cmd == .spec && !r.wasHit

/-- A READ_SPEC that needs a handler is refused (R151). -/
def specRefused (s : State) (r : Req) : Bool :=
  isSpec r && (missBusy s r.who || backBusy s (reqCb r) || (pickHandler s false).isNone)

/-- Take a handler for a request that needs one, or wait for one (R133, R134, R138, R139). `held` is a handler given to it. -/
def withHandler (s : State) (r : Req) (held : Option Nat) (go : State → Nat → State) : State :=
  if specRefused s r then specRefuse s r
  else if missBusy s r.who && !r.miss then updReq s r.id fun r => { r with phase := .miss }
  else
    match (match held with | some i => some i | none => pickHandler s (takesReserved r)) with
    | some i => go (updReq s r.id fun r => { r with miss := true, phase := .fill i }) i
    | none => updReq (if r.phase = .handler then s else count s cntMhWait) r.id fun r => { r with miss := true, phase := .handler }

/-- The pool is down: a read that would be issued is answered as one that timed out (12 R298). -/
def poolDownRead (s : State) (r : Req) : State :=
  let (x, _) := overlay s (reqCb r) [] 0
  let f := forwarded s r
  failReq s r (overSector (sectorOf x (secOf r.pool)) f.2 f.1) 2

/-- A read that installs nothing (R132): non-cacheable, or no way to be had (R147). -/
def readUncached (s : State) (r : Req) (held : Option Nat) : State :=
  withHandler s r held fun s i =>
    if s.err.fPoolDown then poolDownRead s r
    else readFor s (newHandler i .uncached (reqCb r) r.who (strengthFor s (reqCb r) (attrStr (reqAttr r))) r.counted r.cls [r.id])

/-- Join a fill in flight (R135). -/
def joinFill (s : State) (r : Req) (h : Handler) : State :=
  let mine := s.bus.reqs.any fun q => q.who == r.who && q.miss && !q.answered && q.id != r.id && reqCb q == reqCb r
  if isSpec r && ((missBusy s r.who && !mine) || backBusy s (reqCb r)) then specRefuse s r
  else if missBusy s r.who && !mine && !r.miss then updReq s r.id fun r => { r with phase := .miss }
  else
    let s := updHandler s h.idx fun h => { h with reqs := h.reqs ++ [r.id] }
    updReq s r.id fun q => { q with phase := .fill h.idx, miss := q.miss || !mine }

/-- A lookup, first or re-entry, of a READ, READ_FETCH or READ_SPEC to a NORMAL region; `held` is a miss handler it was given. -/
def readNormal (s : State) (r : Req) (held : Option Nat) : State :=
  let cb := reqCb r
  let need : BitVec 8 := bit true (secOf r.pool)
  let looked := { r with looked := true }
  if !lookable s (reqCacheable r) cb then
    let s := if reqCacheable r && s.cch.enabled && !r.looked then count s cntSpan else s
    readUncached (markLooked s r.id) looked held
  else if clearingDue s cb then s
  else
    match lookup s cb need with
    | .parErr bad => tagParity (firstLook s r cntMiss) (setOf s cb) bad
    | .filtered =>
      if !filteredRoom s cb then s
      else
        let s := firstLook s r cntMiss
        if specRefused s looked then specRefuse s looked else readUncached (dropFiltered s cb {}) looked held
    | .hit w =>
      let p := posOf s (setOf s cb) w
      if secDue s p need then s
      else if !s.csp.ready then readUncached (markLooked s r.id) looked held
      else if !accRoom s r.counted then s
      else
        let s := firstLook s r cntHit
        let t := tagAt s p
        let pres := if r.who < 8 && !backBusy s cb then t.pres ||| bit true r.who else t.pres
        let s := tagPut s p { t with age := 0, c0 := t.c0 || r.counted, pres := pres }
        let f := forwarded s r
        let a := s.csp.nextAcc
        let s := addAcc s (.hit r.id) p [secOf r.pool] 0 0 r.counted r.cls
        armHit (updReq s r.id fun r => { r with phase := .hit a, wasHit := true, fwdMask := f.1, fwdData := f.2 }) r
    | .smiss w =>
      let p := posOf s (setOf s cb) w
      let s := firstLook s r cntSmiss
      match smissOf s p cb with
      | some h => joinFill s looked h
      | none =>
        if s.err.fPoolDown && !invalRoom s p then s
        else
          withHandler s looked held fun s i =>
            if s.err.fPoolDown then dropEntry (poolDownRead s looked) p cb
            else readFor s { newHandler i .sectorMiss cb r.who (strengthFor s cb (attrStr (reqAttr r))) r.counted r.cls [r.id] with pos := some p }
    | .miss =>
      let s := firstLook s r cntMiss
      match fillOf s cb with
      | some h => joinFill s looked h
      | none =>
        if !fillRoom s cb (!r.counted) none then s
        else
          withHandler s looked held fun s i =>
            if s.err.fPoolDown then poolDownRead s looked
            else
              let h := newHandler i .demand cb r.who (strengthFor s cb (attrStr (reqAttr r))) r.counted r.cls [r.id]
              match fillStart s h none with
              | some s' => s'
              | none => readFor (count s cntNoAlloc) { h with kind := .uncached }

/-! ### Leaving the enabled state (05 R128, R129; 11 R269) -/

/-- A cache-store access that serves a read loses its place: the read is served by the non-cacheable flow, a completion from
the pool, a fetch from the pool; writes are discarded (11 R269, 13 R474). -/
def dropAccess (s : State) (a : Acc) : State :=
  let s := { s with csp := { s.csp with accs := s.csp.accs.filter (·.id != a.id) } }
  match a.kind with
  | .hit id => updReq s id fun r => { r with phase := if r.phase = .done then .done else .order }
  | .completion i =>
    { s with wrb := { s.wrb with slots := updIf s.wrb.slots (·.id == i) fun x => { x with stage := .poolWait } } }
  | .fetch id => updReq s id fun r => { r with phase := .miss }
  | .unit _ _ | .store | .install _ => s

/-- The cache is not enabled from now on (R128). -/
def disableCache (s : State) : State :=
  if s.cch.enabled then
    cancelFills { s with cch := { s.cch with enabled := false, invDone := false } } fun _ => true
  else s

/-- A Bypass cause: CAUSE 1 CRC mismatch, 2 register parity (11 R280, 05 R129). -/
def bypassCause (s : State) (cause off : Nat) : State :=
  let s := if s.cch.bypass then s else
    let s := disableCache s
    { s with cch := { s.cch with bypass := true, invDone := false }, err := { s.err with fBypass := true } }
  let s := raiseInt (event (count s cntBypass) 7 8 (payload [(16, cause), (18, off)])) srcBypass
  { s with
    err := { s.err with bypLog := put (put (put (put s.err.bypLog 31 24 ((fld s.err.bypLog 31 24 + 1) % 256)) 23 18 0) 17 16 cause) 15 0 off }
    cfg := { s.cfg with okSince := false, passNew := false } }

/-- A use of a member with bad stored parity is a cause, once after each write (16 R398, 11 R280). -/
def useReg (s : State) (off : Nat) : State :=
  if s.cfg.parBad.contains off && !s.cfg.parSeen.contains off then
    bypassCause { s with cfg := { s.cfg with parSeen := off :: s.cfg.parSeen } } 2 off
  else s

/-- Loss of the devices' contents, reported while the cache is enabled (11 R269, 13 R332). -/
def cacheLoss (s : State) : State :=
  let s := disableCache s
  let s := event { s with err := { s.err with fCsloss := true } } 7 9 0
  s.csp.accs.foldl dropAccess s

end Sys2Proof.Machine
end

