-- ==== Sys2Proof/Machine/Buffers.lean ====
section
/-! DEFINITION. Merge and NT combining buffers, drain marks and drain slots, durable releases, watches, and the retirement of a
NORMAL store (07). -/

namespace Sys2Proof.Machine

/-! ### Entries (R163 to R165) -/

def openEntry (s : State) (cb : Nat) : Option Entry := s.wrb.entries.find? (·.cb == cb)

def mergeUsed (s : State) : Nat := (s.wrb.entries.filter fun e => !e.nt).length
def mergeFree (s : State) : Nat := 32 - mergeUsed s
def ntFree (s : State) : Nat := 8 - (s.wrb.entries.filter (·.nt)).length

/-- A retirement may take a new merge entry (R164). -/
def mergeAvail (s : State) (counted : Bool) : Bool :=
  (counted && decide (0 < mergeFree s)) || decide (c0Rsv s < mergeFree s)

/-- The higher rank of two marks: durable, then full, then any other (R166). -/
def topRank (a : Option DrainRank) (b : DrainRank) : DrainRank :=
  match a, b with
  | some .durable, _ => .durable
  | _, .durable => .durable
  | some (.full n), _ => .full n
  | _, r => r

/-- Mark an entry for drain; deferred while a fetch into it is in flight (R165). -/
def markE (r : DrainRank) (e : Entry) : Entry :=
  if e.fetching then { e with deferred := some (topRank e.deferred r) } else { e with mark := some (topRank e.mark r) }

def updEntry (s : State) (id : Nat) (f : Entry → Entry) : State :=
  { s with wrb := { s.wrb with entries := updIf s.wrb.entries (·.id == id) f } }

def markEntry (s : State) (id : Nat) (r : DrainRank) : State := updEntry s id (markE r)

/-- An entry that has become full is marked (R165). -/
def markIfFull (s : State) (id : Nat) : State :=
  match s.wrb.entries.find? (·.id == id) with
  | some e =>
    let isFull := match topRank e.mark .other, topRank e.deferred .other with
      | .full _, _ => true
      | _, .full _ => true
      | _, _ => false
    if e.valid = BitVec.allOnes 512 && !isFull then
      markEntry { s with wrb := { s.wrb with nextFull := s.wrb.nextFull + 1 } } id (.full s.wrb.nextFull)
    else s
  | none => s

/-- A fetch into the entry starts: from then on it is not marked, and a mark it has is deferred (R165). -/
def holdMark (e : Entry) : Entry :=
  let d := match e.mark with | some r => some (topRank e.deferred r) | none => e.deferred
  { e with fetching := true, mark := none, deferred := d }

/-- A fetch into the entry has completed: what was deferred applies (R165). -/
def endFetch (s : State) (id : Nat) : State :=
  updEntry s id fun e =>
    let e' := { e with fetching := false, deferred := none }
    match e.deferred with | some r => markE r e' | none => e'

/-- Pressure marking (R165), `n` entries at most: the oldest unmarked merge entry that may be marked. -/
def pressure : Nat → State → State
  | 0, s => s
  | n + 1, s =>
    let marked := (s.wrb.entries.filter fun e => !e.nt && e.mark.isSome).length
    if mergeFree s + marked < c0Rsv s + lowWater s then
      match s.wrb.entries.find? fun e => !e.nt && e.mark.isNone && !e.fetching with
      | some e => pressure n (markEntry s e.id .other)
      | none => s
    else s

/-- The oldest open NT entry is marked when an NT allocation finds none free (R164). -/
def ntPressure (s : State) : State :=
  match s.wrb.entries.find? (·.nt) with
  | some e => markEntry s e.id .other
  | none => s

/-- Find or allocate the codeblock's open entry (R163): its id. -/
def allocEntry (s : State) (nt : Bool) (cb : Nat) (str : BitVec 3) (cls : Nat) (cacheable : Bool) : State × Nat :=
  match openEntry s cb with
  | some e => (s, e.id)
  | none =>
    ({ s with wrb := { s.wrb with nextEnt := s.wrb.nextEnt + 1, entries := s.wrb.entries ++
        [{ id := s.wrb.nextEnt, nt := nt, cb := cb, data := 0, valid := 0, contrib := 0, str := str, cls := cls, age := 0,
           mark := none, poison := false, fetching := false, deferred := none, cacheable := cacheable, rewrite := none }] } },
     s.wrb.nextEnt)

/-- Merge bytes into an entry (R163). -/
def mergeInto (s : State) (id : Nat) (data : Block) (mask : BlockMask) (who : Nat) (poison : Bool) : State :=
  markIfFull (updEntry s id fun e => { e with
    data := overBlock e.data data mask, valid := e.valid ||| mask, contrib := setBit e.contrib who true,
    poison := e.poison || poison }) id

/-- Fill the entry's bytes that are still invalid (R174). -/
def fillInvalid (s : State) (id : Nat) (data : Block) (mask : BlockMask) : State :=
  markIfFull (updEntry s id fun e => { e with
    data := overBlock e.data data (mask &&& ~~~e.valid), valid := e.valid ||| mask }) id

/-- A buffer entry is available to a retirement (R158 condition 3, R164). -/
def entryAvail (s : State) (r : Req) : Bool :=
  (openEntry s (reqCb r)).isSome || (if r.cmd = .writeNt then decide (0 < ntFree s) else mergeAvail s r.counted)

/-- The entry of a retirement, at the strength that applies (09 R227). -/
def entryFor (s : State) (r : Req) : State × Nat :=
  allocEntry s (r.cmd == .writeNt) (reqCb r) (strengthFor s (reqCb r) (attrStr (reqAttr r))) r.cls (reqCacheable r)

/-! ### Drain slots (R166) -/

def slotsUsed (s : State) : Nat := s.wrb.slots.length
/-- NT drains and flush reads held, which with DEVICE writes may hold 48 (a DEVICE write's slot is freed as it issues). -/
def slotsLimited (s : State) : Nat := (s.wrb.slots.filter fun t => t.nt || t.kind != .drain).length

def slotFree (s : State) (limited : Bool) : Bool :=
  decide (slotsUsed s < 64) && (!limited || decide (slotsLimited s < 48))

def getSlot (s : State) (id : Nat) : Option Slot := s.wrb.slots.find? (·.id == id)

def updSlot (s : State) (id : Nat) (f : Slot → Slot) : State :=
  { s with wrb := { s.wrb with slots := updIf s.wrb.slots (·.id == id) f } }

def dropSlot (s : State) (id : Nat) : State := { s with wrb := { s.wrb with slots := s.wrb.slots.filter (·.id != id) } }

def newSlot (id : Nat) (kind : SlotKind) : Slot :=
  { id := id, kind := kind, entry := 0, cb := 0, data := 0, valid := 0, own := 0, contrib := 0, str := 0, cls := 0,
    poison := false, cacheable := false, nt := false, stage := .ready, bad := false, rewrite := none, cbData := none,
    grData := none, expect := none, later := [], resend := false }

def addSlot (s : State) (t : Slot) : State :=
  { s with wrb := { s.wrb with nextSlot := s.wrb.nextSlot + 1, slots := s.wrb.slots ++ [t] } }

/-- Sort key of a mark: lower drains first (R166); entries stand in allocation order. -/
def rankKey (m : DrainRank) : Nat × Nat :=
  match m with
  | .durable => (0, 0)
  | .full n => (1, n)
  | .other => (2, 0)

/-- Missing bytes of a drain. -/
def missing (t : Slot) : BlockMask := ~~~t.valid

/-- A drain starts (R166): the entry moves into a slot. -/
def startDrain (s : State) (e : Entry) (perr : Bool) : State :=
  let s := if perr then bufParity s 2 0xFF else s
  let s := count s cntDrain
  let t : Slot := { newSlot s.wrb.nextSlot .drain with
    entry := e.id, cb := e.cb, data := e.data, valid := e.valid, own := e.valid, contrib := e.contrib, str := e.str, cls := e.cls,
    poison := e.poison || perr, cacheable := e.cacheable, nt := e.nt, rewrite := e.rewrite,
    stage := if e.valid = BitVec.allOnes 512 then .ready else .lookup }
  addSlot { s with wrb := { s.wrb with entries := s.wrb.entries.filter (·.id != e.id) } } t

/-- A completion read failed or ended bad: missing bytes are taken as they came, the drain writes UNC = 1 (11 R263, R170). -/
def completeSlot (s : State) (id : Nat) (data : Block) (bad : Bool) : State :=
  updSlot s id fun t => { t with
    data := overBlock t.data data (missing t), valid := BitVec.allOnes 512, stage := .ready, bad := t.bad || bad,
    cbData := none, grData := none }

/-- Data of some missing sectors has come from the cache: the drain is complete once all has. -/
def partSlot (s : State) (id : Nat) (data : Block) (m : BlockMask) : State :=
  updSlot s id fun t => match t.stage with
    | .cacheRead _ =>
      let v := t.valid ||| m
      { t with data := overBlock t.data data (missing t &&& m), valid := v, stage := if v = BitVec.allOnes 512 then .ready else t.stage }
    | _ => t

/-- A drain waiting for the pool issues its completion read (R168), or is completed at once while the pool is down. -/
def startCompletion (s : State) (t : Slot) : State :=
  if s.err.fPoolDown then s
  else
    askBlock (updSlot s t.id fun t => { t with stage := .poolRead, cbData := none, grData := none }) (.slot t.id) t.cb (roundClass t.cls)

/-- A drain started after the one that rewrites its codeblock waits for the conversion, as every other pool read (09 R228). -/
def afterRewrite (s : State) (t : Slot) : Bool :=
  windowBusy s t.cb && !s.wrb.entries.any (fun e => e.cb == t.cb && e.rewrite.isSome) &&
  !s.wrb.slots.any fun x => x.cb == t.cb && x.rewrite.isSome && decide (t.id < x.id)

/-- Drains that wait for earlier drains of their codeblock start their reads when they may. -/
def pumpSlots (s : State) : State :=
  (s.wrb.slots.filter fun t => t.stage == .poolWait).foldl (fun s t =>
    match getSlot s t.id with
    | some t => if t.stage = .poolWait && firstOfBlock s t && !afterRewrite s t && !portHeld s then startCompletion s t else s
    | none => s) s

/-! ### Durable release (R172, R173) -/

/-- Recorded drains have issued both writes. -/
def drainsDone (s : State) (entries slots : List Nat) : Bool :=
  entries.all (fun e => !s.wrb.entries.any (·.id == e) && !s.wrb.slots.any (fun t => t.kind == .drain && t.entry == e)) &&
  slots.all (fun i => !s.wrb.slots.any (·.id == i))

/-- The next state of a durable wait once its drains are done. -/
def durNext (s : State) (d : Dur) : Dur :=
  match d with
  | .drains es ss => if drainsDone s es ss then .needFlush else d
  | d => d

/-- Step 2 of R172: record requester `who`'s entries and slots, and mark the entries. -/
def durRecord (s : State) (who : Nat) : State × Dur :=
  let es := (s.wrb.entries.filter fun e => e.contrib.getLsbD who).map (·.id)
  let ss := (s.wrb.slots.filter fun t => t.kind == .drain && t.contrib.getLsbD who).map (·.id)
  (es.foldl (fun s id => markEntry s id .durable) s, .drains es ss)

/-! ### Watches (R178, R179) -/

/-- A write of the codeblock meets an arm. -/
def armWritten (cb : Nat) (a : Arm) : Arm := if a.cb = some cb then { a with wr := true } else a

/-- A retirement or performed ATOMIC writes codeblock `cb`. -/
def wakeWatches (s : State) (cb : Nat) : State :=
  let s := { s with wrb := { s.wrb with armWr := (List.range 8).foldl (fun m k =>
    if s.wrb.arms.getD k none == some cb then setBit m k true else m) s.wrb.armWr } }
  let s : State := { s with bus := { s.bus with reqs := s.bus.reqs.map fun (r : Req) => { r with armWas := r.armWas.map (armWritten cb) } } }
  (s.bus.reqs.filter fun r => r.phase == .watching && reqCb r == cb).foldl (fun s r =>
    respond (updReq s r.id fun r => { r with phase := .done }) r.id .watchWake [] none) s

/-- Every registered watch is answered WATCH_NOWRITER (11 R279, 15 R361): the agents woken. -/
def wakeAll (s : State) : State × BitVec 8 :=
  (s.bus.reqs.filter fun r => r.phase == .watching).foldl (fun a r =>
    (respond (updReq a.1 r.id fun r => { r with phase := .done }) r.id .watchNowriter [] none, setBit a.2 r.who true)) (s, 0)

/-! ### Locks (R176, 11 R277) -/

def lockOf (s : State) (who : Nat) : Option Nat := (s.wrb.locks.find? (·.1 == who)).map (·.2.1)

def lockedByOther (s : State) (cb who : Nat) : Bool := s.wrb.locks.any fun l => l.2.1 == cb && l.1 != who

def dropLock (s : State) (who : Nat) : State := { s with wrb := { s.wrb with locks := s.wrb.locks.filter (·.1 != who) } }

/-- A lock is broken (R277): cause 1 timeout, 2 reset sense. -/
def breakLock (s : State) (who cb cause : Nat) : State :=
  let s := dropLock s who
  let s := { s with wrb := { s.wrb with broken := s.wrb.broken.filter (·.1 != cb) ++ [(cb, who)], brk := setBit s.wrb.brk who true } }
  raiseInt (event (count s cntLockBrk) 7 5 (payload [(16, cb * 512), (22, who), (23, cause)])) srcLockBroken

/-! ### Retirement of a store (R159, 03 R71) -/

/-- The agents a broadcast write of `who` probes (R71). -/
def broadcastAgents (s : State) (who : Nat) : BitVec 8 :=
  if who < 8 then setBit (attachedAgents s) who false else attachedAgents s

/-- What a retirement that writes finds (R119). -/
inductive StoreLook where
  | broadcast
  | filtered
  | found (pos : Nat)
  | parErr (bad : BitVec 16)
  | absent
  deriving DecidableEq, Repr

def storeLook (s : State) (cb : Nat) (cacheable : Bool) : StoreLook :=
  if !lookable s cacheable cb then .broadcast
  else
    match lookup s cb 0 with
    | .parErr b => .parErr b
    | .filtered => .filtered
    | .hit w | .smiss w => .found (posOf s (setOf s cb) w)
    | .miss => .absent

/-- Holders an INV goes to: for a processor agent's store, not the writer (R71); an ATOMIC or a poisoned store probes all. -/
def storeHolders (s : State) (pos who : Nat) (all : Bool) : BitVec 8 :=
  let p := (tagAt s pos).pres
  if who < 8 && !all then setBit p who false else p

/-- The probe queue entries the retirement needs are free (R158 condition 4), and places for its accesses (13 R322). A poisoned store invalidates the line it finds, and
probes every holder. -/
def storeRoom (s : State) (r : Req) (all poison : Bool) : Bool :=
  match storeLook s (reqCb r) (reqCacheable r) with
  | .broadcast => probeRoom s (if all then attachedAgents s else broadcastAgents s r.who)
  | .filtered => filteredRoom s (reqCb r)
  | .found p =>
    if poison then invalRoom s p
    else probeRoom s (storeHolders s p r.who all) && accRoomFor s r.counted (sectorRuns (storeSectors s p (reqMask r))).length
  | _ => true

/-- Effects of a write that retires (the presence bits of an unresponsive holder, to which no probe is queued, stay: 03 R86), on the cached copy, the probes, the entry and the watches (R159). `all`: the issuer is
probed too (ATOMIC); `poison`: the store entry failed parity (10 R256). -/
def writeThrough (s : State) (r : Req) (data : Block) (mask : BlockMask) (all poison : Bool) : State :=
  let cb := reqCb r
  let f : ProbeFor := { who := some (r.who, r.id), atomic := if all then some r.id else none }
  let s : State := (match storeLook s cb (reqCacheable r) with
    | .broadcast => queueProbe s (.inv cb) (if all then attachedAgents s else broadcastAgents s r.who) f
    | .filtered => dropFiltered s cb f
    | .found p =>
      if poison then invalPos s p f
      else
        let h := storeHolders s p r.who all
        let s := queueProbe s (.inv cb) h f
        storeHit (clearPres s p (h &&& ~~~s.prb.unresp)) p data mask r.counted r.cls
    | .parErr bad => tagParity s (setOf s cb) bad
    | .absent => s)
  let (s, e) := entryFor s r
  let s := mergeInto s e data mask r.who poison
  wakeWatches s cb

end Sys2Proof.Machine
end

