-- ==== Sys2Proof/Machine/Registers.lean ====
section
/-! DEFINITION. What a register read returns (16 R383, R384): the stored value, or the fields of the owning chapter composed from the
block's state. WO fields, reserved fields and empty offsets read 0. -/

namespace Sys2Proof.Machine

/-- A word from (lowest bit, value) pairs; the fields do not overlap. -/
def word (l : List (Nat × Nat)) : Reg32 := BitVec.ofNat 32 (l.foldl (fun a f => a ||| (f.2 <<< f.1)) 0)

def flag (b : Bool) : Nat := if b then 1 else 0

/-! ### Status words, one per RSQ or RO register -/

/-- An INVALIDATE_ALL is in progress (05, INV_RUN). -/
def invRun (s : State) : Bool := s.eng.rings.any fun r => match r.run with | some x => x.opcode == 1 && !x.final | none => false

/-- CCH_STATUS (05 R122). -/
def cchStatus (s : State) : Reg32 :=
  word [(24, s.cch.enSeq.toNat), (16, s.cch.enFail.toNat), (3, flag (invRun s)), (2, flag s.cch.bypass),
    (1, flag s.cch.invDone), (0, flag s.cch.enabled)]

/-- CCH_MH_STATUS (06 R137). -/
def mhStatus (s : State) : Reg32 :=
  word [(16, (freeShared s).length), (8, (freeReserved s).length), (0, (s.cch.handlers.filter (·.kind == .prefetch)).length)]

/-- WRB_STATUS (07 R181). -/
def wrbStatus (s : State) : Reg32 :=
  word [(24, mergeFree s), (16, ntFree s), (8, slotsUsed s),
    (0, ((s.bus.reqs.filter (·.phase == .watching)).foldl (fun m r => setBit m r.who true) (0 : BitVec 8)).toNat)]

/-- QTK_STATUS (08 R189). -/
def qtkStatus (s : State) : Reg32 :=
  word [(24, s.qtk.seq.toNat), (4, flag s.qtk.early), (3, flag s.qtk.loss), (2, flag s.qtk.syncOk),
    (1, flag (s.qtk.syncIn && s.qtk.syncOut)), (0, flag s.qtk.syncIn)]

/-- A command runs on the ring. -/
def ringBusy (r : Ring) : Bool := r.run.isSome

/-- CMD_STATUS (09). -/
def cmdStatus (s : State) : Reg32 :=
  let bitsIf (p : Ring → Bool) : Nat := ((s.eng.rings.take 4).foldr (fun r a => 2 * a + flag (p r)) 0)
  word [(24, s.eng.seq.toNat), (10, flag s.eng.cfgErr), (9, flag s.eng.eqErr), (8, flag s.eng.cqErr),
    (4, bitsIf ringBusy), (0, bitsIf (·.halt))]

/-- CMD_RSW (09 R229). -/
def cmdRsw (s : State) : Reg32 :=
  match s.eng.window with
  | none => 0
  | some w => word [(31, 1), (16, w.region), (8, w.new.toNat), (0, w.old.toNat)]

/-- ERR_SCREE_CTRL (11 R274). -/
def screeCtrl (s : State) : Reg32 :=
  word [(30, flag (screeStale s)), (20, s.err.screeSize.toNat), (16, s.err.screeWays.toNat), (0, s.err.scree.length)]

/-- ERR_SCREE_DATA: the entry that ERR_SCREE_IDX selects. -/
def screeData (s : State) : Reg32 :=
  match s.err.scree[fld (reg s rScreeIdx) 9 0]? with
  | some p => word [(31, 1), (0, p)]
  | none => 0

/-- A DMA channel has a tag outstanding (11 R266). -/
def dmaOutst (s : State) (i : Nat) : Bool := [0, 1, 2, 3].any fun t => tagBusy s (8 + i) (BitVec.ofNat 2 t)

/-- ERR_DMA (11 R266). -/
def errDma (s : State) : Reg32 :=
  word [(4, (List.range 4).foldl (fun m i => m + (flag (dmaOutst s i) <<< i)) 0), (0, s.err.dmaHalt.toNat)]

/-- ERR_FAULT (11 R284). -/
def errFault (s : State) : Reg32 :=
  word [(3, flag s.err.fScree), (2, flag s.err.fCsloss), (1, flag s.err.fPoolDown), (0, flag s.err.fBypass)]

/-- MEM_LINK_STATUS (12 R309). -/
def linkStatus (s : State) : Reg32 :=
  word [(12, (s.mem.reads.filter (·.quar)).length % 256), (10, flag s.mem.dlUp), (8, s.mem.pstate.toNat), (4, s.mem.width.toNat),
    (0, s.mem.speed.toNat)]

/-- CSP_STATUS (13 R319). -/
def cspStatus (s : State) : Reg32 :=
  word [(24, s.csp.seq.toNat), (16, s.csp.errCode.toNat), (4, s.csp.step.toNat), (3, flag s.csp.fromVault), (2, flag s.csp.busy),
    (1, flag s.csp.sref), (0, flag s.csp.ready)]

/-- CLK_STATUS (14). -/
def clkStatus (s : State) : Reg32 :=
  word [(24, s.clk.seq.toNat), (9, flag s.clk.refsw), (8, flag s.csp.ddrLock), (7, flag s.clk.lossEv), (6, flag s.clk.faultEv),
    (5, flag s.clk.warnEv), (4, flag s.clk.lol), (3, flag s.clk.fault), (2, flag s.clk.relocking), (1, flag s.clk.lock),
    (0, flag s.clk.xoOk)]

/-- Blocks whose gating condition holds with AUTO set (14 R345). Decoding takes no time in this model, so BCH correction
units 4 to 7 never hold a codeblock. -/
def gated (s : State) : Bool :=
  let auto := reg s rGate
  (auto.getLsbD 0 && !portEn s .A) || (auto.getLsbD 1 && !portEn s .B) ||
  (auto.getLsbD 2 && !s.eng.en && !s.eng.rings.any ringBusy) ||
  (auto.getLsbD 3 && (!pfEn s || !s.cch.enabled)) || auto.getLsbD 4 ||
  (auto.getLsbD 5 && (s.csp.sref || (!s.csp.ready && !s.csp.busy)))

/-- STATE of PWR_STATUS (15 R354, R379). -/
def stateCode (s : State) : Nat :=
  match s.pwr.st with
  | .run => if s.pwr.phase == .on && gated s then 1 else 0
  | .entering => 2 | .waking => 3 | .preparing => 4 | .offrdy => 5

def pwrStatus (s : State) : Reg32 :=
  word [(24, s.pwr.seq.toNat), (20, s.pwr.failRsn.toNat), (8, s.pwr.hbFail.toNat), (5, flag s.pwr.fullRdy),
    (4, flag s.pwr.c0Rdy), (0, stateCode s)]

def vltStatus (s : State) : Reg32 :=
  word [(24, s.vlt.bad.toNat), (16, s.vlt.valid.toNat), (11, flag s.vlt.none), (8, s.vlt.newest.toNat)]

def cfgStatus (s : State) : Reg32 :=
  let c := s.cfg
  word [(24, c.seq.toNat), (19, flag c.dropPhy), (18, flag c.dropBr), (17, flag c.keyBad), (16, flag c.refused),
    (12, c.unlocked.getD 0), (11, flag c.unlocked.isSome), (5, flag s.pwr.busyPhy), (4, flag s.pwr.busyBr), (3, flag c.lastOk),
    (2, flag c.pass), (1, flag c.window), (0, flag c.armed)]

def mbistRes (s : State) : Reg32 :=
  word [(31, flag s.tst.busy), (30, flag s.tst.done), (28, s.tst.rsn.toNat), (16, s.tst.fail.toNat), (0, s.tst.tested.toNat)]

def sqState (r : Ring) : Reg32 := word [(16, r.acc), (0, r.head)]

/-! ### Counters (16 R385, R393) -/

/-- Offset ranges of the counters (17 R406). -/
def isCounter (off : Nat) : Bool :=
  [(0x0800, 6), (0x1800, 8), (0x2800, 10), (0x3800, 5), (0x4800, 5), (0x6800, 9), (0x7800, 10), (0x8800, 6), (0x9800, 5),
   (0xA800, 3), (0xD800, 2)].any fun r => decide (r.1 ≤ off ∧ off < r.1 + 8 * r.2)

/-- The half of a counter's holding copy at an offset. -/
def counterWord (s : State) (off : Nat) : Reg32 :=
  let c := off - off % 8
  (held s c).extractLsb' (if off % 8 = 4 then 32 else 0) 32

/-! ### The window -/

/-- Registers that are not stored, at their offsets. -/
def composed (s : State) (off : Nat) : Option Reg32 :=
  let ring (i : Nat) : Ring := s.eng.rings.getD i Ring.reset
  match off with
  | 0x0010 => some s.bus.portA.vlog0
  | 0x0014 => some s.bus.portA.vlog1
  | 0x0018 => some (s.bus.portA.vcode.setWidth 32)
  | 0x0020 => some s.bus.portB.vlog0
  | 0x0024 => some s.bus.portB.vlog1
  | 0x0028 => some (s.bus.portB.vcode.setWidth 32)
  | 0x1004 => some (word [(24, s.prb.seq.toNat), (8, s.prb.toev.toNat), (0, s.prb.unresp.toNat)])
  | 0x1010 => some s.bus.portA.plog
  | 0x1014 => some s.bus.portB.plog
  | 0x2104 => some (word [(0, flag s.cch.enabled)])
  | 0x2108 => some (cchStatus s)
  | 0x210C => some (mhStatus s)
  | 0x2120 => some s.cch.dlog0
  | 0x2124 => some s.cch.dlog1
  | 0x3004 => some (wrbStatus s)
  | 0x4004 => some (qtkStatus s)
  | 0x5100 => some (word [(0, flag s.eng.en)])
  | 0x5108 => some (cmdStatus s)
  | 0x510C => some (cmdRsw s)
  | 0x5120 => some (sqState (ring 0))
  | 0x5124 => some (sqState (ring 1))
  | 0x5128 => some (sqState (ring 2))
  | 0x512C => some (sqState (ring 3))
  | 0x5130 => some (word [(0, s.eng.cqHead)])
  | 0x5134 => some (word [(0, s.eng.cqTail)])
  | 0x5138 => some (word [(0, s.eng.eqHead)])
  | 0x513C => some (word [(0, s.eng.eqTail)])
  | 0x5140 => some s.eng.eqLost
  | 0x5200 => some (ring 0).prog
  | 0x5204 => some ((ring 0).next.extractLsb' 0 32)
  | 0x5208 => some ((ring 0).next.extractLsb' 32 16 |>.setWidth 32)
  | 0x5210 => some (ring 1).prog
  | 0x5214 => some ((ring 1).next.extractLsb' 0 32)
  | 0x5218 => some ((ring 1).next.extractLsb' 32 16 |>.setWidth 32)
  | 0x5220 => some (ring 2).prog
  | 0x5224 => some ((ring 2).next.extractLsb' 0 32)
  | 0x5228 => some ((ring 2).next.extractLsb' 32 16 |>.setWidth 32)
  | 0x5230 => some (ring 3).prog
  | 0x5234 => some ((ring 3).next.extractLsb' 0 32)
  | 0x5238 => some ((ring 3).next.extractLsb' 32 16 |>.setWidth 32)
  | 0x6010 => some s.icb.log0
  | 0x6014 => some s.icb.log1
  | 0x6018 => some s.icb.log2
  | _ => none

/-- The rest of them. -/
def composed2 (s : State) (off : Nat) : Option Reg32 :=
  let lvl (i : Nat) : Reg32 := BitVec.ofNat 32 (s.err.buckets.getD i Bucket.reset).level
  match off with
  | 0x7000 => some (word [(24, s.err.intSeq.toNat), (0, s.err.intStatus.toNat)])
  | 0x7008 => some (errFault s)
  | 0x700C => some (errDma s)
  | 0x7010 => some s.err.bypLog
  | 0x7014 => some (word [(24, s.err.bktSeq.toNat), (0, s.err.ovf.toNat)])
  | 0x7040 => some (lvl 0)
  | 0x7044 => some (lvl 1)
  | 0x7048 => some (lvl 2)
  | 0x704C => some (lvl 3)
  | 0x7050 => some (lvl 4)
  | 0x7054 => some (lvl 5)
  | 0x7070 => some (screeCtrl s)
  | 0x7078 => some (screeData s)
  | 0x8018 => some (linkStatus s)
  | 0x802C => some (word [(8, flag s.mem.cfgBusy), (0, s.mem.cfgCpls.toNat)])
  | 0x8040 => some (word [(24, s.mem.corSeq.toNat), (0, s.mem.aerCor.toNat)])
  | 0x8044 => some (word [(24, s.mem.uncSeq.toNat), (8, flag s.mem.bridgeInt), (0, s.mem.aerUnc.toNat)])
  | 0x8050 => some (word [(24, s.mem.vSeq.toNat), (0, s.mem.vCode.toNat)])
  | 0x8054 => some (s.mem.vHdr.getD 0 0)
  | 0x8058 => some (s.mem.vHdr.getD 1 0)
  | 0x805C => some (s.mem.vHdr.getD 2 0)
  | 0x8060 => some (s.mem.vHdr.getD 3 0)
  | 0x9014 => some (cspStatus s)
  | 0xA008 => some (clkStatus s)
  | 0xA014 => some (word [(24, s.clk.monUpd.toNat), (0, s.clk.monD.toNat)])
  | 0xA018 => some (word [(31, flag s.clk.measValid), (0, s.clk.measCount.toNat)])
  | 0xB00C => some (pwrStatus s)
  | 0xC000 => some (vltStatus s)
  | 0xC004 => some s.vlt.sseq
  | 0xD004 => some s.cfg.keyLog
  | 0xD008 => some (cfgStatus s)
  | 0xD00C => some (s.cfg.snapSeq.setWidth 32)
  | 0xD014 => some s.cfg.crcLast
  | 0xE00C => some (mbistRes s)
  | _ => none

/-- Target of an alias slot (17 R407). -/
def aliasTarget (slot : Nat) : Option Nat :=
  match slot with
  | 0 => some rIntEn | 1 => some rPf | 2 => some rGate | 3 => some rMon | 4 => some rDlkCfg | _ => none

/-- A register of the window at a 4-byte-aligned offset below 0xF000. -/
def regRead0 (s : State) (off : Nat) : Reg32 :=
  match composed s off with
  | some v => v
  | none =>
    match composed2 s off with
    | some v => v
    | none => if isCounter off then counterWord s off else if (storedRow off).isSome then reg s off else 0

/-- Any word of the window; an alias word shows its bit in bit 0 (16 R392). -/
def regRead (s : State) (off : Nat) : Reg32 :=
  if off < 0xF000 then regRead0 s off
  else
    match aliasTarget ((off - 0xF000) / 128) with
    | some t => if (reg s t).getLsbD ((off - 0xF000) / 4 % 32) then 1 else 0
    | none => 0

/-- The member whose parity a read of this word checks (16 R384, R398). -/
def parityOf (off : Nat) : Option Nat :=
  if off < 0xF000 then (if isMember off then some off else none)
  else (aliasTarget ((off - 0xF000) / 128)).filter isMember

def useWord (s : State) (off : Nat) : State := match parityOf off with | some o => useReg s o | none => s

/-- The 8-byte beat of a register READ (16 R383): the registers at its two offsets. -/
def beatRead (s : State) (off : Nat) : Beat64 :=
  (regRead s (off + 4)).append (regRead s off)

/-- The effect of a register READ: parity of the members it covers is checked (16 R384, 11 R280). -/
def beatUse (s : State) (off : Nat) : State := useWord (useWord s off) (off + 4)

end Sys2Proof.Machine
end

