-- ==== Sys2Proof/Machine/EngineOps.lean ====
section
/-! DEFINITION. The command engine's shared parts (09): rings, units in flight, completion entries, the checks at a command's start
(R217), the end of a command (R219, R221, R222), and what the engine does whenever it may: start a command that FENCE held, begin a
unit's pool read, end a conversion, end a command. -/

namespace Sys2Proof.Machine

/-! ### Running commands -/

/-- Commands that use the work buffer, or the tag walker (R218, R225). -/
def usesBuffer (op : Nat) : Bool := [2, 6, 7, 8, 9, 10].contains op
def usesWalker (op : Nat) : Bool := [1, 5, 10].contains op

/-- The lowest unit not yet done (R231); a unit that the command stopped at is not done either. -/
def lowestUnit (s : State) (n : Nat) (x : Running) : Nat :=
  (inFlight s n).foldl min (match x.stop with | some (_, u) => min u x.issued | none => x.issued)

/-- The lowest part of the revocation page that has not arrived. -/
def pageNext (s : State) : Nat := match s.eng.epoch with | some e => (e.page.findIdx? Option.isNone).getD 8 | none => 8

/-- NEXT (R231): an agent address, a tag entry index or a byte offset; for REGION_DROP, whose units are walks, the pool address at
the same fraction of its range (log entry 12). -/
def nextOf (s : State) (n : Nat) (x : Running) : Nat :=
  match x.opcode with
  | 0 => 0
  | 1 => 64 * x.doneN
  | 5 => x.addr + x.len * x.doneN / 32768 / 512 * 512
  | 8 => 256 * x.doneN
  | 9 => 256 * x.doneN
  | 10 => if x.total > 8 then 64 * (x.doneN - 8) else 512 * pageNext s
  | _ => x.addr + 512 * lowestUnit s n x

/-- PCT while a command runs: 1,024 only in DONE (R231). -/
def pctOf (x : Running) : Nat := if x.total = 0 then 0 else min 1023 (1024 * x.doneN / x.total)

/-! ### Completion entries (R235) -/

def blankEntry (s : State) (typ ring : Nat) : CEntry :=
  { typ := typ, ring := ring, opcode := 0, status := 0, cmdId := 0, accTail := 0, pct := 0, next := 0, count0 := 0, count1 := 0,
    errAddr := 0, tick := tickCnt s, final := false, irq := false, durable := false }

/-- Queue an entry; those of the 8140's own WAKE_EPOCH wait for EN, or are discarded while ring 4 is absent (15 R368). -/
def queueEntry (s : State) (e : CEntry) : State :=
  if e.ring = 4 && !s.eng.en then
    (if ringSize s 4 = 0 then s else { s with eng := { s.eng with held := s.eng.held ++ [e] } })
  else { s with eng := { s.eng with cents := s.eng.cents ++ [e] } }

/-- A PROGRESS, DONE or ERROR entry of a running command. -/
def runEntry (s : State) (n : Nat) (x : Running) (typ status pct : Nat) : CEntry :=
  { blankEntry s typ n with
    opcode := x.opcode, status := status, cmdId := x.cmdId, pct := pct, next := BitVec.ofNat 64 (nextOf s n x),
    count0 := x.count0, count1 := x.count1, errAddr := BitVec.ofNat 64 (x.errAddr.getD 0) }

/-- A ring halts with an ERROR entry and a RING_HALT event (R211, R221). -/
def haltRing (s : State) (n status : Nat) : State :=
  let s := updRing s n fun r => { r with halt := true }
  let s := queueEntry s { blankEntry s 4 n with status := status, irq := true }
  event s 0 1 (payload [(16, n), (17, status)])

/-- Descriptors that ring `n` was ever given: those its head has moved past, and those up to its pending tail while that is valid, else
up to its accepted tail (R209, R211). -/
def rungNo (s : State) (n : Nat) : Nat :=
  let r := getRing s n
  let z := ringSize s n
  let k := (r.acc + z - r.head) % z
  let m := (r.pend + z - r.head) % z
  r.num + if r.pend < z ∧ k ≤ m then m else k

/-- The DONE entry of ring `n`'s REGION_DROP `x` is written: step 2 of 01 R31 is met for each region whose old pool range it covers
and whose EN was cleared before it was submitted. -/
def dropStale (s : State) (n : Nat) (x : Running) : State :=
  let met (e : Stale) : Bool := decide (x.addr ≤ e.first ∧ e.stop ≤ x.addr + x.len ∧ e.rung.getD n 0 ≤ x.num)
  if x.opcode = 5 && x.good then { s with cfg := { s.cfg with stale := s.cfg.stale.filter fun e => !met e } } else s

/-- The final entry of ring `n`'s command is queued (R219). -/
def finishRun (s : State) (n : Nat) (x : Running) (status : Nat) : State :=
  let e := runEntry s n x (if status = 0 then 3 else 4) status (if status = 0 then 1024 else pctOf x)
  let s := queueEntry s { e with final := true, irq := x.irq || status ≠ 0, durable := x.opcode == 6 || (x.opcode == 7 && x.repair) }
  let s := if n = 4 then updRing s 4 fun r => { r with run := none } else updRun s n fun x => { x with final := true, good := status == 0 }
  match s.eng.epoch with
  | some p => if p.ring = n then { s with eng := { s.eng with epoch := none }, cch := { s.cch with filter := [], walked := 0 } } else s
  | none => s

/-- A command stops at a unit (R221); the lowest such unit is kept, and an abort stands (R222). -/
def stopRun (s : State) (n status unit : Nat) : State :=
  updRun s n fun x =>
    let st := match x.stop with
      | none => (status, unit)
      | some (a, u) => (if a = 8 || status = 8 then 8 else if unit < u then status else a, min u unit)
    { x with stop := some st }

/-- A unit's effects are performed. -/
def unitDone (s : State) (n : Nat) : State := updRun s n fun x => { x with doneN := x.doneN + 1, stuckQt := 0 }

def addCount0 (s : State) (n k : Nat) : State := updRun s n fun x => { x with count0 := x.count0 + BitVec.ofNat 64 k }
def addCount1 (s : State) (n k : Nat) : State := updRun s n fun x => { x with count1 := x.count1 + BitVec.ofNat 64 k }

/-- ERRADDR: the first uncorrectable codeblock (R235). -/
def noteErr (s : State) (n unit : Nat) : State :=
  updRun s n fun x =>
    let a := x.addr + 512 * unit
    { x with errAddr := some (min a (x.errAddr.getD a)) }

/-! ### The engine's own accesses decode as a request of requester 12 (R20, R221) -/

def engDecode (s : State) (c : ReqCmd) (a : Nat) : Option (Nat × Reg32 × Nat) :=
  if a ≥ 2 ^ 48 then none
  else match decodeReq s 12 c .none (BitVec.ofNat 48 a) 7 (BitVec.allOnes 64) with
    | .region n attr p => if attrDevice attr then none else some (n, attr, p)
    | _ => none

/-- A request of class 0 is counted while the budget and INFLIGHT allow (08 R193). -/
def countable (s : State) : Bool := decide (0 < s.qtk.budget ∧ inFlight0 s < s.qtk.inflight)

/-- Admission of a request of effective class `cls`: whether it is counted, its class, and the budget left (08 R193). -/
def admitClass (s : State) (cls : Nat) : State × Bool × Nat :=
  if cls ≠ 0 then (s, false, cls)
  else if countable s then (count { s with qtk := { s.qtk with budget := s.qtk.budget - 1 } } cntC0, true, 0)
  else (count s cntDemote, false, 1)

/-- Class of an access made for ring `n`, in a region of these attributes (01 R16, R18; R204). -/
def engClass (n : Nat) (attr : Reg32) : Nat := max (if n ≤ 3 then n else 1) (attrClass attr)

/-- Class in which a command unit goes on: 0 only when it was counted (08 R193). -/
def unitClass (n : Nat) (attr : Reg32) (counted : Bool) : Nat := if counted then 0 else max 1 (engClass n attr)

/-- Unit `u` of ring `n`'s command is admitted, once: a unit of class 0 as one request (08 R193). -/
def admitUnit (s : State) (n u : Nat) (attr : Reg32) : State × Bool :=
  match getRun s n with
  | none => (s, false)
  | some x =>
    if u < x.admitted then (s, x.c0.contains u)
    else if engClass n attr ≠ 0 then (s, false)
    else
      let (s, c, _) := admitClass s 0
      let live := x.c0.filter (inFlight s n).contains
      (updRun s n fun x => { x with admitted := u + 1, c0 := if c then live ++ [u] else live }, c)

/-- A broken lock's record on the codeblock has been told to a requester (11 R278). -/
def clearRecord (s : State) (cb : Nat) : State := { s with wrb := { s.wrb with broken := s.wrb.broken.filter (·.1 != cb) } }

/-- The engine issues one 64-byte access: its request, and its number (R207). An access that a broken lock's record answers has no effect
but to clear it, and is issued again at once (11 R278; log entry 31, DESIGN CHOICE). -/
def engAccess (s : State) (n : Nat) (c : ReqCmd) (mark : Mark) (a : Nat) (data : Sector) (t : Nat × Reg32 × Nat) : State × Nat :=
  let s := clearRecord s (cbOf t.2.2)
  let (s, counted, cls) := admitClass s (engClass n t.2.1)
  let id := s.bus.nextReq
  let w := !isRead c
  let r : Req :=
    { id := id, who := 12, tag := 0, cmd := c, mark := mark, cls := cls, counted := counted, addr := BitVec.ofNat 48 a,
      pool := t.2.2, op := 0, len := 7, mask := BitVec.allOnes 64, data := data, cmp := 0, target := .region t.1 t.2.1, fwdMask := 0,
      fwdData := 0, phase := if w then .queue else .order, queued := w, answered := false, looked := false, miss := false, dur := .idle,
      own := .idle, result := 0, fail := 0 }
  (addReq { s with bus := { s.bus with nextReq := id + 1 } } r, id)

/-! ### Start of a command (R217) -/

/-- A descriptor's fields (R224). -/
def descRun (d : BitVec 512) : Running :=
  { opcode := fld d 7 0, irq := d.getLsbD 8, fence := d.getLsbD 9, wmask := d.getLsbD 10, repair := d.getLsbD 11,
    cmdId := d.extractLsb' 32 32, addr := fld d 127 64, len := fld d 191 128, ways := d.extractLsb' 192 16,
    param := d.extractLsb' 208 8, region := 0, attr := 0, pool := 0, total := 0, issued := 0, doneN := 0, waiting := [], count0 := 0,
    count1 := 0, errAddr := none, stop := none, stuckQt := 0, progQt := 0, progDone := 0, keyed := false, redo := [], user := 0,
    src := 0, req := none, got := [], image := none, skip := false, final := false, good := false, begun := false,
    num := 0 }

/-- FLAGS an opcode allows (R225). -/
def flagsAllowed (op : Nat) : Nat := if op = 2 then 7 else if op = 7 then 0xB else 3

/-- Check 2: reserved bytes, flags and fields the opcode does not use (R225; 15 R375, R376). -/
def fieldsOk (s : State) (d : BitVec 512) (x : Running) : Bool :=
  let f := fld d 15 8
  let p := x.param.toNat
  fld d 31 16 == 0 && fld d 511 216 == 0 && f - (f &&& flagsAllowed x.opcode) == 0 &&
  (!([0, 1, 10].contains x.opcode) || (x.addr == 0 && x.len == 0)) &&
  ([3, 4].contains x.opcode || (x.opcode == 2 && x.wmask) || x.ways == 0) &&
  (match x.opcode with
   | 6 => true
   | 8 => decide (p < 16 ∧ p ≠ 0) && (!x.param.getLsbD 0 || s.csp.ready)
   | 9 => decide (p < 16 ∧ p ≠ 0 ∧ p % 4 = 0) && (!x.param.getLsbD 2 || !s.cch.enabled)
   | _ => p == 0)

/-- Check 3: alignment, length, way mask and strength code (R225; 15 R375). -/
def rangeOk (s : State) (x : Running) : Bool :=
  let ranged := decide (x.addr < 2 ^ (if x.opcode = 5 then 44 else 48)) && x.addr % 512 == 0 && x.len % 512 == 0 && x.len != 0
  let waysOk := x.ways != 0 && decide (x.ways.toNat < 2 ^ ways s)
  match x.opcode with
  | 2 => ranged && (!x.wmask || waysOk)
  | 3 => ranged && waysOk
  | 4 => ranged && waysOk
  | 5 => ranged
  | 6 => ranged && decide (x.param.toNat ≤ 5)
  | 7 => ranged
  | 8 | 9 =>
    decide (x.addr < 2 ^ 48) && x.addr % 512 == 0 && x.len % 256 == 0 && decide (x.len ≤ 3072) &&
    (if x.param.getLsbD 3 then x.len != 0 else x.len == 0 && x.addr == 0)
  | _ => true

/-- The one enabled NORMAL region that a whole agent range decodes to, with its attributes and the pool address of the first
byte (R217 check 4, 01 R28). -/
def agentRange (s : State) (a len : Nat) : Option (Nat × Reg32 × Nat) :=
  match rgnOf s a with
  | none => none
  | some n =>
    let attr := rgnAttr s n
    let last := a + len - 1
    let meets (b e : Nat) : Bool := decide (b ≤ last ∧ a ≤ e)
    if attrDevice attr || (strengthT (attrStr attr)).isNone || decide (last > rgnLimit s n + 0xFFFF) ||
       decide (poolOf s n last ≥ dataEnd s) || meets (windowBase s) (windowBase s + 0xFFFF) ||
       ((List.range n).any fun m => attrEn (rgnAttr s m) && decide (rgnBase s m ≤ rgnLimit s m + 0xFFFF) &&
          meets (rgnBase s m) (rgnLimit s m + 0xFFFF)) then none
    else some (n, attr, poolOf s n a)

/-- The checks of R217 in order: a status, or the command with what its range decoded to. -/
def startChecks (s : State) (d : BitVec 512) : Nat × Running :=
  let x := descRun d
  if x.opcode > 10 then (1, x)
  else if !fieldsOk s d x then (2, x)
  else if !rangeOk s x then (3, x)
  else if [2, 3, 4, 6, 7].contains x.opcode || ([8, 9].contains x.opcode && x.len != 0) then
    match agentRange s x.addr x.len with
    | none => (4, x)
    | some (n, attr, p) =>
      let x := { x with region := n, attr := attr, pool := p }
      if x.opcode = 6 && (x.addr != rgnBase s n || x.addr + x.len != rgnLimit s n + 0x10000) then (4, x)
      else if x.opcode = 6 && s.eng.window.isSome then (5, x)
      else (0, x)
  else if x.opcode = 5 && decide (x.addr + x.len > dataEnd s) then (4, x)
  else (0, x)

/-- Units of a command (R225, 15 R367, R375). -/
def unitsOf (x : Running) : Nat :=
  match x.opcode with
  | 0 => 0 | 1 => 32768 | 5 => 32768 | 8 => 32 | 9 => 1 | 10 => 8 | _ => x.len / 512

/-- RESTRENGTH opens the window at its start (R227). -/
def openWindow (s : State) (x : Running) : State :=
  let (a, b) := poolRange s x.region
  let w : Window := { region := x.region, old := attrStr x.attr, new := x.param.setWidth 3, first := a / 512,
                      cbs := (b - a) / 512, converted := [], busy := [] }
  { s with eng := { s.eng with window := some w } }

def newEpoch (n : Nat) : Epoch :=
  { ring := n, started := false, page := List.replicate 8 none, failed := false, decided := none, epochV := 0, units := 0 }

/-- The command of a descriptor starts (R217): an ERROR entry at the first check that fails, else it runs. On the class-0 ring,
REGION_DROP's range check is admitted as one request (08 R193). -/
def startCommand (s : State) (n : Nat) (d : BitVec 512) : State :=
  let (st, x) := startChecks s d
  let x := { x with total := unitsOf x, num := (getRing s n).num - 1 }
  let s := updRing s n fun r => { r with held := none, run := some x }
  let s := if x.opcode = 5 && n = 0 then (admitClass s 0).1 else s
  if st ≠ 0 then finishRun s n x st
  else
    let s := if x.opcode = 6 then openWindow s x else s
    if x.opcode = 10 then { s with eng := { s.eng with epoch := some (newEpoch n) } } else s

/-- The engine accepts and starts commands: not while Sleep or Off entry runs (15 R361), and in a wake from class-0-ready (15 R365). -/
def engineOpen (s : State) : Bool := s.pwr.c0Rdy && !s.tst.busy && (s.pwr.st == .run || s.pwr.st == .waking)

/-- Commands and descriptor reads may start (R211). -/
def mayStart (s : State) : Bool := s.eng.starts && engineOpen s

/-- Every command accepted before ring `n`'s on any ring has written its final entry (R216). -/
def fenceMet (s : State) (n : Nat) (stamp : BitVec 64) : Bool :=
  let before (t : BitVec 64) (m : Nat) : Bool := decide (t < stamp) || (t == stamp && decide (m < n))
  (List.range 4).all fun m =>
    m == n ||
    (let r := getRing s m
     !((r.run.isSome || r.held.isSome) && before r.stamp m) && !(match r.stamps.head? with | some t => before t m | none => false))

/-- A descriptor that waits starts once FENCE and a running WAKE_EPOCH allow (R216, R226). -/
def startHeld (s : State) (n : Nat) : State :=
  let r := getRing s n
  match r.held with
  | none => s
  | some d =>
    let x := descRun d
    if mayStart s && r.run.isNone && (!x.fence || fenceMet s n r.stamp) && !(x.opcode == 10 && s.eng.epoch.isSome) then
      startCommand s n d
    else s

/-! ### The work buffer and the tag walker (R218) -/

/-- Ring `n` may issue a unit: it holds the resource and units of other holders have completed. -/
def holds (s : State) (n : Nat) (walk : Bool) : Bool :=
  if walk then s.eng.walker == some n
  else s.eng.buffer == some n && (List.range 5).all fun m => m == n ||
    (match getRun s m with | some x => !usesBuffer x.opcode || x.final || ((inFlight s m).isEmpty && x.req.isNone) | none => true)

/-- The command of opcode `op` on ring `n` may issue its next unit. -/
def unitDue (s : State) (n op : Nat) : Option Running :=
  match getRun s n with
  | some x => if x.opcode = op && !x.final && x.stop.isNone then some x else none
  | none => none

/-! ### Units of RESTRENGTH and VERIFY (R228, R230) -/

/-- Handlers that ring `n`'s command holds, or waits for (R220). -/
def unitHandlers (s : State) (n : Nat) : Nat :=
  (s.cch.handlers.filter fun h => match h.kind with
    | .preload r _ | .unit r _ | .page r _ => r == n
    | .sectorMiss => h.who == 12 && h.units.any (·.1 == n)
    | _ => false).length + (unitWaits s n).length

/-- Unit `u` waits outside the lookup pipeline: for a handler (06 R134, R156), or for a fill in flight. -/
def unitWait (s : State) (n u : Nat) (attr : Reg32) (cb : Nat) (handler again : Bool) : State :=
  updRun (if handler then count s cntMhWait else s) n fun x => { x with
    waiting := x.waiting ++ [{ unit := u, attr := attr, cb := cb, age := if handler then some (2 * s.bus.nextReq) else none, again := again }] }

/-- It waits no more. -/
def unitGo (s : State) (n u : Nat) : State := updRun s n fun x => { x with waiting := x.waiting.filter (·.unit != u) }

/-- A unit takes a handler, the one given to it or one left by the operations that wait (06 R133, R134), or waits for one; none when the
command holds as many as it may (R220). -/
def withUnit (s : State) (n u : Nat) (attr : Reg32) (cb : Nat) (counted again : Bool) (held : Option Nat) (go : State → Nat → State) :
    Option State :=
  match held with
  | some i => some (go s i)
  | none =>
    if unitHandlers s n ≥ mhMax s then none
    else match pickHandler s counted with
      | some i => some (go s i)
      | none => some (unitWait s n u attr cb true again)

/-- The pool read of a unit is issued on handler `i`, in class `cls`, 0 when it was counted. -/
def unitRead (s : State) (n u cb : Nat) (str : BitVec 3) (cls : Nat) (cacheable : Bool) (i : Nat) : State :=
  let h : Handler := { newHandler i (.unit n u) cb 12 str (cls == 0) cls [] with cacheable := cacheable }
  if s.err.fPoolDown then addHandler s { h with data := some (0, 2) } else readFor s h

/-- Step 1 of R228: the codeblock's open entry records the strength it drains at, and its fetch begins. -/
def beginRewrite (s : State) (n u cb : Nat) (str : BitVec 3) (cls : Nat) (cacheable : Bool) : State :=
  let (s, e) := allocEntry s false cb str cls cacheable
  updEntry s e fun e => holdMark { e with str := str, rewrite := some (n, u), rcls := cls, contrib := setBit e.contrib 12 true }

/-- The rewriting of a codeblock is given up: bytes that stores merged meanwhile stay, at the strength that applies without it. -/
def unitDrop (s : State) (n unit : Nat) : State :=
  match s.wrb.entries.find? fun e => e.rewrite == some (n, unit) with
  | none => s
  | some e =>
    let s := { s with eng := { s.eng with window := s.eng.window.map fun w => { w with busy := w.busy.filter (· != e.cb) } } }
    if e.valid = 0 then { s with wrb := { s.wrb with entries := s.wrb.entries.filter (·.id != e.id) } }
    else endFetch (updEntry s e.id fun e => { e with rewrite := none, str := strengthFor s e.cb e.str }) e.id

/-- The entry of a rewriting unit takes its missing bytes, and is marked for drain (R228 steps 2 and 3). -/
def rewriteFed (s : State) (e : Entry) (b : Block) (bad : Bool) : State :=
  let s := fillInvalid s e.id b (BitVec.allOnes 512)
  let s := if bad then updEntry s e.id fun e => { e with poison := true } else s
  markEntry (endFetch s e.id) e.id .other

/-- The strength the pool holds a codeblock at while it is being rewritten: OLD until it is converted (R227, R228). -/
def rewriteOld (s : State) (e : Entry) : BitVec 3 :=
  match s.eng.window with
  | some w => if w.first ≤ e.cb ∧ e.cb < w.first + w.cbs ∧ w.converted.contains e.cb = false then w.old else e.str
  | none => e.str

/-- The missing bytes of a rewritten entry come from the pool, after every earlier drain of the codeblock. -/
def rewriteRead (s : State) (e : Entry) (n u : Nat) (held : Option Nat) : State :=
  if s.wrb.slots.any (fun t => t.kind == .drain && t.cb == e.cb) then s
  else (withUnit s n u 0 e.cb (e.rcls == 0) false held fun s i => unitRead s n u e.cb (rewriteOld s e) e.rcls e.cacheable i).getD s

/-- The unit's read is under way, or it waits for a handler. -/
def rewriteReading (s : State) (n u : Nat) : Bool :=
  s.cch.handlers.any (fun h => h.kind == .unit n u) || s.csp.accs.any (fun a => a.kind == .unit n u) ||
  (match getRun s n with | some x => x.waiting.any (·.unit == u) || x.got.any (·.1 == u) | none => false)

/-- Step 2 of R228 for an entry that is being rewritten: nothing when it holds all its bytes (07 R174); from the cache when all eight
sectors are there, else from the pool. `held` is a handler it was given. -/
def feedRewrite (s : State) (e : Entry) (held : Option Nat) : State :=
  match e.rewrite with
  | none => s
  | some (n, u) =>
    if !e.fetching || rewriteReading s n u then s
    else if e.valid = BitVec.allOnes 512 then rewriteFed s e 0 false
    else if !lookable s e.cacheable e.cb then rewriteRead s e n u held
    else if clearingDue s e.cb then s
    else
      match lookup s e.cb 0xFF with
      | .parErr bad => tagParity s (setOf s e.cb) bad
      | .filtered => if filteredRoom s e.cb then rewriteRead (dropFiltered s e.cb { ring := some n }) e n u held else s
      | .hit w =>
        let p := posOf s (setOf s e.cb) w
        if secDue s p 0xFF then s
        else if !s.csp.ready then rewriteRead s e n u held
        else if accRoom s (e.rcls == 0) then addAcc s (.unit n u) p (List.range 8) 0 0 (e.rcls == 0) e.rcls
        else s
      | _ => rewriteRead s e n u held

/-- Step 3: a codeblock whose rewriting drain has issued both writes, with no read of it from before, is converted (R228). -/
def convertDone (s : State) (cb : Nat) : State :=
  match s.eng.window with
  | none => s
  | some w =>
    let open' := s.wrb.entries.any (fun e => e.cb == cb && e.rewrite.isSome) ||
      s.wrb.slots.any (fun t => t.cb == cb && t.rewrite.isSome) ||
      s.cch.handlers.any (fun h => h.cb == cb && h.kind != .device && h.data.isNone && h.asked)
    if open' then s
    else
      let cs := if w.converted.contains cb then w.converted else w.converted ++ [cb]
      let s := { s with eng := { s.eng with window := some { w with busy := w.busy.filter (· != cb), converted := cs } } }
      match (List.range 4).find? fun n => match getRun s n with | some x => x.opcode == 6 && !x.final | none => false with
      | some n => unitDone s n
      | none => s

/-! ### What the engine does whenever it may -/

/-- The final entry of ring `n`'s command is written, or lost: the ring goes on, and an aborted command's ring skips what it had
accepted (R212, R222). -/
def finalWritten (s : State) (n : Nat) : State :=
  match getRun s n with
  | none => s
  | some x =>
    let s := dropStale s n x
    let z := ringSize s n
    updRing s n fun r =>
      if x.skip then { r with run := none, num := r.num + (r.acc + z - r.head) % z, head := r.acc, stamps := [] } else { r with run := none }

/-- The write of an entry has retired: interrupts are raised, a final entry lets its ring go on (R212, R238). -/
def entryWritten (s : State) (w : EngWrite) : State :=
  let s := if w.irq then raiseInt s srcCompl else s
  let s := if w.event then raiseInt s srcEvent else s
  let s := if w.accepted then updRing s w.ring fun r => { r with dueQt := none } else s
  if w.final && w.ring < 4 then finalWritten s w.ring else s

def entriesWritten (s : State) : State :=
  let gone (w : EngWrite) : Bool := !s.bus.reqs.any (·.id == w.req)
  let done := s.eng.writes.filter gone
  done.foldl entryWritten { s with eng := { s.eng with writes := s.eng.writes.filter fun w => !gone w } }

/-- The read of part `i` of the revocation page is issued on handler `h`, as a step of ring `n` (06 R132, 12 R292). -/
def pageRead (s : State) (n i : Nat) (counted : Bool) (h : Nat) : State :=
  let a := controlBase s + 512 * i
  let cls := unitClass n 0 counted
  askRead (addHandler s { newHandler h (.page n i) (a / 512) 12 0 counted cls [] with dev := some (a, 512) }) (.handler h false) a 512
    (portClass counted cls)

def updEpoch (s : State) (f : Epoch → Epoch) : State := { s with eng := { s.eng with epoch := s.eng.epoch.map f } }

/-- The page reads that fall due and may take a handler, `k` at most, each admitted as a step of its ring (R204, 08 R193). -/
def pumpPages : Nat → State → State
  | 0, s => s
  | k + 1, s =>
    match s.eng.epoch with
    | none => s
    | some e =>
      let stopped := match getRun s e.ring with | some x => x.stop.isSome | none => true
      if !e.started || e.failed || 8 ≤ e.asked || stopped then s
      else if s.err.fPoolDown then updEpoch s fun e => { e with failed := true }
      else
        let (s', counted) := admitUnit s e.ring e.asked 0
        match withUnit s' e.ring e.asked 0 0 counted false none fun s i => pageRead s e.ring e.asked counted i with
        | some t => pumpPages k (updEpoch t fun e => { e with asked := e.asked + 1 })
        | none => s

/-- Reads of the revocation page are outstanding (15 R366). -/
def pagesOut (s : State) : Bool := s.cch.handlers.any fun h => match h.kind with | .page _ _ => true | _ => false

/-- A running command ends: stopped, with its issued units completed; or with every effect performed and every probe it queued
acknowledged (R219, R221, R222). NOP is ended by its own step. -/
def endRun (s : State) (n : Nat) : State :=
  match getRun s n with
  | none => s
  | some x =>
    if x.final || !(inFlight s n).isEmpty || x.req.isSome || (x.opcode == 10 && pagesOut s) then s
    else match x.stop with
      | some (st, _) => finishRun s n x st
      | none =>
        if x.opcode ≠ 0 && x.opcode ≠ 10 && decide (x.total ≤ x.doneN) && !s.prb.probes.any (·.ring == some n) then finishRun s n x 0
        else s

/-- Everything the engine can do without a command of its own. -/
def engineSettle (s : State) : State :=
  let s := entriesWritten s
  let s := (s.wrb.entries.filter (·.rewrite.isSome)).foldl (fun s e =>
    match s.wrb.entries.find? (·.id == e.id) with | some e => feedRewrite s e none | none => s) s
  let s := pumpPages 8 s
  let s := (match s.eng.window with | some w => w.busy | none => []).foldl convertDone s
  let s := (List.range 5).foldl endRun s
  (List.range 4).foldl startHeld s

end Sys2Proof.Machine
end

