-- ==== Sys2Proof/Machine/Requests.lean ====
section
/-! DEFINITION. When a request may be performed (04 R99, R104, R107; 07 R161, R172; 15 R365), the reads that wait, and `settle`, which
lets every waiting request go as far as it may. -/

namespace Sys2Proof.Machine

/-! ### Order -/

/-- Earlier requests of the same requester that have not left the block. -/
def earlier (s : State) (r : Req) : List Req := s.bus.reqs.filter fun q => q.who == r.who && decide (q.id < r.id)

/-- An earlier request with acquire or barrier is not performed (04 R99). -/
def acquireHeld (s : State) (r : Req) : Bool :=
  (earlier s r).any fun q => !performed q && (q.mark == .acquire || q.mark == .barrier)

def isRelease (m : Mark) : Bool :=
  match m with
  | .release | .durable | .barrier => true
  | _ => false

/-- Probes queued by earlier stores and ATOMICs of the requester are all acknowledged (03 R73). -/
def probesMet (s : State) (r : Req) : Bool :=
  !s.prb.probes.any fun x => match x.who with | some (w, i) => w == r.who && decide (i < r.id) | none => false

/-- Earlier requests are performed and their probes acknowledged (04 R99, release; R108). -/
def releaseMet (s : State) (r : Req) : Bool := (earlier s r).all performed && probesMet s r

/-- The mark's condition before the request is performed (04 R99, 07 R172). -/
def markMet (s : State) (r : Req) : Bool :=
  !acquireHeld s r && (!isRelease r.mark || releaseMet s r) && (r.mark != .durable || r.dur == .met)

/-- Between class-0-ready and full ready, requests of the ports that are not counted are held after decode (15 R365). -/
def heldFull (s : State) (r : Req) : Bool := decide (r.who < 12) && !r.counted && !s.pwr.fullRdy

/-- A read waits for the earlier operations of its own kind and for queued ATOMICs it overlaps (04 R104, R107; 07 R161). -/
def readOrderMet (s : State) (r : Req) : Bool :=
  (earlier s r).all fun q =>
    if isNormal r then !(q.cmd == .atomic && q.queued && q.pool / 64 == r.pool / 64 && (q.mask &&& coverMask r.cmd r.addr r.len) != 0)
    else if isDevice r then !(isDevice q && !performed q) && !(isWindow q && q.queued)
    else if isWindow r then !(isWindow q && !performed q) && !(isDevice q && q.queued)
    else true

/-- A DEVICE or register write waits for the earlier requests of its own kind (04 R104, R107). -/
def writeOrderMet (s : State) (r : Req) : Bool :=
  (earlier s r).all fun q => performed q || !((isDevice r && isDevice q) || (isWindow r && isWindow q))

/-- Performed, and its data will not be read again: a hit whose data is still to come may re-enter (11 R267). -/
def settled (r : Req) : Bool := performed r && (match r.phase with | .hit _ => false | _ => true)

/-- No earlier read of the requester that overlaps the store's bytes is still to be performed, or may still take its bytes anew
(04 R97, log entry 11). -/
def noEarlierRead (s : State) (r : Req) : Bool :=
  (earlier s r).all fun q => settled q || !(isRead q.cmd && isNormal q && q.pool / 64 == r.pool / 64 &&
    (coverMask q.cmd q.addr q.len &&& r.mask) != 0)

/-! ### Durable release (07 R172) -/

/-- Step 1 is met: the requester's queue holds no earlier entry. -/
def durReady (s : State) (r : Req) : Bool :=
  r.mark == .durable && r.dur == .idle && !performed r && (earlier s r).all (!·.queued)

/-- Steps 2 and 3 for one request, and the wait for its own drain. -/
def durAdvance (s : State) (id : Nat) : State :=
  match getReq s id with
  | none => s
  | some r =>
    let s : State := if durReady s r && !heldFull s r then
        let (s, d) := durRecord s r.who
        updReq s id fun r => { r with dur := d }
      else s
    updReq s id fun r => { r with dur := durNext s r.dur, own := durNext s r.own }

/-! ### Reads of a DEVICE region and of the register window -/

/-- A DEVICE read is issued (06 R132, R133, R138): it takes a handler and one pool read of its own bytes (12 R292). -/
def readDevice (s : State) (r : Req) (held : Option Nat) : State :=
  withHandler s r held fun s i =>
    if s.err.fPoolDown then failReq s r 0 2
    else
      let h := newHandler i .device (reqCb r) r.who 0 r.counted r.cls [r.id]
      let n := 8 * (r.len + 1)
      askRead (addHandler s { h with dev := some (r.pool, n) }) (.handler i false) r.pool n (portClass r.counted r.cls)

/-- A register READ is performed: the beat as it stands, and the parity of the members read (16 R383, R384). -/
def readRegister (s : State) (r : Req) (off : Nat) : State :=
  let b := beatRead s off
  updReq (respond (beatUse s off) r.id .ok [b] none) r.id fun r => { r with phase := .done }

/-! ### ATOMIC and LOCK_READ (07 R174 to R176) -/

/-- Operand bytes in the sector: the ATOMIC's group, or the beats a LOCK_READ returns. -/
def operandMask (r : Req) : SectorMask :=
  match r.cmd with
  | .atomic => r.mask
  | _ => coverMask r.cmd r.addr r.len

/-- The sector of an open entry that a request names, and its valid bytes. -/
def entrySector (e : Entry) (r : Req) : Sector := sectorOf e.data (secOf r.pool)
def entryMask (e : Entry) (r : Req) : SectorMask := e.valid.extractLsb' (64 * secOf r.pool) 64
def operandsThere (e : Entry) (r : Req) : Bool := operandMask r &&& ~~~(entryMask e r) == 0

/-- The group of lanes an ATOMIC names in its beat: lowest byte and width in bytes (02 R50). -/
def atomicGroup (r : Req) : Nat × Nat :=
  let lanes := (r.mask >>> (8 * firstBeat r.addr)).toNat % 256
  (((List.range 8).find? fun i => lanes.testBit i).getD 0, ones 8 lanes)

/-- An operand in the lanes of a beat. -/
def laneVal (r : Req) (b : Beat64) : Nat := let g := atomicGroup r; (b.toNat >>> (8 * g.1)) % 2 ^ (8 * g.2)

/-- The sector whose masked bytes an ATOMIC writes over `old`; none when a compare fails (R175). -/
def atomicResult (r : Req) (old : Sector) : Option Sector :=
  let f := firstBeat r.addr
  let a := laneVal r (beatOf old f)
  let d := laneVal r (beatOf r.data f)
  let g := atomicGroup r
  match r.op.toNat with
  | 1 => some (BitVec.ofNat 512 (((a + d) % 2 ^ (8 * g.2)) <<< (64 * f + 8 * g.1)))
  | 2 => if a = laneVal r r.cmp then some r.data else none
  | _ => some r.data

/-- The beat an ATOMIC answers with: the old bytes in the masked lanes, 0 in the others (02 R50). -/
def atomicBeat (r : Req) (old : Sector) : Beat64 := beatOf (old &&& spreadSector r.mask) (firstBeat r.addr)

/-- A queued request has started a fetch into its entry and has still to be performed, wherever its fetch stands (R165, R174). -/
def fetches (q : Req) (cb : Nat) : Bool := q.queued && q.looked && isNormal q && reqCb q == cb

/-- The entry's fetch is over once no request waits for one of its codeblock any more (R165). -/
def fetchOver (s : State) (r : Req) (e : Entry) : State :=
  let others := s.bus.reqs.any fun q => q.id != r.id && fetches q e.cb
  if e.fetching && !others && e.rewrite.isNone then endFetch s e.id else s

/-- The answer of a performing pass whose fetch failed (11 R263, R264): nothing is written; a LOCK_READ sets its lock. -/
def poisonBeats (r : Req) : List Beat64 :=
  match r.cmd with
  | .atomic => (atomicBeat r r.result) :: List.replicate r.len 0
  | _ => dataBeats r r.result

/-- A lock is set; a broken-lock record of the agent's on the codeblock clears (R176, 11 R278). -/
def setLock (s : State) (r : Req) : State :=
  { s with wrb := { s.wrb with locks := s.wrb.locks ++ [(r.who, reqCb r, 0)],
                               broken := s.wrb.broken.filter (· != (reqCb r, r.who)) } }

/-- A performing pass is looked up (R119). -/
def passLooks (s : State) (r : Req) : Bool := lookable s (reqCacheable r) (reqCb r)

/-- The ways a performing pass finds bad: it clears the set and is performed after it (11 R268). -/
def passBad (s : State) (r : Req) : Option (BitVec 16) :=
  if !passLooks s r then none
  else match lookup s (reqCb r) 0 with
    | .parErr bad => some bad
    | _ => none

/-- The performing pass waits: for another's lock, for its requester's earlier reads of the bytes it writes (04 R97), for the probe
queues, or for the clearing of its set. -/
def passWaits (s : State) (r : Req) : Bool :=
  lockedByOther s (reqCb r) r.who || (r.cmd == .atomic && (!noEarlierRead s r || !storeRoom s r true (r.fail == 4))) || (passLooks s r && clearingDue s (reqCb r))

/-- The performing pass, on the codeblock's open entry (R175, R176); `fail` 4 is a store queue entry that failed parity, which poison-marks
the entry also where a compare fails and no byte is merged (10 R256). -/
def performFetch (s : State) (r : Req) (e : Entry) : State :=
  if passWaits s r then s
  else if let some bad := passBad s r then tagParity s (setOf s (reqCb r)) bad
  else
    let bad := r.fail != 0 && r.fail != 4
    let old := entrySector e r
    let s : State := (if bad || r.cmd != .atomic then s
      else match atomicResult r old with
        | some d => writeThrough s r (placeSector d (secOf r.pool)) (reqMask r) true (r.fail == 4)
        | none => if r.fail == 4 then writeThrough s r 0 0 true true else s)
    let s := fetchOver s r e
    let s := if r.cmd == .atomic then s else setLock s r
    let s := updReq s r.id fun r => { r with phase := .done, queued := false }
    if bad then respond (count s cntPoolFail) r.id .okPoison (poisonBeats r) none
    else if r.cmd == .atomic then respond s r.id .ok [atomicBeat r old] none
    else armWatch (respond s r.id .ok (dataBeats r old) none) r

/-- The fetch of an ATOMIC or LOCK_READ ends: good data fills the entry's invalid bytes, of the codeblock or of the sector read
(R174); bad data is kept for the answer only (R175, 11 R264). -/
def fetchEnd (s : State) (id : Nat) (b : Block) (m : BlockMask) (fail : Nat) : State :=
  match getReq s id with
  | none => s
  | some r =>
    match openEntry s (reqCb r) with
    | none => s
    | some e =>
      let s := if fail = 0 then fillInvalid s e.id b m else s
      updReq s id fun r => { r with
        phase := .fetched, fail := if fail = 0 then r.fail else fail,
        result := overSector (sectorOf b (secOf r.pool)) (entrySector e r) (entryMask e r) }

/-- The entry of a fetch, marked as having one in flight. The fetch is counted when it starts, also one that is never issued because
the pool is down, and once however often it is read again (log entry 79; DESIGN CHOICE). -/
def fetchEntry (s : State) (r : Req) : State :=
  let (s, id) := entryFor (if r.looked then s else count s cntFetch) r
  updReq (updEntry s id holdMark) r.id fun q => { q with looked := true }

/-- Probes that an ATOMIC's own pass queues are its requester's (03 R73). -/
def passFor (r : Req) : ProbeFor := { who := if r.cmd = .atomic then some (r.who, r.id) else none }

/-- A fetch from the pool: a miss handler, and the requester's demand miss (R174). -/
def fetchPool (s : State) (r : Req) (held : Option Nat) : State :=
  withHandler s r held fun s i =>
    let s := updReq (fetchEntry s r) r.id fun r => { r with phase := .fetching }
    if s.err.fPoolDown then fetchEnd s r.id 0 0 2
    else readFor s (newHandler i .fetch (reqCb r) r.who (strengthFor s (reqCb r) (attrStr (reqAttr r))) r.counted r.cls [r.id])

/-- The first pass, and its re-entries (R174). -/
def fetchPass (s : State) (r : Req) (held : Option Nat) : State :=
  let cb := reqCb r
  let set := setOf s cb
  let need : BitVec 8 := bit true (secOf r.pool)
  if lockedByOther s cb r.who then s
  else match (openEntry s cb).filter fun e => operandsThere e r with
    | some e => performFetch s r e
    | none =>
      if !entryAvail s r then s
      else if !lookable s (reqCacheable r) cb then fetchPool s r held
      else if clearingDue s cb then s
      else
        match lookup s cb need with
        | .parErr bad => tagParity s set bad
        | .filtered => if filteredRoom s cb then fetchPool (dropFiltered s cb (passFor r)) r held else s
        | .hit w =>
          if secDue s (posOf s set w) need then s
          else if !s.csp.ready then fetchPool s r held
          else if !accRoom s r.counted then s
          else
            let s := updReq (fetchEntry s r) r.id fun r => { r with phase := .fetching }
            addAcc s (.fetch r.id) (posOf s set w) [secOf r.pool] 0 0 r.counted r.cls
        | _ => fetchPool s r held

/-! ### One waiting request -/

/-- A read or BARRIER passes to its lookup, its issue or its performance; `held` is a miss handler given to it. -/
def goRead (s : State) (r : Req) (held : Option Nat) : State :=
  match r.cmd, r.target with
  | .barrier, _ => updReq (respond s r.id .ok [] none) r.id fun r => { r with phase := .done }
  | _, .window off => readRegister s r off
  | _, .region _ a => if attrDevice a then readDevice s r held else readNormal s r held
  | _, .nowhere => s

/-- The answer that an entry of a store queue gets at acceptance (04 R98). -/
def answerAtOnce (r : Req) : Bool :=
  isNormal r && (r.cmd == .write || r.cmd == .writeNt) && !isRelease r.mark

/-- A queued request held by R365 becomes an ordinary queue entry. -/
def enterQueue (s : State) (r : Req) : State :=
  let s := updReq s r.id fun r => { r with phase := .queue }
  if answerAtOnce r then respond s r.id .ok [] none else s

/-- One request goes as far as it may. -/
def advance (s : State) (id : Nat) : State :=
  let s := durAdvance s id
  match getReq s id with
  | none => s
  | some r =>
    match r.phase with
    | .order =>
      if heldFull s r then s
      else if r.queued then enterQueue s r
      else if markMet s r && readOrderMet s r then goRead s r none else s
    | .miss => if missBusy s r.who && !r.miss then s else if r.queued then fetchPass s r none else goRead s r none
    | .answerWait =>
      if r.own == .met then updReq (respond s id .ok [] none) id fun r => { r with phase := .done } else s
    | _ => s

/-! ### Ready responses (02 R53, R55, R59; 03 R72, R84; 04 R100) -/

/-- The ATOMIC's probe to its issuer is not yet acknowledged. -/
def issuerProbed (s : State) (who id : Nat) : Bool :=
  s.prb.probes.any fun x => x.atomic == some id && x.port == portOf who &&
    (x.toSend.getLsbD (pairOf who) || x.out.any (·.1 == pairOf who))

/-- An earlier request of the same requester must be answered first (04 R100). -/
def answeredFirst (s : State) (r : Req) : Bool :=
  (earlier s r).any fun q => !q.answered &&
    (q.mark != .none || ((isDevice r || isWindow r) && (isDevice q || isWindow q)))

/-- It carries data of a codeblock whose back-invalidation is outstanding (03 R84). -/
def staleData (s : State) (r : Resp) : Bool := match r.cb with | some cb => backBusy s cb | none => false

/-- A response may start its tenure. -/
def respReady (s : State) (r : Resp) : Bool :=
  r.untagged ||
  (!(port s (portOf r.who)).untag.getLsbD (pairOf r.who) && !staleData s r &&
   (match r.req with
    | some id => !issuerProbed s r.who id && (match getReq s id with | some q => !answeredFirst s q | none => true)
    | none => true))

/-- Responses that will have no tenure: discarded, their requests no longer owed an answer (02 R59, R60). -/
def discardResps (s : State) (p : Resp → Bool) : State :=
  let l := s.bus.resps.filter p
  let s := { s with bus := { s.bus with resps := s.bus.resps.filter fun r => !p r } }
  l.foldl (fun s r => match r.req with
    | some id => updReq s id fun q => if q.who = r.who then { q with answered := true } else q
    | none => s) s

/-- A response that becomes ready while its port's EN is 0 is discarded (02 R59). -/
def dropSilent (s : State) : State := discardResps s fun r => !portEn s (portOf r.who) && !r.kept && respReady s r

/-! ### Settle -/

/-- Requests answered and finished leave the list; so do finished stores of the engine, whose reads are taken by it. -/
def sweep (s : State) : State :=
  { s with bus := { s.bus with reqs := s.bus.reqs.filter fun r =>
      !((r.answered || (r.who == 12 && !isRead r.cmd)) && r.phase == .done) } }

/-- Requests of the port that the pipeline did not serve last come first within a class; the engine's take part with either (08 R197). -/
def portFirst (s : State) (l : List Req) : List Req :=
  let other := l.filter fun r => !(decide (r.who < 12) && portOf r.who == (if s.qtk.portB then .B else .A))
  if other.isEmpty then l else other

/-- The request that goes on next among `l`, and the round after it: those counted as class 0 first, oldest admission first, then by
weighted round (08 R197, R198). -/
def pickReq (s : State) (l : List Req) : Option (Req × Round) :=
  match l.find? (·.counted) with
  | some r => some (r, s.qtk.pipeRound)
  | none =>
    match roundPick s (fun k => l.any fun r => roundClass r.cls == k) 3 s.qtk.pipeRound with
    | some (k, d) => (portFirst s (l.filter fun r => roundClass r.cls == k)).head?.map fun r => (r, d)
    | none => none

/-- The pipeline has taken a lookup of `r`: the round and the port last served move on, but for a request counted as class 0. -/
def tookLookup (s : State) (r : Req) (d : Round) : State :=
  if r.counted || !isNormal r then s
  else { s with qtk := { s.qtk with pipeRound := d, portB := if r.who < 12 then portOf r.who == .B else s.qtk.portB } }

/-- Every request goes as far as it may, in that order, `n` attempts at most: one that has got further gives all of them another try. -/
def advanceAll : Nat → List Nat → State → State
  | 0, _, s => s
  | n + 1, ids, s =>
    match pickReq s (s.bus.reqs.filter fun r => ids.contains r.id) with
    | none => s
    | some (r, d) =>
      let t := advance s r.id
      if getReq t r.id = some r then advanceAll n (ids.erase r.id) t
      else advanceAll n (t.bus.reqs.map (·.id)) (tookLookup t r d)

/-- Attempts that suffice: a request gets further a few times at most, and each time starts a new round of attempts. -/
def attempts (s : State) : Nat := 8 * (s.bus.reqs.length + 1) * (s.bus.reqs.length + 1)

/-- Let waiting work go on: drains that wait for their codeblock, reads of the port, pressure marking, every request in
the pipeline's order, and the command engine. -/
def settle (s : State) : State :=
  if !isOn s then s
  else
    let s := pressure 32 (sendReads 256 (pumpFills (pumpSlots (pumpCfg s))))
    engineSettle (sweep (dropSilent (advanceAll (attempts s) (s.bus.reqs.map (·.id)) s)))

end Sys2Proof.Machine
end

