-- ==== Sys2Proof/Machine/MemPort.lean ====
section
/-! DEFINITION. The Memory Port's own behaviour (12): bad pool data and its log (10 R248, R258), the end of a read by completion,
error status or timeout (R296, R472, R307, 11 R275), link recovery (R297, R298), the link, and AER (R306). -/

namespace Sys2Proof.Machine

/-! ### Bad pool data (10 R249, R258 to R260) -/

/-- A read of a codeblock has a reason: logged, counted, reported. `who` is none for a drain or prefetch. -/
def poolBad (s : State) (cb reason : Nat) (who : Option Nat) (found expect : BitVec 16) : State :=
  let a := cb * 512
  let s := { s with icb := { s.icb with
    log0 := BitVec.ofNat 32 a
    log1 := word [(24, (fld s.icb.log1 31 24 + 1) % 256), (20, reason), (16, who.getD 15), (0, a / 2 ^ 32)]
    log2 := word [(16, found.toNat), (0, expect.toNat)] } }
  let s := count s cntIcbUnc
  let s := if reason = 4 then count s cntIcbMisdir else if reason = 6 then count s cntIcbStale else s
  raiseInt (event s 6 1 (payload [(16, a), (22, reason), (23, who.getD 0xFF)])) srcPoolBad

/-- A codeblock and its granule have arrived: decoded, checked, counted (10 R248, R249, R259; 11 R270). -/
def readBlock (s : State) (str : BitVec 3) (cb : Nat) (expect : Option (BitVec 16)) (who : Option Nat) (b : Block) (g : Granule) :
    State × Decoded :=
  let d := decodeBlock str cb expect (blankOk s) (seqChk s) b g
  let s := if d.blank then count s cntIcbBlank else s
  if d.reason ≠ 0 then (poolBad s cb d.reason who d.found (expect.getD 0), d)
  else if d.fixed = 0 then (s, d)
  else (bucketEvent (countN (count s cntIcbCorr) cntIcbBit d.fixed) 1, d)

/-- Requester a handler's read is reported for: none for a prefetch, 12 for the engine. -/
def handlerWho (h : Handler) : Option Nat :=
  match h.kind with
  | .prefetch => none
  | .preload _ _ | .unit _ _ | .page _ _ => some 12
  | _ => some h.who

/-! ### Whoever waits on a handler -/

/-- Command units that a fill ends: done, counted as uncorrectable, or stopped by a timeout (09 R221, R235). -/
def unitEnd (fail : Nat) (s : State) (u : Nat × Nat) : State :=
  if fail = 0 then unitDone s u.1
  else if fail = 2 then stopRun s u.1 7 u.2
  else unitDone (addCount1 s u.1 1) u.1

def fillUnits (s : State) (h : Handler) (fail : Nat) : State :=
  let own := match h.kind with | .preload r u => [(r, u)] | _ => []
  (own ++ h.units).foldl (unitEnd fail) s

/-- Overlay data of a handler's read; a poisoned entry or slot among it makes the read bad with reason 7 (10 R248, 07 R171). -/
def overlaid (s : State) (h : Handler) (b : Block) (fail : Nat) : State × Block × Nat :=
  let (x, bad) := overlay s h.cb h.later b
  if bad && fail = 0 then (poolBad s h.cb 7 (handlerWho h) h.found (h.expect.getD 0), x, 1) else (s, x, fail)

/-- Data handed to every waiting request, and the handler released (06 R136). -/
def handAll (s : State) (h : Handler) (b : Block) (fail : Nat) : State :=
  h.reqs.foldl (handTo b fail) (dropHandler s h.idx)

/-- A command unit's pool read timed out: the command stops at that unit (09 R221). -/
def unitTimeout (s : State) (n u : Nat) : State := unitDrop (stopRun s n 7 u) n u

/-- Part `i` of the revocation page has arrived for ring `n`'s WAKE_EPOCH, one of its units; or its read has failed (15 R366, R367). -/
def pageArrive (s : State) (n i : Nat) (b : Block) (fail : Nat) : State :=
  if fail = 0 then
    unitDone (updRun (updEpoch s fun e => if e.ring = n then { e with page := updAt e.page i fun _ => some b } else e) n
      fun x => { x with issued := x.issued + 1 }) n
  else updEpoch s fun e => if e.ring = n then { e with failed := true } else e

/-- A handler's read has ended with data `b` (corrected where it could be), `fail` as in `Req.fail`. -/
def readEnd (s : State) (h : Handler) (b : Block) (fail fixed : Nat) : State :=
  match h.kind with
  | .device => handAll s h b fail
  | .page n i => pageArrive (dropHandler s h.idx) n i b fail
  | .unit n u =>
    if fail = 2 then unitTimeout (dropHandler s h.idx) n u
    else updHandler s h.idx fun x => { x with data := some (b, fail), fixed := fixed, found := h.found }
  | .fetch =>
    let (s, b, fail) := overlaid s h b fail
    h.reqs.foldl (fun s id => fetchEnd s id b (BitVec.allOnes 512) fail) (dropHandler s h.idx)
  | .uncached =>
    let (s, b, fail) := overlaid s h b fail
    handAll s h b fail
  | _ =>
    if fail = 0 then
      due2 (over2 (updHandler s h.idx fun x => { x with data := some (b, 0), fixed := fixed, found := h.found }) (.install h.idx)) (.install h.idx)
    else
      let (x, _) := overlay s h.cb h.later b
      let s := fillUnits (handAll s h x fail) h fail
      let s := if h.kind = .prefetch then count s cntPfDrop else s
      match h.kind, h.pos with
      | .sectorMiss, some p => if h.cancelled then s else dropEntry s p h.cb
      | _, _ => s

/-- Both parts of a handler's codeblock are there. `perr`: the data buffer failed parity; the codeblock is read once more, and a
second error is bad data with reason 7 (10 R256). -/
def handlerArrived (s : State) (h : Handler) (b : Block) (g : Granule) (perr : Bool) : State :=
  let s := if perr then bufParity s 4 ((handlerWho h).getD 0xFF) else s
  if perr && !h.reread then
    if s.err.fPoolDown then readEnd s h 0 2 0
    else
      let s := updHandler s h.idx fun h => { h with reread := true, cbData := none, grData := none }
      askBlock s (.handler h.idx) h.cb (portClass h.counted h.cls)
  else
    let (s, d) := readBlock s h.str h.cb h.expect (handlerWho h) b g
    let h := { h with found := d.found }
    if d.reason = 0 && perr then
      readEnd (poolBad s h.cb 7 (handlerWho h) d.found (h.expect.getD 0)) h d.data 1 0
    else readEnd s h d.data (if d.reason = 0 then 0 else 1) d.fixed

/-! ### Parts of a read and their tags (R296, R472) -/

/-- Two parts of one read: a codeblock and its granule. -/
def sameRead (a b : ReadOwner) : Bool :=
  match a, b with
  | .handler h _, .handler i _ => h == i
  | .slot h _, .slot i _ => h == i
  | x, y => x == y

/-- The read ends early: its unsent parts are withdrawn; tags of parts that can still arrive are quarantined, after an error status (`err`)
until all of the part has come (R472). -/
def endParts (s : State) (o : ReadOwner) (err : Bool) : State :=
  let mine (x : MRead) : Bool := !x.quar && sameRead x.owner o
  let kept := s.mem.reads.filter fun x => !(mine x && (x.tag.isNone || x.lost))
  { s with mem := { s.mem with reads := updIf kept mine fun x => { x with quar := true, ended := err } } }

def dropRead (s : State) (tag : Nat) : State :=
  { s with mem := { s.mem with reads := s.mem.reads.filter (·.tag != some tag) } }

def updRead (s : State) (tag : Nat) (f : MRead → MRead) : State :=
  { s with mem := { s.mem with reads := updIf s.mem.reads (·.tag == some tag) f } }

/-- A flush read has completed: it meets the durable releases it serves (07 R173). -/
def flushMet (s : State) (i : Nat) : State :=
  match getSlot s i with
  | some t =>
    match t.kind with
    | .flush reqs entry =>
      let s := reqs.foldl (fun s id => updReq s id fun r => { r with
        dur := if r.dur = .flushing then .met else r.dur, own := if r.own = .flushing then .met else r.own }) s
      let s := if entry then { s with pwr := { s.pwr with entry := s.pwr.entry.map fun e => { e with flushed := true } } } else s
      dropSlot s i
    | .drain => s
  | none => s

/-- A read ends without data: `fail` 2 for a timeout, 3 for error status. Its parts are dealt with by the caller. A completion read that
ends so is not counted in WRB_CPL_POOL_CNT: R182 counts completions from the pool, and none of its data came from there (log entry 90;
DESIGN CHOICE). -/
def noData (s : State) (o : ReadOwner) (fail : Nat) : State :=
  match o with
  | .handler i _ => match getHandler s i with | some h => readEnd s h 0 fail 0 | none => s
  | .slot i _ => completeSlot s i 0 true
  | .flush i => updSlot s i fun t => { t with resend := true }
  | .probe => s

/-! ### Recovery (R297, R298) -/

/-- Reads that wait to be sent are answered as ones that timed out; drains and flush reads wait (R298). -/
def failUnsent (s : State) : State :=
  let l := s.mem.reads.filter (·.tag.isNone)
  let s := { s with mem := { s.mem with reads := s.mem.reads.filter (·.tag.isSome) } }
  let s := (s.cch.handlers.filter fun h => !h.asked).foldl (fun s h => noData s (.handler h.idx false) 2) s
  l.foldl (fun s m =>
    match m.owner with
    | .handler i _ =>
      match getHandler s i with
      | some h => if h.data.isNone then noData (endParts s m.owner false) m.owner 2 else s
      | none => s
    | .slot i _ => endParts (updSlot s i fun t => { t with stage := .poolWait, cbData := none, grData := none }) m.owner false
    | o => noData s o 2) s

/-- Step 5 of R297. -/
def probeFailed (s : State) : State :=
  let s := { s with mem := { s.mem with recov := .idle } }
  if s.err.fPoolDown then s
  else
    let s := { s with err := { s.err with fPoolDown := true }, mem := { s.mem with downQt := 0 } }
    failUnsent (event s 8 1 (payload [(16, s.mem.cause)]))

/-- Step 4: held requests resume, waiting flush reads are sent again, POOL_DOWN clears (R298, 11 R276). A flush read issued again is not
counted again in WRB_FLUSH_CNT (log entry 89; DESIGN CHOICE). -/
def probeMet (s : State) : State :=
  let s := { s with mem := { s.mem with recov := .idle } }
  let s := if s.err.fPoolDown then event { s with err := { s.err with fPoolDown := false } } 8 2 0 else s
  (s.wrb.slots.filter (·.resend)).foldl (fun s t =>
    askRead (updSlot s t.id fun t => { t with resend := false }) (.flush t.id) (flushWord s) 0 1) s

/-- Step 3: the probe read, or its failure when it cannot be sent. -/
def recoveryProbe (s : State) : State :=
  match if s.mem.dlUp then freeTagFor s .probe else none with
  | none => probeFailed s
  | some t =>
    let m : MRead := { owner := .probe, tag := none, addr := flushWord s, bytes := 0, got := [], cls := 1, quar := false, lost := false }
    sendRead { s with mem := { s.mem with recov := .probing, reads := s.mem.reads ++ [m] } } m t

/-- Step 2: retraining, which ends at once while EN = 0. -/
def recoveryTrain (s : State) : State :=
  let s := { s with mem := { s.mem with recov := .training } }
  if linkEn s then (if s.mem.dlUp then emit s .retrain else s) else recoveryProbe s

/-- Recovery begins; `cause` 1 timeout, 2 fatal, 3 link down, 4 flush status. -/
def startRecovery (s : State) (cause : Nat) : State :=
  if s.mem.recov ≠ .idle then s
  else recoveryTrain (count { s with mem := { s.mem with cause := cause } } cntRecov)

/-! ### Link -/

/-- The data link layer is down: quarantined tags are freed, reads in flight can get no completion (R296). -/
def linkDown (s : State) : State :=
  let reads := (s.mem.reads.filter (!·.quar)).map fun m => { m with lost := m.lost || m.tag.isSome }
  { s with mem := { s.mem with dlUp := false, pstate := 0, retraining := false, reads := reads } }

/-- The data link layer goes down and recovery begins; the training of a recovery under way ends at once while EN = 0 (R297, R473). -/
def linkLost (s : State) : State :=
  if !s.mem.dlUp then s
  else
    let s := linkDown s
    if s.mem.recov = .training && !linkEn s then recoveryProbe s else startRecovery s 3

def widthCode (w : BitVec 4) : Nat := if w.toNat ≥ 8 then 8 else if w.toNat ≥ 4 then 4 else if w.toNat ≥ 2 then 2 else 1

/-- A training ends at a rate and width, never above the limits of MEM_LINK_CFG (R309). -/
def trained (s : State) (speed width : BitVec 4) : State :=
  let v := min (max speed.toNat 1) (maxSpeed s)
  let w := min (widthCode width) (maxWidth s)
  let s := { s with mem := { s.mem with speed := BitVec.ofNat 4 v, width := BitVec.ofNat 4 w, retraining := false } }
  if v < maxSpeed s || w < maxWidth s then event s 8 3 (payload [(16, v), (17, w)]) else s

/-- The data link layer is up at the end of a training: it advertises its credits as it comes up (R288). -/
def linkUp (s : State) (speed width : BitVec 4) : State :=
  let s := if s.mem.dlUp then s else emit s (.initFc advertised)
  let s := trained { s with mem := { s.mem with dlUp := true, pstate := if s.mem.dlUp then s.mem.pstate else 0 } } speed width
  if s.mem.recov = .training then recoveryProbe s else s

/-! ### AER (R306) -/

def aerEvent (s : State) : State :=
  event (raiseInt s srcMem) 8 4 (payload [(16, s.mem.aerCor.toNat), (18, 256 * flag s.mem.bridgeInt + s.mem.aerUnc.toNat)])

def aerCorSet (s : State) (b : Nat) : State :=
  aerEvent (bucketEvent { s with mem := { s.mem with aerCor := setBit s.mem.aerCor b true, corSeq := s.mem.corSeq + 1 } } 3)

def aerUncSet (s : State) (b : Nat) : State :=
  aerEvent { s with mem := { s.mem with aerUnc := setBit s.mem.aerUnc b true, uncSeq := s.mem.uncSeq + 1 } }

/-! ### Completions (R307) -/

/-- A completion to a zero-length read agrees with it: one DW with byte count 1, as PCI Express 4.0 gives it, or no data with byte
count 0 (log entry 21). -/
def zeroLenOk (m : MRead) (c : Cpl) : Bool :=
  c.status == .sc && !c.ep && ((c.data.length == 4 && c.byteCount == 1) || (c.data.isEmpty && c.byteCount == 0)) &&
  c.lowerAddr.toNat == m.addr % 128

/-- A completion with data agrees with its request: bytes left, lower address, and a split at a 64-byte boundary in address order. -/
def shapeOk (m : MRead) (c : Cpl) : Bool :=
  let left := m.bytes - m.got.length
  let at' := m.addr + m.got.length
  let n := c.data.length
  c.byteCount == left && c.lowerAddr.toNat == at' % 128 && n != 0 && decide (n ≤ left) && (n == left || (at' + n) % 64 == 0)

/-- A completion without data, UR or CA, agrees with its request: no data, the bytes left, their lower address. -/
def errShapeOk (m : MRead) (c : Cpl) : Bool :=
  c.data.isEmpty && c.byteCount == m.bytes - m.got.length && c.lowerAddr.toNat == (m.addr + m.got.length) % 128

/-- Row of R307 for a completion of a read other than a flush or probe read, the first that applies; 0 when none does. -/
def cplCode (m : MRead) (c : Cpl) : Nat :=
  if c.status = .crs || !(if c.status = .sc then shapeOk m c else errShapeOk m c) then 2
  else if c.ep then 3
  else if c.status ≠ .sc then 4
  else 0

/-- All bytes of a DEVICE read, or of a part of the revocation page, are there. A part that fails parity in the work buffer is read once
more; a second error fails the page read, as any failed read does (10 R256, 15 R366; log entry 82, DESIGN CHOICE). -/
def bytesArrived (s : State) (h : Handler) (a n : Nat) (perr : Bool) : State :=
  let b : Block := BitVec.ofNat 4096 (n <<< (8 * (a % 512)))
  match h.kind with
  | .page _ i =>
    if !perr then readEnd s h b 0 0
    else
      let s := bufParity s 6 12
      match s.eng.epoch with
      | some e =>
        if e.redo.contains i || s.err.fPoolDown then readEnd s h 0 1 0
        else askRead (updEpoch s fun e => { e with redo := i :: e.redo }) (.handler h.idx false) a 512 (portClass h.counted h.cls)
      | none => readEnd s h 0 1 0
  | _ => readEnd s h b 0 0

/-- All bytes of a part are there. -/
def partArrived (s : State) (m : MRead) (perr : Bool) : State :=
  let n := ofBytes m.got
  match m.owner with
  | .handler i gr =>
    match getHandler s i with
    | none => s
    | some h =>
      match h.dev with
      | some (a, _) => bytesArrived s h a n perr
      | none =>
        let h := if gr then { h with grData := some (BitVec.ofNat 512 n) } else { h with cbData := some (BitVec.ofNat 4096 n) }
        let s := updHandler s i fun _ => h
        match h.cbData, h.grData with
        | some b, some g => handlerArrived s h b g perr
        | _, _ => s
  | .slot i gr =>
    match getSlot s i with
    | none => s
    | some t =>
      let t := if gr then { t with grData := some (BitVec.ofNat 512 n) } else { t with cbData := some (BitVec.ofNat 4096 n) }
      let s := updSlot s i fun _ => t
      match t.cbData, t.grData with
      | some b, some g =>
        let x := readBlock s t.str t.cb t.expect none b g
        completeSlot (count x.1 cntCplPool) i x.2.data (x.2.reason != 0)
      | _, _ => s
  | .flush i => flushMet s i
  | .probe => s

/-- A completion for an outstanding read other than a flush or probe read. -/
def dataCpl (s : State) (m : MRead) (tag : Nat) (c : Cpl) (perr : Bool) : State :=
  match cplCode m c with
  | 0 =>
    let m' := { m with got := m.got ++ c.data }
    if m'.got.length = m.bytes then partArrived (dropRead s tag) m' perr
    else updRead s tag fun _ => m'
  | code =>
    let s := logMemViol s code c.header
    let got := m.got ++ c.data
    let s := if c.status ≠ .sc || got.length ≥ m.bytes then dropRead s tag else updRead s tag fun x => { x with got := got }
    noData (endParts s m.owner true) m.owner 3

/-- A completion for a quarantined tag: discarded and counted. The tag of a read that timed out is free with it (R296), that of one that
ended with error status once all that was outstanding has arrived (R472). -/
def lateCpl (s : State) (m : MRead) (tag : Nat) (c : Cpl) : State :=
  let s := count s cntLate
  let got := m.got ++ c.data
  if !m.ended || c.status ≠ .sc || got.length ≥ m.bytes then dropRead s tag else updRead s tag fun x => { x with got := got }

/-- A completion for a flush read: it completes, or row 0x05 applies: as a flush timeout, and link recovery (R307). -/
def flushCpl (s : State) (i tag : Nat) (m : MRead) (c : Cpl) : State :=
  if zeroLenOk m c then flushMet (dropRead s tag) i
  else startRecovery (noData (dropRead (logMemViol s 5 c.header) tag) (.flush i) 2) 4

/-! ### Timeouts (R296, 11 R275) -/

/-- Kind and requester of a CPL_TIMEOUT event (11 R285), and the pool address. -/
def timeoutKind (s : State) (m : MRead) : Nat × Nat × Nat :=
  match m.owner with
  | .handler i _ =>
    match getHandler s i with
    | some h =>
      let k := match h.kind with | .uncached | .device | .fetch => 2 | .unit _ _ | .page _ _ => 5 | _ => 1
      (k, (handlerWho h).getD 0xFF, match h.dev with | some (a, _) => a | none => h.cb * 512)
    | none => (2, 0xFF, m.addr)
  | .slot i _ => (3, 0xFF, match getSlot s i with | some t => t.cb * 512 | none => m.addr)
  | .flush _ => (4, 0xFF, m.addr)
  | .probe => (2, 0xFF, m.addr)

/-- Steps 1 to 4 of R275 for one read. -/
def readTimeout (s : State) (m : MRead) : State :=
  let (k, who, a) := timeoutKind s m
  let s := noData (endParts s m.owner false) m.owner 2
  let s := event (count s cntCplTmo) 7 7 (payload [(16, a), (22, k), (23, who)])
  startRecovery (raiseInt s srcCplTmo) 1

/-! ### The turn-off message (R305) -/

/-- PME_TO_Ack, or none: L2/L3 Ready. Then PE_PERST_N is asserted, which takes the data link layer down with no recovery: nothing is left
to recover for (log entry 92; DESIGN CHOICE). A link that is down already only has its reset asserted. -/
def turnOffDone (s : State) (acked : Bool) : State :=
  let s := if acked then s else logMemViol s 0x0B []
  if s.mem.dlUp then let s := linkDown s; { s with mem := { s.mem with pstate := 3 } } else s

/-! ### The sideband pins (R304, R305, 19 R432) -/

/-- PE_PERST_N is driven low: while PERST_OFF is 0, and at OFFRDY. -/
def perstLow (s : State) : Bool := !perstOffBit s || s.pwr.st == .offrdy

/-- PE_CLKREQ_N is driven low: in Run and Idle while EN = 1, and from the start of a wake; it is released at step E4 of Sleep entry. -/
def clkreqLow (s : State) : Bool :=
  isOn s && linkEn s && s.pwr.st != .offrdy && (s.pwr.entry.map (·.step)) != some .e4

end Sys2Proof.Machine
end

