-- ==== Sys2Proof/Machine/Vault.lean ====
section
/-! DEFINITION. The Vault (15 R373 to R377): slot layout and validity, the scan, the image a save writes, and the content a load takes. -/

namespace Sys2Proof.Machine

/-- Bytes `lo` to `lo + n - 1` of a slot. -/
def slotFld (v : BitVec 65536) (lo n : Nat) : Nat := (v.extractLsb' (8 * lo) (8 * n)).toNat

def slotContent (v : BitVec 65536) : BitVec 8 := BitVec.ofNat 8 (slotFld v 8 1)
def slotSseq (v : BitVec 65536) : Nat := slotFld v 4 4
def slotScreeN (v : BitVec 65536) : Nat := slotFld v 10 2
def slotUserN (v : BitVec 65536) : Nat := slotFld v 13 1

/-- Bytes of a number, lowest first. -/
def numBytes : Nat → Nat → List Byte
  | 0, _ => []
  | n + 1, x => BitVec.ofNat 8 x :: numBytes n (x / 256)

/-- CRC of a slot with its CRC field taken as 0 (R374). -/
def slotCrc (v : BitVec 65536) : Reg32 :=
  crc32 (numBytes 60 v.toNat ++ [0, 0, 0, 0] ++ numBytes 8128 (v.toNat / 2 ^ 512))

/-- A slot is valid (R374). -/
def slotValid (v : BitVec 65536) : Bool :=
  slotFld v 0 4 == 0x564C5431 && decide (slotFld v 8 1 < 16 ∧ slotScreeN v ≤ 1024 ∧ slotUserN v ≤ 12) &&
  slotFld v 60 4 == (slotCrc v).toNat

def slotAt (s : State) (i : Nat) : BitVec 65536 := s.vlt.slots.getD i 0

/-- The valid slot with the highest SSEQ that holds content bit `b` (any content when `b` is 8). -/
def newestWith (s : State) (b : Nat) : Option Nat :=
  ((List.range 8).filter fun i => s.vlt.valid.getLsbD i && (b == 8 || (slotContent (slotAt s i)).getLsbD b)).foldl (fun a i =>
    match a with
    | none => some i
    | some j => if slotSseq (slotAt s j) < slotSseq (slotAt s i) then some i else some j) none

/-- VLT_STATUS and VLT_SSEQ for a set of valid slots (R380). -/
def vaultStatus (s : State) (valid : BitVec 8) : State :=
  let s := { s with vlt := { s.vlt with valid := valid, none := valid == 0 } }
  match newestWith s 8 with
  | some i => { s with vlt := { s.vlt with newest := BitVec.ofNat 3 i, sseq := BitVec.ofNat 32 (slotSseq (slotAt s i)) } }
  | none => { s with vlt := { s.vlt with newest := 0, sseq := 0 } }

/-- Scree entries of a slot: 4 bytes each from 0x0400, the position in bits [20:0] (R373). -/
def slotScree (v : BitVec 65536) : List Nat :=
  (List.range (slotScreeN v)).map fun i => slotFld v (0x400 + 4 * i) 4 % 2 ^ 21

/-- The live Scree list and its stamp are replaced by a slot's (R376, R377). -/
def loadScree (s : State) (i : Nat) : State :=
  let v := slotAt s i
  { s with err := { s.err with
    scree := slotScree v, screeSize := BitVec.ofNat 3 (slotFld v 12 1), screeWays := BitVec.ofNat 2 (slotFld v 12 1 / 16) } }

/-- The scan of step C2 (R377). A slot that holds nothing but zeros was never written and has not failed: BAD reads 0 on a new part
(21, stage 1). -/
def vaultScan (s : State) : State :=
  let valid : BitVec 8 := (List.range 8).foldl (fun m i => setBit m i (slotValid (slotAt s i))) 0
  let bad : BitVec 8 := (List.range 8).foldl (fun m i => setBit m i (!slotValid (slotAt s i) && slotAt s i != 0)) 0
  let s := vaultStatus { s with vlt := { s.vlt with bad := bad } } valid
  match newestWith s 2 with
  | some i => loadScree s i
  | none => { s with err := { s.err with scree := [], screeSize := 0, screeWays := 0 } }

/-! ### The image of a save (R375) -/

/-- Bytes that bit `b` of CONTENT stands for: first byte and length in the slot. -/
def contentArea (b : Nat) : Nat × Nat :=
  match b with
  | 0 => (0x40, 512) | 1 => (0x240, 256) | 2 => (0x400, 4096) | _ => (0x1400, 3072)

def screeImage (l : List Nat) : Nat := l.foldr (fun p a => p + 2 ^ 32 * a) 0

/-- Content `b` as the live state gives it: the area's bytes, or none when it is absent. -/
def liveContent (s : State) (b : Nat) (user : BitVec 24576) (eq : BitVec 2048) : Option Nat :=
  match b with
  | 0 => some s.csp.record.toNat
  | 1 => if s.mem.speed.toNat ≥ 3 then some eq.toNat else none
  | 2 => some (screeImage s.err.scree)
  | _ => some user.toNat

/-- The slot a save writes, and its image. -/
def vaultTarget (s : State) : Nat := if s.vlt.none then 0 else (s.vlt.newest.toNat + 1) % 8

def vaultImage (s : State) (param : BitVec 8) (user : BitVec 24576) (userN : Nat) (eq : BitVec 2048) : BitVec 65536 :=
  let old : Option (BitVec 65536) := if s.vlt.none then none else some (slotAt s s.vlt.newest.toNat)
  let piece (b : Nat) : Option Nat :=
    if param.getLsbD b then liveContent s b user eq
    else match old with
      | some v => if (slotContent v).getLsbD b then some (slotFld v (contentArea b).1 (contentArea b).2) else none
      | none => none
  let content := (List.range 4).foldl (fun m b => if (piece b).isSome then m + 2 ^ b else m) 0
  let kept (f : BitVec 65536 → Nat) (b live : Nat) : Nat :=
    if param.getLsbD b then live else if (piece b).isSome then (match old with | some v => f v | none => 0) else 0
  let screeN := kept slotScreeN 2 s.err.scree.length
  let stamp := kept (fun v => slotFld v 12 1) 2 (s.err.screeSize.toNat + s.err.screeWays.toNat * 16)
  let userN := kept slotUserN 3 userN
  let sseq := if s.vlt.none then 1 else (s.vlt.sseq.toNat + 1) % 2 ^ 32
  let body := (List.range 4).foldl (fun a b => a + 2 ^ (8 * (contentArea b).1) * ((piece b).getD 0)) 0
  let head := 0x564C5431 + 2 ^ 32 * sseq + 2 ^ 64 * content + 2 ^ 80 * screeN + 2 ^ 96 * stamp + 2 ^ 104 * userN
  let v : BitVec 65536 := BitVec.ofNat 65536 (head + body)
  BitVec.ofNat 65536 (head + body + 2 ^ 480 * (slotCrc v).toNat)

/-- Bytes `lo` to `lo + n - 1` of slot `i` take those of an image. -/
def putSlot (s : State) (i lo n : Nat) (img : BitVec 65536) : State :=
  let m : BitVec 65536 := BitVec.ofNat 65536 ((2 ^ (8 * n) - 1) * 2 ^ (8 * lo))
  { s with vlt := { s.vlt with slots := updAt s.vlt.slots i fun v => (v &&& ~~~m) ||| (img &&& m) } }

/-- The header has been written: VLT_STATUS is updated and SAVED is written; `cause` 1 command, 2 Off preparation (R375, R381). -/
def vaultSaved (s : State) (i cause : Nat) (img : BitVec 65536) : State :=
  let s := putSlot s i 0 64 img
  let s := vaultStatus s (setBit s.vlt.valid i true)
  event s 12 1 (payload [(16, i), (17, cause), (20, s.vlt.sseq.toNat)])

/-- Unit `u` of a save: 256 bytes, without the header, which goes last. -/
def saveUnit (s : State) (i u : Nat) (img : BitVec 65536) : State :=
  if u = 0 then putSlot s i 64 192 img else putSlot s i (256 * u) 256 img

/-- A whole save. -/
def saveAll (s : State) (i cause : Nat) (img : BitVec 65536) : State := vaultSaved (putSlot s i 64 8128 img) i cause img

/-- The live list or its stamp differs from the newest valid slot (R370). -/
def screeUnsaved (s : State) : Bool :=
  if s.vlt.none then !s.err.scree.isEmpty
  else
    let v := slotAt s s.vlt.newest.toNat
    !((slotContent v).getLsbD 2 || s.err.scree.isEmpty) ||
    ((slotContent v).getLsbD 2 &&
      (slotScree v != s.err.scree || slotFld v 12 1 != s.err.screeSize.toNat + s.err.screeWays.toNat * 16))

/-! ### The training record (13 R318) -/

/-- Stamp of the present configuration: CRC-32 of CSP_CFG and CSP_TIM0 to CSP_TIM2. -/
def trainStamp (s : State) : Reg32 :=
  crc32 ([rCspCfg, rTim0, rTim1, rTim2].flatMap fun o => numBytes 4 (reg s o).toNat)

end Sys2Proof.Machine
end

