-- ==== Sys2Proof/Machine/CacheStore.lean ====
section
/-! DEFINITION. The Cache Store Port (13) and the operations that write the tag store on its account: the pick of R325, reads with
SECDED (10 R254, 11 R267), read-modify-writes (R324), fill installs (06 R141, R143), fault-handling operations (11 R267, R268, R273),
initialization and training (R317, R318), and the wake (R331). -/

namespace Sys2Proof.Machine

/-! ### The pick (R323, R325) -/

def isWrite (a : Acc) : Bool :=
  match a.kind with
  | .store | .install _ => true
  | _ => false

def isInstall (a : Acc) : Bool := match a.kind with | .install _ => true | _ => false

def accMask (a : Acc) (k : Nat) : SectorMask := a.mask.extractLsb' (64 * k) 64

/-- Sectors an access still needs the devices for: all of a write's, and those of a read that no write before it has served (R323). -/
def todo (a : Acc) : List Nat := if isWrite a then a.sectors else a.sectors.filter fun k => accMask a k != BitVec.allOnes 64

/-- Two accesses touch a common sector. -/
def sameSector (a b : Acc) : Bool := a.pos == b.pos && (todo a).any (todo b).contains

/-- An access waits for older ones to its sectors (R323). -/
def accBlocked (s : State) (a : Acc) : Bool := s.csp.accs.any fun b => decide (b.id < a.id) && sameSector a b

/-- More than one burst (R325). -/
def multi (a : Acc) : Bool := decide (1 < a.sectors.length)

def sameBank (s : State) (a b : Acc) : Bool :=
  let x := dramAddr s a.pos 0
  let y := dramAddr s b.pos 0
  x.rank == y.rank && x.bank == y.bank

/-- A class-0 read (R325). -/
def class0Read (a : Acc) : Bool := a.counted && !isWrite a

/-- Another access holds the bank between two of its bursts. -/
def bankHeld (s : State) (a : Acc) : Bool := s.csp.accs.any fun b => b.inRow && b.id != a.id && sameBank s a b

/-- Accesses with a burst to issue, whose bank can accept it and which no older one to their sectors holds up. -/
def accsReady (s : State) (ready : List Nat) : List Acc :=
  s.csp.accs.filter fun a => !a.issued && ready.contains a.id && !accBlocked s a

/-- The oldest access of a request counted as class 0; a class-0 read of one burst goes before a multi-burst access to its bank. Only a
class-0 read is taken at a bank that another holds. -/
def pickClass0 (s : State) (c : List Acc) : Option Acc :=
  let l := c.filter fun a => a.counted && !isInstall a && (!isWrite a || !bankHeld s a)
  l.head?.map fun a => if multi a then (l.find? fun b => !multi b && !isWrite b && sameBank s a b).getD a else a

/-- The access served next among those whose bank can accept one, and the round after it (R325): class 0, then one in progress, then the
install of a class-0 request, then by weighted round. -/
def pickAcc (s : State) (ready : List Nat) : Option (Acc × Round) :=
  let c := accsReady s ready
  match pickClass0 s c with
  | some a => some (a, s.qtk.csRound)
  | none =>
    match c.find? (·.inRow) with
    | some a => some (a, s.qtk.csRound)
    | none =>
      let c := c.filter fun a => !bankHeld s a
      match c.find? (·.counted) with
      | some a => some (a, s.qtk.csRound)
      | none =>
        match roundPick s (fun k => c.any fun a => roundClass a.cls == k) 3 s.qtk.csRound with
        | some (k, r) => (c.find? fun a => roundClass a.cls == k).map fun a => (a, r)
        | none => none

def removeAcc (s : State) (id : Nat) : State := { s with csp := { s.csp with accs := s.csp.accs.filter (·.id != id) } }

/-- Word mask of a sector's write: bit w when word w is written. -/
def wordsOf (m : SectorMask) : BitVec 8 :=
  (List.range 8).foldl (fun a w => setBit a w ((m >>> (8 * w)).toNat % 256 != 0)) 0

/-- The mask covers part of some word. -/
def partialWord (m : SectorMask) : Bool :=
  (List.range 8).any fun w => let b := (m >>> (8 * w)).toNat % 256; b != 0 && b != 255

/-! ### Words read (10 R254, 11 R261) -/

/-- One word of a sector read: corrected and uncorrectable words are reported. -/
def wordRead (pos k : Nat) (a : State × List (BitVec 64) × Bool) (x : Nat × (BitVec 64 × BitVec 8)) :
    State × List (BitVec 64) × Bool :=
  match secDecode x.2.1 x.2.2 with
  | (d, .good) => (a.1, a.2.1 ++ [d], a.2.2)
  | (d, .corrected) => (suspectEvent (bucketEvent (count a.1 cntIcbSec) 0) pos 1 1, a.2.1 ++ [d], a.2.2)
  | (d, .bad) =>
    let s := bucketEvent (count a.1 cntIcbDed) 4
    (suspectEvent (event s 7 0xB (payload [(16, pos), (20, k), (21, x.1)])) pos 2 2, a.2.1 ++ [d], true)

/-- A sector read: the sector as corrected, and whether a word was uncorrectable. -/
def sectorRead (s : State) (pos k : Nat) (ws : List (BitVec 64 × BitVec 8)) : State × Sector × Bool :=
  let (s, l, bad) := ((List.range 8).zip ws).foldl (wordRead pos k) (s, [], false)
  (s, BitVec.ofNat 512 (ofBeats l), bad)

/-- The sectors of an access: data in their places, and the bad ones. -/
def sectorsRead (s : State) (pos : Nat) : List Nat → List (BitVec 64 × BitVec 8) → State × Block × List Nat
  | [], _ => (s, 0, [])
  | k :: ks, ws =>
    let (s, x, bad) := sectorRead s pos k (ws.take 8)
    let (s, b, l) := sectorsRead s pos ks (ws.drop 8)
    (s, placeSector x k ||| b, if bad then k :: l else l)

/-- Clearings of bad sectors are queued as fault-handling operations, each once. -/
def queueClear (s : State) (pos : Nat) (ks : List Nat) : State :=
  let l := (ks.filter fun k => !s.cch.secClr.contains (pos, k)).map fun k => (pos, k)
  { s with cch := { s.cch with secClr := s.cch.secClr ++ l, rank2 := s.cch.rank2 ++ l.map fun _ => .sector } }

/-- Good data of a read goes to whom it serves. -/
def accGood (s : State) (a : Acc) (b : Block) : State :=
  match a.kind with
  | .hit id =>
    match getReq s id with
    | none => s
    | some r =>
      let x := overSector (sectorOf b (secOf r.pool)) r.fwdData r.fwdMask
      let s := updReq s id fun r => { r with phase := .done, result := x, fail := 0 }
      respond s id .ok (dataBeats r x) (some (reqCb r))
  | .completion i =>
    let s := partSlot s i b (a.sectors.foldl (fun m k => m ||| sectorMask k) 0)
    (match getSlot s i with
     | some t => if t.stage = .ready then count s cntCplCache else s
     | none => s)
  | .fetch id => fetchEnd s id b (a.sectors.foldl (fun m k => m ||| sectorMask k) 0) 0
  | .unit n u => updRun s n fun x => { x with got := x.got ++ [(u, b)] }
  | .store | .install _ => s

/-- A read met an uncorrectable word: recovery by refetch (11 R267). -/
def accBad (s : State) (a : Acc) (bad : List Nat) : State :=
  let s := queueClear (count s cntCsRec) a.pos bad
  match a.kind with
  | .hit id => updReq s id fun r => { r with phase := if r.phase = .done then .done else .order }
  | .completion i => updSlot s i fun t => { t with stage := .poolWait }
  | .fetch id => updReq s id fun r => { r with phase := .miss }
  | .unit _ _ | .store | .install _ => s

def updAcc (s : State) (id : Nat) (f : Acc → Acc) : State :=
  { s with csp := { s.csp with accs := updIf s.csp.accs (·.id == id) f } }

/-- A read behind a write takes sector `k` from its data, unless another access to it comes between; it ends once it has all. -/
def serveSector (b : Block) (id : Nat) (s : State) (k : Nat) : State :=
  match s.csp.accs.find? (·.id == id) with
  | some a =>
    if s.csp.accs.any (fun x => decide (x.id < a.id) && x.pos == a.pos && (todo x).contains k) then s
    else
      let a' := { a with data := overBlock a.data b (sectorMask k), mask := a.mask ||| sectorMask k, left := a.left.filter (· != k) }
      if (todo a').isEmpty then accGood (removeAcc s id) a' a'.data else updAcc s id fun _ => a'
  | none => s

/-- Reads behind a write take the sectors of it that are now complete, without a device access; bytes that a masked write lacks come from the
devices after it (R323, R324; log entry 93). -/
def serveBehind (s : State) (w : Acc) (b : Block) (ks : List Nat) : State :=
  (s.csp.accs.filter fun a => !isWrite a && a.pos == w.pos && decide (w.id < a.id)).foldl
    (fun s a => (ks.filter (todo a).contains).foldl (serveSector b a.id) s) s

/-! ### Issue and completion of an access -/

/-- One burst of a write that covers whole words (R324). -/
def writeBurst (s : State) (a : Acc) (k : Nat) : State :=
  emit s (.ddrWrite (dramAddr s a.pos k) (secWords (sectorOf a.data k)) (wordsOf (accMask a k)))

/-- A class-0 read meets a multi-burst access in progress on its bank, which yields: its remaining bursts are issued later (R325). -/
def yieldBank (s : State) (a : Acc) : State :=
  if class0Read a && bankHeld s a then
    count { s with csp := { s.csp with accs := s.csp.accs.map fun (b : Acc) => if sameBank s a b then { b with inRow := false } else b } } cntYield
  else s

/-- The next burst of the picked access goes to the devices. A write of whole words is performed with its last one; a read or
read-modify-write then waits for its data. -/
def issueAcc (s : State) (a : Acc) : State :=
  let s := yieldBank s a
  match a.left with
  | [] => s
  | k :: l =>
    let more (issued : Bool) (s : State) : State := updAcc s a.id fun x => { x with left := l, inRow := !l.isEmpty, issued := issued }
    if isWrite a && !(a.sectors.any fun k => partialWord (accMask a k)) then
      let s := writeBurst s a k
      if l.isEmpty then serveBehind (removeAcc s a.id) a a.data (a.sectors.filter fun k => accMask a k == BitVec.allOnes 64) else more false s
    else more l.isEmpty (emit (if isWrite a then count s cntRmw else s) (.ddrRead (dramAddr s a.pos k)))

/-- The write half of a read-modify-write: over an uncorrectable word, all eight words take poisoned check bits (R324). -/
def rmwWrite (s : State) (a : Acc) (b : Block) (bad : List Nat) : State :=
  let x := overBlock b a.data a.mask
  let s := a.sectors.foldl (fun s k =>
    let ws := secWords (sectorOf x k)
    let ws := if bad.isEmpty then ws else ws.map fun w => (w.1, w.2 ^^^ 3)
    emit s (.ddrWrite (dramAddr s a.pos k) ws 0xFF)) s
  let s := removeAcc s a.id
  if bad.isEmpty then serveBehind s a x a.sectors else queueClear s a.pos bad

/-- Read data of an issued access. -/
def accData (s : State) (a : Acc) (ws : List (BitVec 64 × BitVec 8)) : State :=
  let (s, b, bad) := sectorsRead s a.pos (todo a) ws
  if isWrite a then rmwWrite s a b bad
  else
    let s := removeAcc s a.id
    if bad.isEmpty then accGood s a (overBlock b a.data a.mask) else accBad s a bad

/-! ### Fill install (06 R141, R143) -/

/-- The data of a fill is handed out and its handler released; an installing fill has written tag and cache store before. -/
def installEnd (s : State) (h : Handler) (b : Block) : State := fillUnits (handAll s h b 0) h 0

/-- Sectors of an entry that are not valid. -/
def invalidSectors (s : State) (p : Nat) : List Nat := (List.range 8).filter fun k => !(tagAt s p).svalid.getLsbD k

/-- The install operation of a fill that may install. -/
def installFill (s : State) (h : Handler) (b : Block) : State :=
  match h.pos with
  | none => installEnd s h b
  | some p =>
    let pres := presFor s h.reqs
    if h.kind = .sectorMiss then
      let t := tagAt s p
      if valid t && cbAtPos s p == h.cb then
        let ks := invalidSectors s p
        let s := tagPut s p { t with svalid := 0xFF, pres := t.pres ||| pres }
        installEnd (addRuns s (.install h.idx) p ks b (BitVec.allOnes 512) h.counted h.cls) h b
      else installEnd s h b
    else
      let s := tagPut s p { tag := h.tagF, age := h.age, lock := false, c0 := h.c0, pres := pres, svalid := 0xFF }
      installEnd (addAcc s (.install h.idx) p (List.range 8) b (BitVec.allOnes 512) h.counted h.cls) h b

/-- Ways whose parity the install's set read finds bad (05 R113). -/
def badWays (s : State) (cb : Nat) : BitVec 16 :=
  waysMask ((liveWays s (setOf s cb)).filter fun w => !tagParOk (tagBits s (posOf s (setOf s cb) w)))

/-- The install operation (R141), once the back-invalidations of the codeblock are acknowledged (03 R84). -/
def install (s : State) (h : Handler) (b : Block) : State :=
  let (s', x, fail) := overlaid s h b 0
  if fail ≠ 0 then readEnd s' h b 1 0
  else if h.cancelled || !s.cch.enabled || !s.csp.ready then installEnd s h x
  else
    let bad := badWays s h.cb
    if bad ≠ 0 then
      installEnd (cancelFills (tagParity s (setOf s h.cb) bad) fun y => y.idx == h.idx) { h with cancelled := true } x
    else installFill s h x

/-! ### Fault-handling operations (08 R197 rank 2) -/

/-- A sector's SVALID bit is cleared (11 R267); index 8 is a whole entry whose refetch failed. -/
def clearSector (s : State) (pos k : Nat) : State :=
  if k = 8 then invalPos s pos {}
  else
    let t := tagAt s pos
    if t.svalid.getLsbD k then tagPut s pos { t with svalid := setBit t.svalid k false } else s

/-- A set clearing (11 R268). -/
def clearSet (s : State) (set : Nat) : State :=
  let s := count s cntTagRec
  let s := (liveWays s set).foldl (fun s w => tagPutBits s (posOf s set w) 0) s
  let s := cancelFills s fun h => match h.pos with | some p => p / ways s == set | none => false
  if s.cch.enabled then queueProbe s .invAll (attachedAgents s) {} else s

/-- A queued retirement (11 R273). -/
def retirePos (s : State) (pos cause : Nat) : State :=
  if s.err.scree.length ≥ 1024 || screeStale s then
    raiseInt (event { s with err := { s.err with fScree := true } } 7 3 (payload [(16, pos)])) srcScree
  else
    let s := invalPos s pos {}
    let s : State := if s.err.scree.isEmpty then
        { s with err := { s.err with screeSize := BitVec.ofNat 3 (sizeCode s), screeWays := BitVec.ofNat 2 (fld (reg s rGeom) 5 4) } }
      else s
    let s : State := if s.err.scree.contains pos then s else { s with err := { s.err with scree := s.err.scree ++ [pos] } }
    raiseInt (event (count s cntRetire) 7 2 (payload [(16, pos), (20, cause)])) srcScree

/-! ### Prefetch candidates (06 R150) -/

/-- A candidate passes R150's checks. -/
def candidateOk (s : State) (c : Candidate) : Bool :=
  pfEn s && s.cch.enabled && inPool (poolRange s c.region) (c.cb * 512) && decide (c.cb * 512 < span s ∧ c.cb * 512 < dataEnd s)

/-- The handler that a prefetch fill may still take (R148); candidates never wait (R134). -/
def pfHandler (s : State) : Option Nat :=
  if (s.cch.handlers.filter (·.kind == .prefetch)).length < pfMax s && pfFloor s + 1 < (freeShared s).length then pickHandler s false else none

/-- The candidate would start a fill, and the probe queues have no room for its back-invalidation: it waits (03 R74). -/
def candidateWaits (s : State) (c : Candidate) : Bool :=
  candidateOk s c && !clearingDue s c.cb && lookup s c.cb 0xFF == .miss && (fillOf s c.cb).isNone && (pfHandler s).isSome &&
  !fillRoom s c.cb true none

/-- A candidate's lookup (R150). In the armed wake filter it is dropped (15 R366). -/
def prefetch (s : State) (c : Candidate) : State :=
  if !candidateOk s c || clearingDue s c.cb then s
  else
    match lookup s c.cb 0xFF with
    | .parErr bad => tagParity s (setOf s c.cb) bad
    | .miss =>
      if (fillOf s c.cb).isSome then s
      else
        match pfHandler s with
        | none => count s cntPfDrop
        | some i =>
          if s.err.fPoolDown then count s cntPfDrop
          else
            match fillStart s (newHandler i .prefetch c.cb 12 (strengthFor s c.cb (attrStr c.attr)) false 3 []) none with
            | some s => count s cntPfIssue
            | none => s
    | _ => s

/-! ### Initialization (R317, R318) -/

def cspFail (s : State) (err step lane : Nat) : State :=
  let s := { s with csp := { s.csp with busy := false, ready := false, errCode := BitVec.ofNat 4 err, seq := s.csp.seq + 1 } }
  event s 9 1 (payload [(16, err), (17, step), (18, lane)])

/-- READY sets. -/
def cspReady (s : State) : State :=
  { s with csp := { s.csp with ready := true, busy := false, step := 0, zq0 := 0, zq1 := 0 } }

/-- READY clears: accesses held are dropped (R474), and loss is reported while the cache is enabled (R332). -/
def cspLost (s : State) : State :=
  let s := { s with csp := { s.csp with ready := false } }
  if s.cch.enabled then cacheLoss s else s.csp.accs.foldl dropAccess s

/-- INIT written. -/
def cspStart (s : State) : State :=
  if s.csp.busy then s
  else
    let s := cspLost s
    { s with csp := { s.csp with busy := true, step := 1, fromVault := false, trial := false, sref := false } }

/-- The record of the most recent valid slot whose stamp matches. -/
def vaultRecord (s : State) : Option Block :=
  if trMode s = 1 then
    ((List.range 8).filter fun i => s.vlt.valid.getLsbD i && (slotContent (slotAt s i)).getLsbD 0 &&
        slotFld (slotAt s i) 0x40 4 == (trainStamp s).toNat).foldl (fun a i =>
      match a with
      | none => some i
      | some j => if slotSseq (slotAt s j) < slotSseq (slotAt s i) then some i else some j) none
    |>.map fun i => BitVec.ofNat 4096 (slotFld (slotAt s i) 0x40 512)
  else none

/-- Trained values of a full training: the spec gives no layout but the stamp (R318). -/
def newRecord (s : State) : State :=
  let (n, s) := nextFree s
  let b := overBlock (Config.freeTraining n) ((trainStamp s).setWidth 4096) 0xF
  { s with csp := { s.csp with record := b } }

def cspStep (s : State) (k : Nat) : State := { s with csp := { s.csp with step := BitVec.ofNat 4 k } }

/-- What the mode registers are set to (R311, R317 step 4). -/
def modeSettings (s : State) : ModeSettings :=
  { cl := fld (reg s rTim0) 4 0, cwl := fld (reg s rTim2) 20 16, wr := fld (reg s rTim0) 20 16, rtp := fld (reg s rTim1) 9 6,
    ccdL := fld (reg s rTim1) 25 22, drive := 34, rttNom := 60, rttWr := none, rttPark := 60, caParity := (reg s rCspCfg).getLsbD 19,
    refresh := min 4 (2 ^ fld (reg s rCspCfg) 17 16), autoSelfRefresh := true, dm := true, dbi := false, writeCrc := false }

/-- Step 4: MR3, MR6, MR5, MR4, MR2, MR1, MR0 of each rank. -/
def writeModes (s : State) : State :=
  [3, 6, 5, 4, 2, 1, 0].foldl (fun s m => (List.range (cspRanks s)).foldl (fun s r => emit s (.ddrMrs r m (modeSettings s))) s) s

/-- ZQCL of `nck` clocks to each rank (R317 step 5, R331 step 4). -/
def zqLong (s : State) (nck : Nat) : State := (List.range (cspRanks s)).foldl (fun s r => emit s (.ddrZqcl r nck)) s

/-- The running step of the sequence completes, and the next one starts. -/
def cspNext (s : State) (r : InitResult) : State :=
  match s.csp.step.toNat with
  | 1 =>
    if !timOk s || cspDens s = 3 then cspFail s 1 1 0xFF
    else cspStep { s with csp := { s.csp with ddrLock := true, resetN := false, cke := false } } 2
  | 2 => cspStep { s with csp := { s.csp with resetN := true } } 3
  | 3 => cspStep (writeModes { s with csp := { s.csp with cke := true } }) 4
  | 4 => cspStep (zqLong s 1024) 5
  | 5 =>
    match vaultRecord s with
    | some b => cspStep { s with csp := { s.csp with record := b, trial := true } } 7
    | none => cspStep s 6
  | 6 =>
    match r with
    | .ok => cspStep s 7
    | .failed lane => cspFail s 2 6 lane.toNat
  | 7 =>
    match r with
    | .ok => cspStep s 8
    | .failed lane =>
      if s.csp.trial then cspStep { s with csp := { s.csp with trial := false } } 6 else cspFail s 3 7 lane.toNat
  | 8 =>
    match r with
    | .ok =>
      if s.csp.trial then cspReady { s with csp := { s.csp with trial := false, fromVault := true } } else cspReady (newRecord s)
    | .failed lane =>
      if s.csp.trial then cspStep { s with csp := { s.csp with trial := false } } 6 else cspFail s 4 8 lane.toNat
  | _ => s

/-! ### Refresh, ZQCS, alert, wake -/

def zqCount (s : State) (rank : Nat) : Nat := if rank = 0 then s.csp.zq0 else s.csp.zq1

/-- A ZQCS is due for a rank (R328). -/
def zqDue (s : State) (rank : Nat) : Bool :=
  s.csp.ready && decide (rank < cspRanks s) && decide (0 < s.csp.ivl ∧ s.csp.ivl * 16 ≤ zqCount s rank)

/-- A ZQCS is issued to a rank: its count starts again. -/
def zqIssue (s : State) (rank : Nat) : State :=
  let s := count (emit s (.ddrZqcs rank)) cntZq
  if rank = 0 then { s with csp := { s.csp with zq0 := 0 } } else { s with csp := { s.csp with zq1 := 0 } }

def cspAlert (s : State) (rank : Nat) : State :=
  let s := event (count s cntAlert) 9 2 (payload [(16, rank)])
  cspLost { s with csp := { s.csp with errCode := 6, seq := s.csp.seq + 1 } }

/-- The wake step of the port (R331), which ends with its check; on the wake path, loss is reported if the cache is enabled. -/
def cspWoken (s : State) (pass : Bool) : State :=
  let s := zqLong { s with csp := { s.csp with sref := false, cke := true, ddrLock := true } } 512
  if pass && !s.csp.vddqLow then cspReady s
  else
    let code := if s.csp.vddqLow then 7 else 5
    let s := { s with csp := { s.csp with errCode := BitVec.ofNat 4 code, seq := s.csp.seq + 1 } }
    cacheLoss (event s 9 3 (payload [(16, code)]))

/-- Self-refresh entry (R330). -/
def cspSleep (s : State) : State :=
  if s.csp.ready then
    let s := (List.range (cspRanks s)).foldl (fun s r => count (emit s (.ddrRef r)) cntRef) s
    let s := (List.range (cspRanks s)).foldl (fun s r => emit s (.ddrSre r)) s
    { s with csp := { s.csp with sref := true, cke := false, resetN := true, vddqLow := false, ddrLock := false } }
  else { s with csp := { s.csp with cke := false, vddqLow := false, ddrLock := false } }

end Sys2Proof.Machine
end

