-- ==== Sys2Proof/Machine/Clocks.lean ====
section
/-! DEFINITION. Clocks (14): relock (R339, R340), lock monitor (R342), reference drift monitor (R348 to R350), SYNC measurement (R351). -/

namespace Sys2Proof.Machine

/-- A bit of CLK_STATUS [7:4] sets: SEQ advances and the CLK source is raised (R349, R352). -/
def clkRaised (s : State) : State := raiseInt { s with clk := { s.clk with seq := s.clk.seq + 1 } } srcClk

/-- The loop bandwidth that CLK_PLL_CFG gives: 0b11 acts as 0b01. -/
def bwOf (s : State) : BitVec 2 := let b := (reg s rPllCfg).extractLsb' 0 2; if b = 3 then 1 else b

/-- A relock starts, or starts over, on trigger 1 to 4, with BW as it stands then (R339, R340). The Qt in progress and the SYNC
measurement run are from now on partly a relock's (08 R186, R351). -/
def startRelock (s : State) (trigger : Nat) : State :=
  count { s with
    clk := { s.clk with lock := false, relocking := true, trigger := trigger, bw := bwOf s, measBad := true }
    qtk := { s.qtk with relocked := true } } cntRelock

/-- The lock counter reaches 4,096 (R340 step 4). -/
def relockEnd (s : State) : State :=
  let t := s.clk.trigger
  event { s with clk := { s.clk with lock := true, relocking := false }, qtk := { s.qtk with relockAll := false } } 10 2 (payload [(16, t)])

/-- A lock monitor window ends with `n` core cycles (R342). -/
def lockWindow (s : State) (n : Nat) : State :=
  if 1014 ≤ n ∧ n ≤ 1034 then s
  else
    let s := count { s with clk := { s.clk with lol := true } } cntLol
    startRelock (clkRaised (event s 10 1 (payload [(16, n % 65536)]))) 3

/-! ### Drift monitor -/

/-- Class of a window with `n` reference cycles (R348). -/
def driftClass (s : State) (n : Nat) : Drift :=
  let e := monExpected s
  let d := ((n : Int) - (e : Int)).natAbs
  if 2 * n < e then .lost
  else if d > monLimit s (fld (reg s rMon) 25 16) then .fault
  else if d > monLimit s (fld (reg s rMon) 9 0) then .warning
  else .good

/-- D in two's complement, saturating in CLK_MON_LAST (R352). -/
def driftD (s : State) (n : Nat) : Int := (n : Int) - (monExpected s : Int)
def satD (d : Int) : BitVec 24 := BitVec.ofInt 24 (max (-8388607) (min 8388607 d))
def driftPayload (d : Int) (b : Nat) : BitVec 384 := payload [(16, (BitVec.ofInt 32 d).toNat), (20, b)]

def badDrift (d : Option Drift) : Bool := d == some .fault || d == some .lost

/-- FAULT sets: the actions of ACT (R350). -/
def driftFault (s : State) (d : Int) : State :=
  let switch := (monAct s) % 2 == 1 && !(reg s rPllCfg).getLsbD 8 && !s.clk.refsw
  let s := { s with clk := { s.clk with fault := true, faultEv := true, refsw := s.clk.refsw || switch } }
  let s := clkRaised (event s 10 4 (driftPayload d (flag switch + 2 * flag (monAct s ≥ 2))))
  if switch then linkLost s else s

/-- A monitor window ends (R348, R349). -/
def monWindow (s : State) (n : Nat) : State :=
  let c := driftClass s n
  let d := driftD s n
  let last := s.clk.lastWin
  let s := { s with clk := { s.clk with monD := satD d, monUpd := s.clk.monUpd + 1, lastWin := some c } }
  let s : State := if c = .lost && last ≠ some .lost then
      clkRaised (event { s with clk := { s.clk with lossEv := true } } 10 5 0)
    else s
  let s : State := if (c = .warning || c = .fault) && (last = none || last = some .good) then
      clkRaised (event (count { s with clk := { s.clk with warnEv := true } } cntWarnWin) 10 3 (driftPayload d 0))
    else s
  if badDrift (some c) then (if badDrift last && !s.clk.fault then driftFault s d else s)
  else { s with clk := { s.clk with fault := false } }

/-- The monitor runs: not in Sleep, nor before the core clock is back from the relock of wake (R348). -/
def monRuns (s : State) : Bool :=
  isOn s && monEn s && (match s.pwr.wake with | some w => w.w3 | none => true)

/-- The monitor starts a new window, and with it a new run of windows (R348, R349). -/
def monRestart (s : State) : State := { s with clk := { s.clk with lastWin := none } }

/-- A boundary's share of the SYNC measurement run in progress: its 4,096th boundary ends it, and the next run follows on (R351; log
entry 84). `sync`: the boundary came from a SYNC edge. -/
def measBoundary (s : State) (sync : Bool) : State :=
  let bad := s.clk.measBad || !sync
  if !s.qtk.syncIn then { s with clk := { s.clk with measN := 0, measBad := s.clk.relocking } }
  else if s.clk.measN + 1 = 4096 then
    { s with clk := { s.clk with measN := 0, measBad := s.clk.relocking, measEnd := some (!bad) } }
  else { s with clk := { s.clk with measN := s.clk.measN + 1, measBad := bad } }

/-- The count of the run that has ended is written, with VALID (R351). -/
def syncRun (s : State) (n : Nat) : State :=
  match s.clk.measEnd with
  | some v => { s with clk := { s.clk with measCount := BitVec.ofNat 31 n, measValid := v, measEnd := none } }
  | none => s

/-- REFBACK (R347, R350). -/
def refBack (s : State) : State :=
  if linkEn s then breach s .r347 else { s with clk := { s.clk with refsw := false } }

end Sys2Proof.Machine
end

