-- ==== Sys2Proof/Machine/Power.lean ====
section
/-! DEFINITION. Sleep and Off entry (15 R360 to R362, R370), Sleep (R355), the wake (R364 to R369), posted domains (16 R395), and the
start of an MBIST run, which shares steps E1 and E2 (18 R422). -/

namespace Sys2Proof.Machine

/-! ### Requests for entry (R360) -/

/-- Entry or wake is in progress: not yet while a request waits for the boundary at which entry starts. -/
def entryBusy (s : State) : Bool := (match s.pwr.entry with | some e => e.step != .armed | none => false) || s.pwr.st != .run

/-- No ring runs a command, and every pending tail is accepted (R360). -/
def ringsQuiet (s : State) : Bool := (s.eng.rings.take 4).all fun r => r.run.isNone && r.pend == r.acc

/-- A SLEEP or OFFPREP write is accepted. -/
def entryAllowed (s : State) : Bool := !s.eng.en && ringsQuiet s

/-- FAILRSN is set and SEQ advances, with a SLEEP_FAIL event and the PWR source (R362, R381). DEDUCED for a refused write,
whose row stands in the same table (log entry 26). -/
def setFail (s : State) (rsn : Nat) : State :=
  let s := { s with pwr := { s.pwr with failRsn := BitVec.ofNat 4 rsn, seq := s.pwr.seq + 1 } }
  raiseInt (event s 11 1 (payload [(16, rsn)])) srcPwr

/-- Entry is to start at the next boundary. A second request before that boundary asks for nothing more, the one for the other kind of
entry included (log entry 86; DESIGN CHOICE). -/
def armEntry (s : State) (off : Bool) : State :=
  if s.pwr.entry.isSome then s
  else { s with pwr := { s.pwr with entry := some { off := off, step := .armed, ticks := 0, flushed := false } } }

/-- A rising edge of SLEEP_REQ. -/
def sleepEdge (s : State) : State :=
  if entryBusy s then { s with pwr := { s.pwr with latchSleep := true } } else armEntry s false

/-- A write of SLEEP. -/
def sleepWrite (s : State) : State :=
  if entryBusy s then { s with pwr := { s.pwr with latchWrite := true } }
  else if entryAllowed s then armEntry s false else setFail s 1

/-- A write of OFFPREP (R370). While an entry or wake is in progress it has no effect. -/
def offWrite (s : State) : State :=
  if entryBusy s then s else if entryAllowed s then armEntry s true else setFail s 1

/-! ### Steps E1 to E3 (R361) -/

/-- E1 for the engine: each running command completes its issued units and ends with ABORTED. -/
def abortRuns (s : State) : State :=
  (List.range 4).foldl (fun s n => match getRun s n with
    | some x => if x.final || x.stop.isSome then s else stopRun s n 8 x.issued
    | none => s) s

/-- E1 and the start of E2, at the boundary at which entry starts; the key locks at the start of Sleep entry (16 R390). -/
def beginEntry (s : State) (off : Bool) : State :=
  let s := { s with
    pwr := { s.pwr with st := if off then .preparing else .entering
                        entry := some { off := off, step := .e2, ticks := 0, flushed := false } }
    cfg := { s.cfg with unlocked := if off then s.cfg.unlocked else none } }
  (wakeAll (abortRuns s)).1

def setStep (s : State) (e : EStep) : State :=
  { s with pwr := { s.pwr with entry := s.pwr.entry.map fun r => { r with step := e } } }

/-- E2 has ended: every request is answered, every store queue is empty, no lock is held; the fills, the engine's entries and
the fault-handling operations that are under way have ended too. -/
def quietE2 (s : State) : Bool :=
  s.bus.reqs.isEmpty && s.bus.resps.isEmpty && s.bus.portA.again.isNone && s.bus.portB.again.isNone && s.wrb.locks.isEmpty &&
  s.cch.handlers.isEmpty && s.cch.setClr.isEmpty && s.cch.secClr.isEmpty && s.err.retire.isEmpty && s.eng.writes.isEmpty

/-- No ring's command runs, and every entry of the completion and event rings that was queued has been written (R361 E1, R355). -/
def entriesOut (s : State) : Bool :=
  (List.range 4).all (fun n => (getRun s n).isNone) && s.eng.cents.isEmpty && s.eng.events.isEmpty && s.eng.writes.isEmpty

/-- The engine writes ring entries: during entry to Sleep or Off to the end of step E3's drains, and not once prepared for Off. -/
def entriesOpen (s : State) : Bool :=
  match s.pwr.entry with
  | some e => e.step == .armed || e.step == .e2 || e.step == .e3
  | none => s.pwr.st != .offrdy

/-- Every open entry is marked for drain. -/
def markAll (s : State) : State := s.wrb.entries.foldl (fun s e => markEntry s e.id .other) s

/-- Every drain has issued both writes. -/
def drained (s : State) : Bool := s.wrb.entries.isEmpty && !s.wrb.slots.any (·.kind == .drain)

/-- The flush read of E3. -/
def entryFlush (s : State) : State :=
  let i := s.wrb.nextSlot
  askRead (addSlot s (newSlot i (.flush [] true))) (.flush i) (flushWord s) 0 1

/-- Entry is abandoned (R362). -/
def abandon (s : State) (rsn : Nat) : State :=
  setFail { s with
    pwr := { s.pwr with entry := none, st := .run, latchWake := false }
    mem := { s.mem with pstate := 0 } } rsn

/-- ENTRY_TMO boundaries have passed since the one at which entry started, and E4 (for Off, E3) has not completed. -/
def entryTmoPassed (s : State) (e : EntryRun) : Bool := e.step != .armed && e.step != .turnOff && decide (entryTmo s ≤ e.ticks)

/-- The end of Off preparation: OFFRDY (R370). -/
def offReady (s : State) : State :=
  { s with pwr := { s.pwr with st := .offrdy, entry := none, hb := false }
           csp := { s.csp with cke := false, resetN := false } }

/-- After E3 of Off preparation: the Scree list is saved when it differs, and the turn-off begins (R370, R305). -/
def turnOff (s : State) : State :=
  let s := if screeUnsaved s then saveAll s (vaultTarget s) 2 (vaultImage s 4 0 0 0) else s
  if s.mem.dlUp then setStep (sendTlp s .pmeTurnOff) .turnOff else offReady (turnOffDone s false)

/-- One step of entry, when its condition holds (R361). -/
def entryStep (s : State) (e : EntryRun) : State :=
  match e.step with
  | .armed => s
  | .e2 => if quietE2 s && entriesOut s then setStep (markAll s) .e3 else s
  | .e3 =>
    if !(quietE2 s && drained s) then markAll s
    else if s.csp.accs.isEmpty && slotFree s true then setStep (entryFlush s) .e3flush else s
  | .e3flush =>
    if !e.flushed then s
    else if e.off then turnOff s
    else if s.mem.reads.any (·.quar) then abandon s 3
    else setStep s .e4
  | .e4 | .turnOff => s

/-! ### Posted domains (16 R395) -/

def takeBedrock (s : State) : State :=
  { s with pwr := { s.pwr with busyBr := false, hbBr := reg s rHbCfg }
           mem := { s.mem with seen := (reg s rEpochHi).append (reg s rEpochLo) } }

def takePhy (s : State) : State := { s with pwr := { s.pwr with busyPhy := false, lanePhy := reg s rLane } }

def takePosted (s : State) : State :=
  let s := if s.pwr.busyBr then takeBedrock s else s
  if s.pwr.busyPhy then takePhy s else s

/-! ### Sleep and wake -/

/-- The wake begins (R364 W1, W2): what was powered down is empty, and the relock, the port's wake and the L1.2 exit start. Probes that
are queued or outstanding stay so through Sleep: R361 does not wait for them, and R355 does not name them (log entry 57; DESIGN CHOICE). -/
def wakeStart (s : State) : State :=
  let s : State := if s.mem.clkreq then logMemViol { s with mem := { s.mem with clkreq := false } } 0x0A [] else s
  let sref := s.csp.sref
  let s := resetDetectors { s with
    pwr := { s.pwr with phase := .on, st := .waking, c0Rdy := false, fullRdy := false, latchWake := false
                        wake := some { w3 := false, w4 := !sref, w5 := false, w7 := !autoEpoch s, outcome := .none } }
    wrb := { s.wrb with arms := List.replicate 8 none, armWr := 0 }
    icb := { s.icb with recent := [] }
    err := { s.err with suspects := [] }
    cch := { s.cch with cands := [] }
    tst := { s.tst with tap := Tap.reset }
    csp := { s.csp with ready := if sref then false else s.csp.ready } }
  if s.clk.xoOk then startRelock s 2 else s

/-- Steps E5 and E6: self-refresh, then the core domain powers down, its PLL with it (14 R339); a wake edge met during entry starts the wake at once. -/
def sleepNow (s : State) : State :=
  let s := takePosted (cspSleep { s with mem := { s.mem with pstate := 2 } })
  let s := { s with
    pwr := { s.pwr with phase := .sleep, entry := none, intHeld := intLevel s, faultHeld := faultLevel s }
    qtk := { s.qtk with running := false }
    clk := { s.clk with lock := false, relocking := false } }
  if s.pwr.latchWake then wakeStart s else s

/-- WAKE_REQ's qualified edge: in Sleep it wakes; during entry it is latched; in Run it has no effect (R362, R363). -/
def wakeEdge (s : State) : State :=
  if s.pwr.phase = .sleep then wakeStart s
  else if s.pwr.st = .entering then { s with pwr := { s.pwr with latchWake := true } } else s

def setWake (s : State) (f : Wake → Wake) : State := { s with pwr := { s.pwr with wake := s.pwr.wake.map f } }

/-- Outcome as REV_RESULT codes it. -/
def outcomeCode (o : Outcome3) : Nat := match o with | .none => 0 | .drop => 1 | .full => 2

/-! ### MBIST start (18 R422) -/

/-- A start of the targets `sel`: refused, or begun with E1 and the start of E2. -/
def mbistStart (s : State) (sel : BitVec 9) : State :=
  if s.tst.busy then s
  else if s.cch.enabled || invRun s then { s with tst := { s.tst with rsn := 1 } }
  else if s.eng.en || (s.eng.rings.take 4).any ringBusy then { s with tst := { s.tst with rsn := 2 } }
  else if sel = 0 then { s with tst := { s.tst with rsn := 3 } }
  else (wakeAll { s with tst := { s.tst with busy := true, rsn := 0, fail := 0, tested := sel, quiescing := true } }).1

end Sys2Proof.Machine
end

