-- ==== Sys2Proof/Machine/RegWrite.lean ====
section
/-! DEFINITION. A register write as it is performed (16): the key (R389 to R391), the alias window (R392), posted domains (R395, R396,
17 R409), write-backs of SEQ (R397), the commit window (R402), and what each register's fields do. -/

namespace Sys2Proof.Machine

/-! ### Key and commit window -/

/-- A keyed change (05 R124): INV_DONE clears, and a running INVALIDATE_ALL will not set it. -/
def keyedChange (s : State) : State :=
  let s := { s with cch := { s.cch with invDone := false } }
  (List.range 4).foldl (fun s n => match getRun s n with
    | some x => if x.opcode = 1 then updRun s n fun x => { x with keyed := true } else s
    | none => s) s

/-- A refused keyed write (R391). -/
def keyRefuse (s : State) (who off : Nat) : State :=
  count { s with cfg := { s.cfg with refused := true, seq := s.cfg.seq + 1, keyLog := word [(16, who), (0, off)] } } cntKeyRef

/-- A write of CFG_KEY_UNLOCK (R389, R390). -/
def keyWrite (s : State) (who : Nat) (val : Reg32) : State :=
  if val = 0x0000C3A5 then { s with cfg := { s.cfg with unlocked := some who, unlkQt := 0 } }
  else { s with cfg := { s.cfg with unlocked := none, keyBad := true, seq := s.cfg.seq + 1 } }

/-- An accepted write to a member: a running pass is abandoned, the commit window opens (R401, R402). -/
def memberWrite (s : State) : State :=
  { s with cfg := { s.cfg with pass := false, winQt := if s.cfg.window then s.cfg.winQt else 0, window := true } }

/-- A write of CFG_REF (R401, R402). -/
def refWrite (s : State) (val : Reg32) : State :=
  let s := regPut s rCfgRef val
  { s with cfg := { s.cfg with armed := true, window := false, pass := false, refPend := true } }

/-- A SNAP (R394). -/
def snapAll (s : State) (clr : Bool) : State :=
  { s with cfg := { s.cfg with hold := s.cfg.live, live := if clr then [] else s.cfg.live, snapSeq := s.cfg.snapSeq + 1 } }

/-! ### Agent ports and probes -/

/-- EN of a port falls: the responses that are ready then are kept for it, those that become ready later are discarded (02 R59;
log entry 27). -/
def keepReady (s : State) (p : PortId) : State :=
  { s with bus := { s.bus with resps := updIf s.bus.resps (fun r => portOf r.who == p && respReady s r) fun r => { r with kept := true } } }

/-- AGP_CFGA or AGP_CFGB (02 R56, R57, R59; 14 R337; 03 R80). -/
def agpWrite (s : State) (p : PortId) (val : Reg32) : State :=
  let old := reg s (rAgpCfg p)
  let s := regPut s (rAgpCfg p) val
  let new := reg s (rAgpCfg p)
  if old.getLsbD 31 && (fld old 13 12 != fld new 13 12 || fld old 5 0 != fld new 5 0) then breach s .r57
  else if fld new 13 12 = 3 then breach s .r337
  else
    let s := if old.getLsbD 31 && !new.getLsbD 31 then keepReady s p else s
    let gone := (List.range 4).filter fun k => old.getLsbD k && !new.getLsbD k
    gone.foldl (fun s k => ackAll s (whoAt p k) true fun _ => true) s

/-- Agents a PRB_REVIVE write names (03 R88). -/
def reviveMask (s : State) (val : Reg32) : BitVec 8 := val.extractLsb' 0 8 &&& s.prb.unresp

def reviveWrite (s : State) (val : Reg32) : State :=
  if reviveMask s val = 0 then s else queueProbe s .invAll (reviveMask s val) { revive := true }

/-! ### Regions, geometry, layout (01 R26, R31; 05 R131) -/

/-- The pool ranges of two enabled regions overlap (01 R26). -/
def poolOverlap (s : State) : Bool :=
  let l := ((List.range 16).filter fun n => attrEn (rgnAttr s n)).map (poolRange s)
  !decide (l.Pairwise fun a b => a.2 ≤ b.1 ∨ b.2 ≤ a.1 ∨ a.1 = a.2 ∨ b.1 = b.2)

/-- A region register (R31, R32). -/
def regionWrite (s : State) (off : Nat) (val : Reg32) : State :=
  let n := (off - 0x2000) / 16
  let old := rgnAttr s n
  let range := poolRange s n
  let before := reg s off
  let s := regPut s off val
  let new := rgnAttr s n
  let filled := attrEn old && !attrDevice old && attrCacheable old
  let fixed := if off % 16 = 12 then (old ^^^ new) &&& 0x00070009 != 0 else before != reg s off
  if s.cch.enabled && fixed && (filled || s.cfg.stale.any (·.region == n)) then breach s .r31
  else if poolOverlap s then breach s .r26
  else if s.cch.enabled && filled && !attrEn new then
    { s with cfg := { s.cfg with
        stale := { region := n, first := range.1, stop := range.2, rung := (List.range 4).map (rungNo s) } :: s.cfg.stale } }
  else if attrEn new then { s with cfg := { s.cfg with stale := s.cfg.stale.filter (·.region != n) } }
  else s

/-- A register that must not change while the cache is enabled; `m` are the bits that must not (R131, 12 R291, 13 R316). -/
def fixedWrite (s : State) (off : Nat) (val m : Reg32) (c : UndefCause) : State :=
  let old := reg s off
  let s := regPut s off val
  if s.cch.enabled && ((old ^^^ reg s off) &&& m) != 0 then breach s c else s

/-! ### Enabling the cache (05 R125, R126) -/

/-- ENFAIL of the first check that fails; 0 when all pass. -/
def enableCheck (s : State) : Nat :=
  if sizeCode s > 3 then 2
  else if 2 ^ (27 + sizeCode s) > cspCapacity s then 3
  else if !s.csp.ready then 4
  else if s.cch.bypass && !s.cfg.okSince then 5
  else if !s.cch.invDone then 1
  else 0

def cacheOn (s : State) : State :=
  match enableCheck s with
  | 0 =>
    let s := resetDetectors { s with
      cch := { s.cch with enabled := true, bypass := false }
      err := { s.err with fBypass := false, fCsloss := false }
      cfg := { s.cfg with stale := [] } }
    queueProbe s .invAll (attachedAgents s) {}
  | c => { s with cch := { s.cch with enFail := BitVec.ofNat 4 c, enSeq := s.cch.enSeq + 1 } }

/-- CCH_CTRL (05 R121, R125, R128). -/
def cchCtrl (s : State) (val : Reg32) : State :=
  if val.getLsbD 0 then (if s.cch.enabled then s else cacheOn s)
  else
    let s := disableCache s
    { s with cfg := { s.cfg with stale := [] } }

/-! ### Command engine registers (09) -/

/-- A ring's register with EN = 0 resets the ring (R206). -/
def resetRing (s : State) (n : Nat) : State :=
  if n < 4 then updRing s n fun r => { r with head := 0, pend := 0, acc := 0, stamps := [] }
  else if n = 4 then { s with eng := { s.eng with cqHead := 0, cqTail := 0, cqPhase := true, cqSaid := false } }
  else { s with eng := { s.eng with eqHead := 0, eqTail := 0, eqPhase := true, eqRuns := false } }

def ringWrite (s : State) (off : Nat) (val : Reg32) : State :=
  let n := (off - 0x5000) / 16
  if s.eng.en then breach s .r206
  else resetRing (regPut (updRing s n fun r => if n < 4 then { r with num := rungNo s n } else r) off val) n

/-- EN of CMD_CTRL (09, R223). -/
def engEnable (s : State) (on : Bool) : State :=
  if on then
    if ringSize s 4 = 0 || ringSize s 5 = 0 then { s with eng := { s.eng with cfgErr := true, seq := s.eng.seq + 1 } }
    else if s.eng.en then s
    else
      let lifted := s.eng.cqHalted
      let s := { s with eng := { s.eng with en := true, starts := true, cqHalted := 0, eqRuns := true } }
      (bitsOf 4 lifted).foldl (fun s n => updRing s n fun r => { r with halt := false }) s
  else { s with eng := { s.eng with en := false, cqErr := false } }

/-- CMD_CTRL (09, R222). -/
def cmdCtrl (s : State) (val : Reg32) : State :=
  let s := (bitsOf 4 (val.extractLsb' 8 4)).foldl (fun s n => updRing s n fun r => { r with abort := true }) s
  let s := (bitsOf 4 (val.extractLsb' 4 4)).foldl (fun s n =>
    updRing { s with eng := { s.eng with cqHalted := setBit s.eng.cqHalted n false } } n fun r => { r with halt := false }) s
  engEnable s (val.getLsbD 0)

/-- CMD_RSW (R229). -/
def rswWrite (s : State) (val : Reg32) : State :=
  match s.eng.window with
  | some w => if val.getLsbD 30 && attrStr (rgnAttr s w.region) == w.new then { s with eng := { s.eng with window := none } } else s
  | none => s

/-- A doorbell (R209, R210). -/
def doorbell (s : State) (n tail : Nat) : State :=
  if ringSize s n = 0 then event s 0 4 (payload [(16, n), (18, tail)])
  else updRing s n fun r => { r with pend := tail }

/-- The head may move to `h`: not past the tail (R213). -/
def headOk (size head tail h : Nat) : Bool :=
  decide (h < size ∧ (h + size - head) % size ≤ (tail + size - head) % size)

/-- CMD_CQ_HEAD or CMD_EQ_HEAD (R213, R214, R237). -/
def headWrite (s : State) (eq : Bool) (val : Reg32) : State :=
  let h := fld val 11 0
  if eq then
    if headOk (ringSize s 5) s.eng.eqHead s.eng.eqTail h && h != s.eng.eqHead then
      let due := s.eng.eqLost != 0 && !s.eng.marker
      { s with eng := { s.eng with eqHead := h, marker := s.eng.marker || due, markTick := if due then tickCnt s else s.eng.markTick } }
    else s
  else if headOk (ringSize s 4) s.eng.cqHead s.eng.cqTail h && h != s.eng.cqHead then
    { s with eng := { s.eng with cqHead := h, cqSaid := false } }
  else s

/-! ### Faults, Memory Port, power -/

/-- ERR_DMA (11 R266). -/
def dmaWrite (s : State) (val : Reg32) : State :=
  (List.range 4).foldl (fun s i =>
    if val.getLsbD (8 + i) && s.err.dmaHalt.getLsbD i && !dmaOutst s i then
      { s with err := { s.err with dmaHalt := setBit s.err.dmaHalt i false } }
    else s) s

/-- ERR_SCREE_CTRL's accepted write (11 R274). -/
def screeWrite (s : State) (val : Reg32) : State :=
  if val.getLsbD 31 && !s.cch.enabled then
    { s with err := { s.err with scree := [], screeSize := 0, screeWays := 0, fScree := false } }
  else s

/-- MEM_LINK_CTRL (12 R303, R473): a hot reset, or PE_PERST_N asserted, takes the data link layer down. -/
def linkCtrl (s : State) (val : Reg32) : State :=
  let was := linkEn s
  let on := perstOffBit s
  let s := regPut s rLinkCtrl val
  let s := if on && !perstOffBit s then linkLost s else s
  let s : State := if was && !linkEn s then
      (if s.mem.dlUp then linkLost s else if s.mem.recov = .training then recoveryProbe s else s)
    else s
  let s : State := if val.getLsbD 29 && s.mem.dlUp then emit { s with mem := { s.mem with retraining := true } } .retrain else s
  if val.getLsbD 28 && s.mem.dlUp then linkLost (emit s .hotReset) else s

/-- MEM_CFGA_CTRL (12 R302). -/
def cfgaCtrl (s : State) (val : Reg32) : State :=
  let s := regPut s rCfgaCtrl val
  if val.getLsbD 31 && !s.mem.cfgBusy && s.mem.dlUp then
    let a := reg s rCfgaAddr
    let c := reg s rCfgaCtrl
    let w := c.getLsbD 8
    let t : Tlp := if w then .cfgWr (a.extractLsb' 12 3) (a.extractLsb' 2 10) (c.extractLsb' 0 4) (reg s rCfgaData)
      else .cfgRd (a.extractLsb' 12 3) (a.extractLsb' 2 10) (c.extractLsb' 0 4)
    pumpCfg { s with mem := { s.mem with cfgBusy := true, cfgRead := !w, cfgWait := some t } }
  else s

/-- CLK_PLL_CFG (14 R347). -/
def pllWrite (s : State) (val : Reg32) : State :=
  let old := (reg s rPllCfg).getLsbD 8
  let s := regPut s rPllCfg val
  if linkEn s && old != (reg s rPllCfg).getLsbD 8 then breach s .r347 else s

/-- CLK_CTRL. -/
def clkCtrl (s : State) (val : Reg32) : State :=
  let s := if val.getLsbD 31 then startRelock s 4 else s
  if val.getLsbD 30 then refBack s else s

/-- PWR_CTRL (15 R379). -/
def pwrCtrl (s : State) (val : Reg32) : State :=
  let s := if val.getLsbD 31 then sleepWrite s else s
  if val.getLsbD 30 then offWrite s else s

/-! ### Posted writes (R395, R396, 17 R409) -/

def isPosted (off : Nat) : Bool := off == rEpochLo || off == rEpochHi || off == rHbCfg || off == rLane

def postedWrite (s : State) (off : Nat) (val : Reg32) : State :=
  if off = rLane then
    if s.pwr.busyPhy then { s with cfg := { s.cfg with dropPhy := true, seq := s.cfg.seq + 1 } }
    else let s := regPut (memberWrite s) off val; { s with pwr := { s.pwr with busyPhy := true } }
  else if s.pwr.busyBr then { s with cfg := { s.cfg with dropBr := true, seq := s.cfg.seq + 1 } }
  else if off = rHbCfg then
    let s := regPut (memberWrite s) off val
    { s with pwr := { s.pwr with busyBr := true } }
  else if s.cch.enabled then s
  else let s := regPut s off val; { s with pwr := { s.pwr with busyBr := true } }

/-! ### Write-back of SEQ (R397) -/

/-- Registers whose bits [31:24] are of type RSQ. -/
def isRsq (off : Nat) : Bool :=
  [0x0014, 0x0024, 0x1004, 0x1010, 0x1014, 0x2108, 0x2124, 0x4004, 0x5108, 0x6014, 0x7000, 0x7010, 0x7014, 0x8040, 0x8044, 0x8050,
   0x9014, 0xA008, 0xB00C, 0xD008].contains off

/-- What a matching write-back clears. -/
def rsqClear (s : State) (off : Nat) : State :=
  match off with
  | 0x0014 => setPort s .A fun q => { q with vcode := 0 }
  | 0x0024 => setPort s .B fun q => { q with vcode := 0 }
  | 0x1004 => { s with prb := { s.prb with toev := 0 } }
  | 0x1010 => setPort s .A fun q => { q with plog := put q.plog 7 0 0 }
  | 0x1014 => setPort s .B fun q => { q with plog := put q.plog 7 0 0 }
  | 0x2108 => { s with cch := { s.cch with enFail := 0 } }
  | 0x2124 => { s with cch := { s.cch with dlog1 := put s.cch.dlog1 19 16 0 } }
  | 0x4004 => { s with qtk := { s.qtk with early := false, loss := false } }
  | 0x5108 => { s with eng := { s.eng with cfgErr := false, eqErr := false } }
  | 0x6014 => { s with icb := { s.icb with log1 := put s.icb.log1 23 20 0 } }
  | 0x7000 => { s with err := { s.err with intStatus := 0 } }
  | 0x7010 => { s with err := { s.err with bypLog := put s.err.bypLog 17 0 0 } }
  | 0x7014 => { s with err := { s.err with ovf := 0 } }
  | 0x8040 => { s with mem := { s.mem with aerCor := 0 } }
  | 0x8044 => { s with mem := { s.mem with aerUnc := 0 } }
  | 0x8050 => { s with mem := { s.mem with vCode := 0 } }
  | 0x9014 => { s with csp := { s.csp with errCode := 0 } }
  | 0xA008 => { s with clk := { s.clk with lol := false, warnEv := false, faultEv := false, lossEv := false } }
  | 0xB00C => { s with pwr := { s.pwr with failRsn := 0 } }
  | 0xD008 => { s with cfg := { s.cfg with dropPhy := false, dropBr := false, keyBad := false, refused := false } }
  | _ => s

def rsqWrite (s : State) (off : Nat) (val : Reg32) : State :=
  if fld (regRead0 s off) 31 24 = fld val 31 24 then rsqClear s off else s

/-! ### What an accepted write does -/

/-- Registers with an effect of their own in the blocks below 0x7000; a write to ICB_CFG clears the recent-write table (10 R247). -/
def writeLow (s : State) (off : Nat) (val : Reg32) : State :=
  if off = 0x0000 then agpWrite s .A val
  else if off = 0x0004 then agpWrite s .B val
  else if off = 0x1008 then reviveWrite s val
  else if 0x2000 ≤ off && off < 0x2100 then regionWrite s off val
  else if off = rGeom then fixedWrite s off val 0x37 .r131
  else if off = 0x2104 then cchCtrl s val
  else if 0x5000 ≤ off && off < 0x5060 then (if (storedRow off).isSome then ringWrite s off val else s)
  else if off = 0x5100 then cmdCtrl s val
  else if off = 0x510C then rswWrite s val
  else if 0x5110 ≤ off && off < 0x5120 then doorbell s ((off - 0x5110) / 4) (fld val 11 0)
  else if off = 0x5130 then headWrite s false val
  else if off = 0x5138 then headWrite s true val
  else if off = rIcbCfg then let s := regPut s off val; { s with icb := { s.icb with recent := [] } }
  else regPut s off val

/-- Those from 0x7000 up. -/
def writeHigh (s : State) (off : Nat) (val : Reg32) : State :=
  if off = 0x700C then dmaWrite s val
  else if 0x7020 ≤ off && off < 0x7038 then
    let s := regPut s off val
    { s with err := { s.err with buckets := updAt s.err.buckets ((off - 0x7020) / 4) fun b => { b with rst := true } } }
  else if off = rScreeCtrl then screeWrite s val
  else if off = rPoolLo || off = rPoolHi || off = rDsize then fixedWrite s off val 0xFFFFFFFF .r291
  else if off = rLinkCtrl then linkCtrl s val
  else if off = rCfgaCtrl then cfgaCtrl s val
  else if off = rCspCfg || off = rTim0 || off = rTim1 then fixedWrite s off val 0xFFFFFFFF .r316
  else if off = rTim2 then fixedWrite s off val 0xFFFF00FF .r316
  else if off = 0x9010 then (if val.getLsbD 31 then cspStart s else s)
  else if off = rPllCfg then pllWrite s val
  else if off = 0xA004 then clkCtrl s val
  else if off = rMon then monRestart (regPut s off val)
  else if off = 0xB000 then pwrCtrl s val
  else if off = 0xD00C then (if val.getLsbD 31 then snapAll s (val.getLsbD 30) else s)
  else if off = rCfgRef then refWrite s val
  else if off = 0xE008 then (if val.getLsbD 31 then mbistStart s ((reg s rMbistSel).extractLsb' 0 9) else s)
  else regPut s off val

/-- The effect of an accepted write; offsets that hold no register store nothing (R384, R387). -/
def writeEffect (s : State) (off : Nat) (val : Reg32) : State :=
  if isRsq off then rsqWrite s off val else if off < 0x7000 then writeLow s off val else writeHigh s off val

/-- The register and value a write at an offset means: an alias word names one bit of its target (R392). -/
def aliased (s : State) (off : Nat) (val : Reg32) : Option (Nat × Reg32) :=
  if off < 0xF000 then some (off, val)
  else (aliasTarget ((off - 0xF000) / 128)).map fun t => (t, setBit (reg s t) ((off - 0xF000) / 4 % 32) (val.getLsbD 0))

/-- A register write is performed by processor agent `who` (R386). -/
def performRegWrite (s : State) (who off : Nat) (val : Reg32) : State :=
  match aliased s off val with
  | none => s
  | some (off, val) =>
    if off = 0xD000 then keyWrite s who val
    else if isPosted off then postedWrite s off val
    else if isKeyed off then
      if s.cfg.unlocked = some who then
        let s := keyedChange { s with cfg := { s.cfg with unlocked := none } }
        writeEffect (if isMember off then memberWrite s else s) off val
      else keyRefuse s who off
    else writeEffect (if isMember off then memberWrite s else s) off val

/-- The probe queue entries the write needs are free (03 R74): those of PRB_REVIVE and of enabling the cache. -/
def regWriteRoom (s : State) (off : Nat) (val : Reg32) : Bool :=
  if off = 0x1008 then
    [PortId.A, PortId.B].all fun p => probePairs s (reviveMask s val) p true == 0 || decide (probeQueueLen s p < 16)
  else if off = 0x2104 then
    !(val.getLsbD 0 && !s.cch.enabled && enableCheck s == 0) || probeRoom s (attachedAgents s)
  else true

def isDoorbell (off : Nat) : Bool := decide (0x5110 ≤ off ∧ off < 0x5120)

/-! ### A register row -/

/-- Requesters whose pairs may be granted at all: not before class-0-ready of a wake, and while a Sleep or Off entry or an MBIST run
quiesces the ports only holders of a lock (15 R361, R364; 18 R422). -/
def grantsOpen (s : State) (who : Nat) : Bool :=
  if s.tst.busy || s.pwr.st == .entering || s.pwr.st == .preparing then (lockOf s who).isSome
  else s.pwr.c0Rdy && s.pwr.st != .offrdy

/-- The agent can send the WRITE that a register row stands for: its port is enabled, its pair attached, it is out of reset sense, and
its store queue has a free entry (02 R39, R58; 15 R359). -/
def rowOpen (s : State) (who : Nat) : Bool :=
  isOn s && portEn s (portOf who) && attached s who && !inReset s who && grantsOpen s who && decide ((storeQueue s who).length < 8)

/-- The WRITE itself, without marks (log entry 80); a doorbell's acts as a release (04 R108). Its OK is no event of the row. -/
def rowWrite (s : State) (who off : Nat) (val : Reg32) : Req :=
  let r : Req :=
    { id := s.bus.nextReq, who := who, tag := 0, cmd := .write, mark := if isDoorbell off then .release else .none, cls := 1, counted := false,
      addr := BitVec.ofNat 48 (windowBase s + off), pool := 0, op := 0, len := 0, mask := (0xF : SectorMask) <<< (off % 64),
      data := (val.setWidth 512) <<< (8 * (off % 64)), cmp := 0, target := .window off, fwdMask := 0, fwdData := 0, phase := .queue,
      queued := true, answered := true, looked := false, miss := false, dur := .idle, own := .idle, result := 0, fail := 0 }
  if heldFull s r then { r with phase := .order } else r

/-- Nothing holds the write back: its queue is empty, full ready has come, and its marks and the order of register accesses are met
(04 R99, R107, R108; 15 R365). -/
def rowFree (s : State) (r : Req) : Bool :=
  (storeQueue s r.who).isEmpty && r.phase == .queue && markMet s r && writeOrderMet s r

/-- A register row: the write is performed at once when it may be, else it waits in its requester's queue (07 R157). -/
def regRow (s : State) (who off : Nat) (val : Reg32) : State :=
  when s (rowOpen s who) fun s =>
    let r := rowWrite s who off val
    if rowFree s r && regWriteRoom s off val then settle (performRegWrite s who off val)
    else settle (addReq { s with bus := { s.bus with nextReq := s.bus.nextReq + 1 } } r)

end Sys2Proof.Machine
end

