-- ==== Sys2Proof/Machine/Retire.lean ====
section
/-! DEFINITION. Retirement from the store queues (07 R158, R159): NORMAL stores, lock commands, watches, DEVICE writes and register
writes, each under the conditions of R158, R99, R104 and R107. -/

namespace Sys2Proof.Machine

/-! ### A DEVICE write's TLPs (12 R292) -/

/-- Byte enables of DW `i` of a sector. -/
def dwMask (m : SectorMask) (i : Nat) : Nat := (m >>> (4 * i)).toNat % 16

/-- One MWr of `n` DWs from DW `i` may carry the mask: one DW with any enables; a QW-aligned pair with any nonzero enables;
longer ones with enabled bytes contiguous. -/
def mwrOk (m : SectorMask) (i n : Nat) : Bool :=
  if n = 1 then dwMask m i != 0
  else if n = 2 && i % 2 = 0 && dwMask m i != 0 && dwMask m (i + 1) != 0 then true
  else decide (2 ≤ n) && [8, 12, 14, 15].contains (dwMask m i) && [1, 3, 7, 15].contains (dwMask m (i + n - 1)) &&
    (List.range (n - 2)).all fun k => dwMask m (i + 1 + k) == 15

/-- The longest such MWr from DW `i` (it ends within the sector); 0 when the DW has no enabled byte. -/
def mwrLen (m : SectorMask) (i : Nat) : Nat :=
  (List.range (16 - i)).foldl (fun a k => if mwrOk m i (k + 1) then k + 1 else a) 0

/-- The MWr TLPs of a mask in ascending order: first DW and length. A tail of an allowed TLP is allowed, so taking the longest
each time gives the fewest. -/
def mwrSplit (m : SectorMask) : Nat → Nat → List (Nat × Nat)
  | 0, _ => []
  | fuel + 1, i =>
    if i ≥ 16 then []
    else match mwrLen m i with
      | 0 => mwrSplit m fuel (i + 1)
      | n => (i, n) :: mwrSplit m fuel (i + n)

def issueDevice (s : State) (r : Req) : State :=
  (mwrSplit r.mask 16 0).foldl (fun s t =>
    let bytes := 4 * t.2
    sendTlp (count s cntMwr) (.mwr (busAddr s (r.pool / 64 * 64 + 4 * t.1)) ((r.data >>> (32 * t.1)).setWidth 4096) bytes
      ((r.mask >>> (4 * t.1)) &&& BitVec.ofNat 64 (2 ^ bytes - 1)))) s

/-! ### Slots for DEVICE writes (07 R166) -/

/-- Requests whose recorded drains are done and which wait for a flush read. -/
def flushWaiting (s : State) : List Nat :=
  (s.bus.reqs.filter fun r => r.dur == .needFlush || r.own == .needFlush).map (·.id)

/-- DEVICE writes at the heads of their queues that wait for nothing but a slot, oldest first. -/
def deviceWaiting (s : State) : List Nat :=
  (s.bus.reqs.filter fun r => ((storeQueue s r.who).head?.map (·.id)) == some r.id && isDevice r && r.phase == .queue && markMet s r &&
    writeOrderMet s r && !writesHeld s).map (·.id)

/-- A DEVICE write is given a slot: waiting flush reads and older waiting DEVICE writes come first, within the 64 slots and the limit of
48. -/
def deviceSlot (s : State) (r : Req) : Bool :=
  let before := (deviceWaiting s).findIdx (· == r.id) + flag (!(flushWaiting s).isEmpty)
  decide (slotsUsed s + before < 64 ∧ slotsLimited s + before < 48)

/-! ### Ends of a retirement -/

/-- The entry leaves its queue and the request is performed. -/
def leaveQueue (s : State) (r : Req) : State := updReq s r.id fun r => { r with queued := false, phase := .done }

/-- It leaves the queue with an answer. -/
def retireWith (s : State) (r : Req) (rsp : Rsp) (beats : List Beat64) : State := respond (leaveQueue s r) r.id rsp beats none

/-- It leaves the queue and its answer waits (R172, 04 R105). -/
def retireWait (s : State) (r : Req) (own : Dur) : State :=
  updReq s r.id fun r => { r with queued := false, phase := .answerWait, own := own }

/-- A DEVICE or register write whose entry failed parity is discarded (10 R256, 11 R263 to R265). -/
def discardWrite (s : State) (r : Req) : State :=
  let s := bufParity s 1 r.who
  if r.who < 8 then retireWith s r .okPoison (List.replicate (r.len + 1) 0)
  else haltDma (retireWith s r .channelHalted []) r.who r.pool 4

/-! ### Kinds of entry -/

/-- A NORMAL store retires (R159); LOCK_WRITE releases its lock in the same cycle (R177); a durable store waits for its own drain
and a further flush (R172). -/
def retireStore (s : State) (r : Req) (perr : Bool) : State :=
  let s := if perr then bufParity s 1 r.who else s
  let s := writeThrough s r (reqData r) (reqMask r) false perr
  let s := if r.cmd = .lockWrite then dropLock s r.who else s
  if r.mark = .durable then
    match openEntry s (reqCb r) with
    | some e => retireWait (markEntry s e.id .durable) r (.drains [e.id] [])
    | none => retireWait s r (.drains [] [])
  else retireWith s r .ok []

/-- The conditions of R158 for a NORMAL store. -/
def storeMayRetire (s : State) (r : Req) (perr : Bool) : Bool :=
  !lockedByOther s (reqCb r) r.who && noEarlierRead s r && entryAvail s r && storeRoom s r false perr

/-- The engine's Sleep or Off entry has reached E2, or an MBIST run quiesces the ports: no watch is left registered (15 R361). -/
def watchesClosed (s : State) : Bool := s.tst.busy || s.pwr.st == .entering || s.pwr.st == .preparing

/-- A WATCH is registered, or answered at once (R179). -/
def retireWatch (s : State) (r : Req) : State :=
  if s.wrb.arms.getD r.who none == some (reqCb r) && s.wrb.armWr.getLsbD r.who then retireWith s r .watchWake []
  else if watchesClosed s then retireWith s r .watchNowriter []
  else updReq s r.id fun r => { r with queued := false, phase := .watching }

/-- A DEVICE write is issued; its OK follows at once, or after the flush read that follows it (04 R105). -/
def retireDevice (s : State) (r : Req) : State :=
  let s := issueDevice s r
  if attrEarly (reqAttr r) && r.mark != .durable then retireWith s r .ok [] else retireWait s r .needFlush

/-- Value a register WRITE carries (16 R383): the four bytes its mask selects, at the window offset. -/
def writeValue (r : Req) (off : Nat) : Reg32 := r.data.extractLsb' (8 * (off % 64)) 32

/-- The broken lock of the owner answers its next LOCK_WRITE or LOCK_ABORT (11 R278). -/
def brokenFor (s : State) (r : Req) : Bool :=
  (r.cmd == .lockWrite || r.cmd == .lockAbort) && r.who < 8 && s.wrb.brk.getLsbD r.who

/-- The oldest entry of a queue, whose mark is met, retires if its other conditions hold. -/
def retireHead (s : State) (r : Req) (perr : Bool) : State :=
  if brokenFor s r then
    let s := if perr then bufParity s 1 r.who else s
    retireWith { s with wrb := { s.wrb with brk := setBit s.wrb.brk r.who false } } r .lockBroken []
  else match r.cmd, r.target with
  | .lockAbort, _ => retireWith (dropLock (if perr then bufParity s 1 r.who else s) r.who) r .ok []
  | .watch, _ =>
    if lockedByOther s (reqCb r) r.who then s else retireWatch (if perr then bufParity s 1 r.who else s) r
  | .atomic, _ =>
    if perr then fetchPass (updReq (bufParity s 1 r.who) r.id fun r => { r with fail := 4 }) { r with fail := 4 } none
    else fetchPass s r none
  | .lockRead, _ => fetchPass (if perr then bufParity s 1 r.who else s) r none
  | _, .window off =>
    let v := writeValue r off
    if !writeOrderMet s r || !regWriteRoom s off v || (isDoorbell off && !releaseMet s r) then s
    else if perr then discardWrite s r
    else retireWith (performRegWrite s r.who off v) r .ok []
  | _, .region _ a =>
    if attrDevice a then
      if !writeOrderMet s r then s
      else if perr then discardWrite s r
      else if writesHeld s || !deviceSlot s r then s
      else retireDevice s r
    else if storeMayRetire s r perr then retireStore s r perr
    else if r.cmd = .writeNt && !entryAvail s r then ntPressure s
    else s
  | _, .nowhere => s

/-- STORE_RETIREMENT for requester `who`: only the oldest entry of the queue may retire. -/
def storeRetire (s : State) (who : Nat) (perr : Bool) : State :=
  match (storeQueue s who).head? with
  | some r => if r.phase = .queue && markMet s r then retireHead s r perr else s
  | none => s

/-- The second pass of an ATOMIC or LOCK_READ whose fetch is complete (R174). -/
def performingPass (s : State) (who : Nat) : State :=
  match (storeQueue s who).head? with
  | some r =>
    if r.phase = .fetched then
      match openEntry s (reqCb r) with
      | some e => performFetch s r e
      | none => s
    else s
  | none => s

end Sys2Proof.Machine
end

