-- ==== Sys2Proof/Machine/Drains.lean ====
section
/-! DEFINITION. Drain slots in use (07 R166 to R173): the start of a drain, completion lookups, the two posted writes, and flush reads. -/

namespace Sys2Proof.Machine

/-! ### Who gets a slot first (R166) -/

/-- Slots taken first, by waiting flush reads and DEVICE writes. -/
def slotsFirst (s : State) : Nat := min (48 - slotsLimited s) ((deviceWaiting s).length + flag (!(flushWaiting s).isEmpty))

/-- A slot is left for a drain after those that come first. -/
def drainSlotLeft (s : State) : Bool := decide (slotsUsed s + slotsFirst s < 64)

/-- A marked entry that a slot can be given to: an NT drain only within the limit of 48. -/
def mayDrain (s : State) (e : Entry) : Bool :=
  e.mark.isSome && (!e.nt || decide (slotsLimited s + slotsFirst s < 48))

/-- The first marked entry in the order of R166 that can obtain a slot. -/
def drainPick (s : State) : Option Entry :=
  (s.wrb.entries.filter (mayDrain s)).foldl (fun a e =>
    match a with
    | none => some e
    | some b =>
      let x := rankKey (e.mark.getD .other)
      let y := rankKey (b.mark.getD .other)
      if x.1 < y.1 ∨ (x.1 = y.1 ∧ x.2 < y.2) then some e else some b) none

/-! ### Completion lookup (R168) -/

/-- The drain completes from the pool, after earlier drains of its codeblock. -/
def completeFromPool (s : State) (t : Slot) : State := updSlot s t.id fun t => { t with stage := .poolWait }

/-- Sectors that hold a missing byte. -/
def missingSectors (t : Slot) : List Nat := sectorsIn (missing t)

def completionLookup (s : State) (t : Slot) : State :=
  let ks := missingSectors t
  let need : BitVec 8 := ks.foldl (fun m k => setBit m k true) 0
  let set := setOf s t.cb
  if !lookable s t.cacheable t.cb then completeFromPool s t
  else if clearingDue s t.cb then s
  else
    match lookup s t.cb need with
    | .parErr bad => tagParity s set bad
    | .filtered => if filteredRoom s t.cb then completeFromPool (dropFiltered s t.cb {}) t else s
    | .hit w =>
      let p := posOf s set w
      if secDue s p need then s
      else if !s.csp.ready then completeFromPool s t
      else if !accRoomFor s false (sectorRuns ks).length then s
      else
        let a := s.csp.nextAcc
        let s := addRuns s (.completion t.id) p ks 0 0 false t.cls
        updSlot s t.id fun t => { t with stage := .cacheRead a }
    | _ => completeFromPool s t

/-! ### The posted writes (R167, R169; 10 R244 to R247) -/

/-- Reads of the codeblock that were issued earlier overlay the drained bytes (R171). -/
def drainedLater (s : State) (t : Slot) (poison : Bool) : State :=
  { s with cch := { s.cch with handlers := updIf s.cch.handlers (·.cb == t.cb) fun h =>
    { h with later := h.later ++ [{ data := t.data, valid := t.own, poison := poison }] } } }

/-- The drain of a codeblock that VERIFY repaired has issued both writes: its unit is done (09 R230). -/
def rewriteDone (s : State) (t : Slot) : State :=
  match t.rewrite with
  | some (n, _) => match getRun s n with | some x => if x.opcode = 7 then unitDone s n else s | none => s
  | none => s

/-- The drain issues its codeblock write and its granule write, and its slot is free. `perr`: the slot failed parity. -/
def drainWrite (s : State) (t : Slot) (perr : Bool) : State :=
  let s := if perr then bufParity s 3 0xFF else s
  let poison := t.poison || perr
  let w := s.icb.gseq
  let g := granuleOf t.data t.str (t.bad || poison) w t.cb
  let s := sendTlp (count s cntMwr) (.mwr (busAddr s (t.cb * 512)) t.data 512 (BitVec.allOnes 64))
  let s := sendTlp (count s cntMwr) (.mwr (busAddr s (granuleAddr s t.cb)) (g.setWidth 4096) 64 (BitVec.allOnes 64))
  let s := recentPut { s with icb := { s.icb with gseq := w + 1 } } t.cb w
  rewriteDone (dropSlot (drainedLater s t poison) t.id) t

/-! ### Flush reads (R172, R173) -/

/-- A flush read for every release whose drains are done. It takes part in the port's round as class 1: no rule gives a flush read a class
(log entry 88; DESIGN CHOICE). It is counted when it is first issued (log entry 89). -/
def flushIssue (s : State) : State :=
  let l := flushWaiting s
  let durable := s.bus.reqs.any fun r => l.contains r.id && r.mark == .durable
  let i := s.wrb.nextSlot
  let s := addSlot (if durable then count s cntFlush else s) (newSlot i (.flush l false))
  let s := { s with bus := { s.bus with reqs := updIf s.bus.reqs (fun r => l.contains r.id) fun r => { r with
    dur := if r.dur = .needFlush then .flushing else r.dur, own := if r.own = .needFlush then .flushing else r.own } } }
  askRead s (.flush i) (flushWord s) 0 1

end Sys2Proof.Machine
end

