-- ==== Sys2Proof/Machine/AgentBus.lean ====
section
/-! DEFINITION. The agent ports: what a tenure brings (02 R45 to R64, 01 R28, R29), the arbiter (02 R39 to R43), response tenures
(R53, R54, R63), reset sense (R60), and the probe channel (03 R74 to R89). -/

namespace Sys2Proof.Machine

/-! ### Tenures -/

/-- What the violation log shows of a tenure's H0: TAG while byte 6 has good parity, ADDR while bytes 0 to 5 have. -/
def seenOf (t : Tenure) : VSeen :=
  let bad := badBytes t.h0
  { tag := if bad.getLsbD 6 then none else some (h0Tag t.h0.ad)
    addr := if fld bad 5 0 = 0 then some (h0Addr t.h0.ad) else none }

/-- H1, the byte mask of a tenure that carries one. -/
def tenureMask (t : Tenure) : SectorMask := ((t.rest.head?).map fun b => b.ad).getD 0

/-- Data beats of a tenure. -/
def tenureData (t : Tenure) : List Beat64 := (t.rest.drop 1).map fun b => b.ad

/-- Rows 0x01 to 0x0D of the violation table, in order; 0 when none applies (R61, R62). -/
def tenureCode (t : Tenure) : Nat :=
  let bad := badBytes t.h0
  let need := beatsAfterH0 t.h0.ad
  if bad.getLsbD 6 then 0x02
  else if bad ≠ 0 then 0x01
  else if (t.rest.take need).any fun b => badBytes b != 0 then 0x03
  else if t.rest.length < need then 0x04
  else if t.overrun || decide (need < t.rest.length) then 0x05
  else formatCode t.who.val t.h0.ad (tenureMask t)

/-- The counter a violation code advances (R62). -/
def codeCounter (p : PortId) (code : Nat) : Nat :=
  if code ≤ 3 then cntAgpPar p else if 6 ≤ code ∧ code ≤ 0x0D then cntAgpFmt p else cntAgpSeq p

/-- A violation is logged and counted. -/
def violation (s : State) (p : PortId) (who : Nat) (v : VSeen) (code : Nat) : State :=
  count (logViolation s p who v code) (codeCounter p code)

def setQuiet (s : State) (p : PortId) (b : Bool) : State := setPort s p fun q => { q with quiet := b }

/-- A request as its header gives it, with number `id`. -/
def blankReq (t : Tenure) (c : ReqCmd) (id : Nat) : Req :=
  let h := t.h0.ad
  { id := id, who := t.who.val, tag := h0Tag h, cmd := c, mark := .none, cls := h0Class h, counted := false, addr := h0Addr h,
    pool := 0, op := h0Op h, len := h0Len h, mask := if carriesData c then tenureMask t else coverMask c (h0Addr h) (h0Len h),
    data := if carriesData c then placeData c (h0Addr h) (tenureData t) else 0, cmp := (tenureData t).getD 1 0, target := .nowhere,
    fwdMask := 0, fwdData := 0, phase := .done, queued := false, answered := false, looked := false, miss := false, dur := .idle,
    own := .idle, result := 0, fail := 0 }

/-- A request that is only answered: its tag is outstanding until the answer (R51). -/
def answerNow (s : State) (t : Tenure) (c : ReqCmd) (rsp : Rsp) : State :=
  let id := s.bus.nextReq
  respond (addReq { s with bus := { s.bus with nextReq := id + 1 } } (blankReq t c id)) id rsp [] none

/-- The UNTAGGED response (R53): the pair is granted nothing until it has been sent. -/
def answerUntagged (s : State) (who : Nat) : State :=
  let p := portOf who
  if inReset s who || !portEn s p then s
  else
    let s := setPort s p fun q => { q with untag := setBit q.untag (pairOf who) true }
    { s with bus := { s.bus with resps := s.bus.resps ++
      [{ who := who, tag := 0, rsp := .protocolErr, beats := [], untagged := true, retry := false, counted := false, req := none,
         cb := none }] } }

/-- PROTOCOL_ERR, with the tag of H0 when byte 6 was good. -/
def protocolAnswer (s : State) (t : Tenure) : State :=
  if (badBytes t.h0).getLsbD 6 then answerUntagged s t.who.val else answerNow s t .barrier .protocolErr

/-! ### Sequence rows 0x0E to 0x10 -/

/-- The lock the requester will hold once its queued lock commands are done, and whether a broken lock is still to be answered
(R176, R177; 11 R278). -/
def lockAhead (s : State) (who : Nat) : Option Nat × Bool :=
  (storeQueue s who).foldl (fun a q =>
    match q.cmd with
    | .lockRead => (some (reqCb q), a.2)
    | .lockWrite | .lockAbort => if a.2 then (a.1, false) else (none, false)
    | _ => a) (lockOf s who, decide (who < 8) && s.wrb.brk.getLsbD who)

/-- The codeblock a lock command names, when its address lies in a region. -/
def lockName (s : State) (a : Nat) : Option Nat :=
  if inWindow s a then none else (rgnOf s a).map fun n => cbOf (poolOf s n a)

/-- Row 0x0F applies. A LOCK_WRITE or LOCK_ABORT whose address names no region's codeblock is left to decode, which refuses it: the
row says 'to another codeblock' (log entry 77; DESIGN CHOICE). -/
def lockViolation (s : State) (who : Nat) (c : ReqCmd) (a : Nat) : Bool :=
  let l := lockAhead s who
  match c with
  | .lockRead => l.1.isSome
  | .lockWrite | .lockAbort =>
    if l.2 then false
    else match l.1 with
      | none => true
      | some cb => match lockName s a with | some x => x != cb | none => false
  | _ => false

/-- A WATCH of the requester is outstanding. -/
def watchBusy (s : State) (who : Nat) : Bool := s.bus.reqs.any fun r => r.who == who && r.cmd == .watch && !r.answered

/-- Rows 0x0E to 0x10, in order; 0 when none applies. -/
def sequenceCode (s : State) (t : Tenure) (c : ReqCmd) : Nat :=
  let who := t.who.val
  if tagBusy s who (h0Tag t.h0.ad) then 0x0E
  else if lockViolation s who c (h0Addr t.h0.ad).toNat then 0x0F
  else if c = .watch ∧ watchBusy s who then 0x10
  else 0

/-! ### Acceptance (01 R18, R28, R29; 08 R193; 11 R266, R278) -/

/-- The decode log of a DECODE_ERR (01 R29). -/
def decodeLog (s : State) (who : Nat) (a : BitVec 48) (reason : Nat) : State :=
  count { s with cch := { s.cch with
    dlog0 := a.extractLsb' 0 32
    dlog1 := word [(24, (fld s.cch.dlog1 31 24 + 1) % 256), (20, who), (16, reason), (0, fld a 47 32)] } } cntDecode

/-- A request decode refused. -/
def refuseReq (s : State) (t : Tenure) (c : ReqCmd) (rsp : Rsp) (reason : Option Nat) : State :=
  answerNow (match reason with | some x => decodeLog s t.who.val (h0Addr t.h0.ad) x | none => s) t c rsp

/-- Commands that take a store queue entry (07 R157). -/
def takesQueue (c : ReqCmd) : Bool :=
  match c with
  | .write | .writeNt | .lockWrite | .lockRead | .lockAbort | .atomic | .watch => true
  | _ => false

/-- A request is admitted in effective class `cls` (01 R18, 08 R193) and takes its place (07 R157, 15 R365). -/
def admitReq (s : State) (t : Tenure) (c : ReqCmd) (m : Mark) (target : Target) (pool cls : Nat) : State :=
  let (s, counted, cls) := admitClass s cls
  let id := s.bus.nextReq
  let r := { blankReq t c id with mark := m, cls := cls, counted := counted, pool := pool, target := target,
                                  phase := .order, queued := takesQueue c }
  let r := if takesQueue c && !heldFull s r then { r with phase := .queue } else r
  let s := addReq { s with bus := { s.bus with nextReq := id + 1 } } r
  if r.phase = .queue && answerAtOnce r then respond s id .ok [] none else s

/-- The record of a broken lock on the codeblock, which the first other request answers (11 R278). An owner's next LOCK_WRITE or
LOCK_ABORT is no such request: it is answered at its retirement. -/
def brokenRecord (s : State) (who : Nat) (c : ReqCmd) (attr : Reg32) (cb : Nat) : Bool :=
  let owners := (c == .lockWrite || c == .lockAbort) && decide (who < 8) && s.wrb.brk.getLsbD who
  !attrDevice attr && !owners && s.wrb.broken.any (·.1 == cb)

/-- A request that breaks no row. -/
def acceptReq (s : State) (t : Tenure) (c : ReqCmd) : State :=
  let h := t.h0.ad
  let who := t.who.val
  let m := (markOf (h0Mark h)).getD .none
  if isHalted s who then answerNow s t c .channelHalted
  else if c = .barrier then admitReq s t c m .nowhere 0 (h0Class h)
  else
    match decodeReq s who c m (h0Addr h) (h0Len h) (tenureMask t) with
    | .refuse rsp reason => refuseReq s t c rsp reason
    | .window off => admitReq s t c m (.window off) 0 (h0Class h)
    | .region n attr p =>
      if brokenRecord s who c attr (cbOf p) then answerNow (clearRecord s (cbOf p)) t c .lockBroken
      else admitReq s t c m (.region n attr) p (max (h0Class h) (attrClass attr))

/-! ### A tenure ends -/

/-- A tenure is due: its pair holds the grant, and it collides with an overrun exactly when it began at that handover (R63). -/
def tenureDue (s : State) (t : Tenure) : Bool :=
  let q := port s (portOf t.who.val)
  isOn s && q.granted == some (pairOf t.who.val) && t.collided == q.collide

/-- A tenure without a parity, sequence or format violation of its own. -/
def tenureRequest (s : State) (t : Tenure) : State :=
  let p := portOf t.who.val
  let c := (cmdOf (h0Cmd t.h0.ad)).getD .barrier
  match sequenceCode s t c with
  | 0x0E => violation s p t.who.val (seenOf t) 0x0E
  | 0 =>
    let s := if t.urg && h0Class t.h0.ad != 0 then violation s p t.who.val (seenOf t) 0x12 else s
    acceptReq s t c
  | code => answerNow (violation s p t.who.val (seenOf t) code) t c .protocolErr

/-- An overrun makes the port quiet; the handover at its tenure's last beat came before it was sampled, and may have started a
tenure (R63). `answer` is the request that the overrun's own answer belongs to. -/
def overrunQuiet (s : State) (p : PortId) (who : Nat) (answer : Option Nat) : State :=
  setPort s p fun q => { q with quiet := true, launch := some (who, answer) }

/-- What a tenure does (R60 to R63). A tenure whose requester was in reset sense at any time of it is discarded. -/
def tenureEffect (s : State) (t : Tenure) : State :=
  let who := t.who.val
  let p := portOf who
  let code := tenureCode t
  let dead := inReset s who || (port s p).dead
  let id := s.bus.nextReq
  let s := setPort s p fun q => { q with granted := none, prevAgent := true, collide := false, dead := false }
  if dead then (if code = 0x05 then overrunQuiet (violation s p who (seenOf t) code) p 15 none else s)
  else if t.collided then protocolAnswer (count s (cntAgpSeq p)) t
  else if code = 0 then tenureRequest s t
  else
    let s := protocolAnswer (violation s p who (seenOf t) code) t
    if code = 0x05 then overrunQuiet s p who (some id) else s

/-- The row of a request command. -/
def tenureRow (s : State) (t : Tenure) : State := when s (tenureDue s t) fun s => settle (tenureEffect s t)

/-! ### Arbitration (R39, R40) -/

def readyResps (s : State) (p : PortId) : List Resp := s.bus.resps.filter fun r => portOf r.who == p && respReady s r

/-- A pair is eligible (R39, 03 R86). -/
def eligible (s : State) (p : PortId) (pins : PortPins) (k : Nat) : Bool :=
  let who := whoAt p k
  portEn s p && attached s who && pins.req.getLsbD k && !inReset s who && decide ((storeQueue s who).length < 8) &&
  !(port s p).untag.getLsbD k && !(decide (who < 8) && unresp s who) && grantsOpen s who

/-- Round robin over six pairs, starting after `last`. -/
def roundRobin (last : Nat) (ok : Nat → Bool) : Option Nat := ((List.range 6).map fun i => (last + 1 + i) % 6).find? ok

/-- What a handover starts. -/
inductive Pick where
  | respond (r : Resp)
  | grant (k : Nat) (urgent : Bool)
  | nothing
  deriving DecidableEq, Repr

/-- R40; a repeat of a collided response comes first (R63), once no back-invalidation of its codeblock is outstanding (03 R84). Step 4
is closed between class-0-ready and full ready (15 R365). -/
def arbitrate (s : State) (p : PortId) (pins : PortPins) : Pick :=
  let q := port s p
  let ready := readyResps s p
  match q.again, ready.find? (·.counted) with
  | some r, _ => if staleData s r then .nothing else .respond r
  | none, some r => .respond r
  | none, none =>
    match roundRobin q.lastUrg fun k => eligible s p pins k && pins.urg.getLsbD k with
    | some k => .grant k true
    | none =>
      let any := if s.pwr.fullRdy then roundRobin q.lastAny fun k => eligible s p pins k else none
      match q.prevAgent, ready.head?, any with
      | true, some r, _ => .respond r
      | _, _, some k => .grant k false
      | _, some r, none => .respond r
      | _, none, none => .nothing

/-- The port may start a tenure: none is granted, and a quiet period has ended (R63). -/
def portFree (s : State) (p : PortId) (pins : PortPins) : Bool :=
  pinsLive s && (port s p).granted.isNone && (!(port s p).quiet || pins.quietMet)

/-- The handover at the last beat of an overrunning tenure is still to be taken: what starts there collides (R40, R63). -/
def launchOpen (s : State) (p : PortId) : Bool :=
  isOn s && (port s p).granted.isNone && (port s p).quiet && (port s p).launch.isSome

/-- The state as that handover saw it: the answer of the overrun itself was queued after it. -/
def atLaunch (s : State) (p : PortId) : State :=
  match (port s p).launch with
  | some (who, id) =>
    { s with bus := { s.bus with resps := s.bus.resps.filter fun r => !(id.isSome && r.who == who && r.req == id) } }
  | none => s

/-- A grant (R41), used or forfeited (R43); `hit`: at the handover of an overrun, so that its tenure collides. -/
def grantPair (s : State) (p : PortId) (k : Nat) (urgent : Bool) (h0 : H0Cycle) (hit : Bool) : State :=
  let s := setPort (emit s (.grant p k)) p fun q => { q with
    quiet := hit, launch := none, lastUrg := if urgent then k else q.lastUrg, lastAny := k }
  match h0 with
  | .driven => setPort s p fun q => { q with granted := some k, collide := hit, dead := false }
  | .forfeited asked => if asked then violation s p (whoAt p k) { tag := none, addr := none } 0x11 else s

/-- The row GRANT: due when the arbiter's choice is a grant. -/
def grantRow (s : State) (p : PortId) (pins : PortPins) (h0 : H0Cycle) : State :=
  let hit := !portFree s p pins
  if hit && !launchOpen s p then s
  else
    match arbitrate (if hit then atLaunch s p else s) p pins with
    | .grant k urgent => grantPair s p k urgent h0 hit
    | _ => s

/-- The data beats of a response as its buffer gives them: `upset` are the bits that have flipped in each; the stored parity is driven
unchanged (10 R255). -/
def respBeats (r : Resp) (upset : List Beat64) : List Beat :=
  r.beats.mapIdx fun i b => { ad := b ^^^ upset.getD i 0, adp := r.par.getD i (beatPar b) }

/-- A response tenure (R54): `collided`: it is sent again, with RETRY, as the first tenure after the quiet period (R63). A buffer that
fails parity is counted, and its bytes go out with the parity they had (10 R255, R256). -/
def sendResp (s : State) (p : PortId) (r : Resp) (collided : Bool) (upset : List Beat64) : State :=
  let rh := rhOf r r.retry
  let out := respBeats r upset
  let s := emit s (.response p { ad := rh, adp := beatPar rh } out)
  let s := (match r.req with
    | some id => updReq s id fun q => { q with answered := true }
    | none => s)
  let s := { s with bus := { s.bus with resps := s.bus.resps.erase r } }
  let s := setPort s p fun q => { q with
    prevAgent := false, launch := none, again := if collided then some { r with retry := true } else none,
    untag := if r.untagged then setBit q.untag (pairOf r.who) false else q.untag }
  if out.any fun b => badBytes b != 0 then bufParity s 5 r.who else s

/-- The row RESPONSE_TENURE: due on an enabled port (R59) when the arbiter's choice is a response; a collided one starts at the
handover of an overrun. -/
def responseRow (s : State) (p : PortId) (pins : PortPins) (collided : Bool) (upset : List Beat64) : State :=
  if portEn s p && (if collided then launchOpen s p else portFree s p pins) then
    match arbitrate (if collided then atLaunch s p else s) p pins with
    | .respond r => settle (sendResp (if collided then s else setQuiet s p false) p r collided upset)
    | _ => s
  else s

/-- x_AVLD_N out of a tenure (code 0x14): an assertion within a quiet period belongs to it. -/
def strayRow (s : State) (p : PortId) : State :=
  when s (pinsLive s && (port s p).granted.isNone && !(port s p).quiet) fun s =>
    setQuiet (violation s p 15 { tag := none, addr := none } 0x14) p true

/-- x_REQ_N on a pair with ATTACHED = 0 (code 0x13). -/
def unattachedRow (s : State) (p : PortId) (k : Nat) : State :=
  when s (pinsLive s && portEn s p && !attached s (whoAt p k)) fun s => violation s p (whoAt p k) { tag := none, addr := none } 0x13

/-! ### Reset sense (R60; 03 R87; 07 R162; 11 R277) -/

/-- A queued command that reset sense discards (07 R162), or a registered watch (07 R179). -/
def resetDrops (r : Req) : Bool :=
  r.phase == .watching ||
  (r.queued && (match r.cmd with | .atomic | .lockRead | .lockWrite | .lockAbort | .watch => true | _ => false))

/-- One such request goes; a fetch into its entry is over, wherever it stands (07 R165). -/
def dropReset (s : State) (r : Req) : State :=
  let s := updReq s r.id fun r => { r with phase := .done, queued := false }
  match openEntry s (reqCb r) with
  | some e => fetchOver s r e
  | none => s

/-- x_RSNS_N of requester `who` is asserted. -/
def resetSense (s : State) (who : Nat) : State :=
  let p := portOf who
  let s := discardResps { s with bus := { s.bus with rsns := setBit s.bus.rsns who true } } fun r => r.who == who
  let s := setPort s p fun q => { q with
    again := q.again.filter fun r => r.who != who, untag := setBit q.untag (pairOf who) false,
    dead := q.dead || q.granted == some (pairOf who) }
  let s := { s with bus := { s.bus with reqs := updIf s.bus.reqs (·.who == who) fun r => { r with answered := true } } }
  let s := (s.bus.reqs.filter fun r => r.who == who && resetDrops r).foldl dropReset s
  if who < 8 then
    let s := ackAll s who true fun _ => true
    match lockOf s who with
    | some cb => breakLock s who cb 2
    | none => s
  else s

/-- x_RSNS_N of requester `who` is deasserted after an assertion: UNRESP and BRK clear (03 R87, 11 R278). -/
def resetEnd (s : State) (who : Nat) : State :=
  let s := { s with bus := { s.bus with rsns := setBit s.bus.rsns who false } }
  if who < 8 then
    { s with prb := { s.prb with unresp := setBit s.prb.unresp who false }, wrb := { s.wrb with brk := setBit s.wrb.brk who false } }
  else s

/-- The ports sample x_RSNS_N of requester `who`: a level that differs from the last sampled one acts. -/
def sampleRsns (s : State) (who : Nat) : State :=
  let pin := s.bus.rsnsPin.getLsbD who
  if pin && !inReset s who then resetSense s who else if !pin && inReset s who then resetEnd s who else s

/-- x_RSNS_N of requester `who` takes a level on the pin, which the ports sample while their inputs act (R60; 19 R426). -/
def rsnsRow (s : State) (who : Nat) (b : Bool) : State :=
  let s := { s with bus := { s.bus with rsnsPin := setBit s.bus.rsnsPin who b } }
  if pinsLive s then settle (sampleRsns s who) else s

/-! ### The probe channel (03) -/

/-- Probes outstanding at pair `k` of a port. -/
def probesAt (s : State) (p : PortId) (k : Nat) : List Probe := s.prb.probes.filter fun x => x.port == p && x.out.any (·.1 == k)

/-- The agents a queued probe may be sent to now (R74, R80): fewer than four outstanding, none queued before it. -/
def probeTargets (s : State) (x : Probe) : BitVec 4 :=
  (List.range 4).foldl (fun m k =>
    let who := whoAt x.port k
    if x.toSend.getLsbD k && probeable s who x.revive && decide ((probesAt s x.port k).length < 4) &&
       !(s.prb.probes.any fun y => y.port == x.port && decide (y.id < x.id) && y.toSend.getLsbD k)
    then setBit m k true else m) 0

/-- The oldest queued probe of a port that may be sent to some agent. -/
def nextProbe (s : State) (p : PortId) : Option Probe := s.prb.probes.find? fun x => x.port == p && probeTargets s x != 0

/-- A probe is sent; a queue entry that failed parity goes out as INV_ALL (10 R256). -/
def sendProbe (s : State) (x : Probe) (perr : Bool) : State :=
  let tgt := probeTargets s x
  let w := probeWord s (if perr then .invAll else x.kind) tgt
  let s := count (emit s (.probe x.port w (probePar w))) (cntPrbProbe x.port)
  let s := { s with prb := { s.prb with probes := updIf s.prb.probes (·.id == x.id) fun y => { y with
    toSend := y.toSend &&& ~~~tgt, out := y.out ++ (bitsOf 4 tgt).map fun k => (k, 0) } } }
  if perr then bufParity s 7 0xFF else s

/-- An acknowledgement of agent `k` is credited to its oldest outstanding probe (R81, R87). -/
def creditAck (s : State) (k : Nat) (x : Probe) : State :=
  let s := prune { s with prb := { s.prb with probes := updIf s.prb.probes (·.id == x.id) fun y => { y with
    out := y.out.filter (·.1 != pairOf k) } } }
  if x.revive then { s with prb := { s.prb with unresp := setBit s.prb.unresp k false } } else s

/-- A run of `cycles` cycles of x_PACK_N[k] (R81, R89). -/
def ackRun (s : State) (k cycles : Nat) (late : Bool) : State :=
  let p := portOf k
  if !attached s k then logProbeViol s p k 3
  else if inReset s k then logProbeViol s p k 4
  else
    match (probesAt s p (pairOf k)).head? with
    | none => logProbeViol s p k 1
    | some x =>
      let s := creditAck s k x
      let s := if late then count s (cntPrbLate p) else s
      if cycles ≥ 2 then logProbeViol s p k 2 else s

/-- A probe at agent `k` has been outstanding for TMO + 1 boundaries (R85). -/
def probeOverdue (s : State) (k : Nat) : Bool :=
  s.prb.probes.any fun x => x.port == portOf k && x.out.any fun o => o.1 == pairOf k && decide (probeTmo s + 1 ≤ o.2)

/-- The timeout at agent `k` (R85, R86). -/
def agentTimeout (s : State) (k : Nat) : State :=
  let s := ackAll (ackAll s k false fun _ => true) k true fun x => !x.revive
  raiseInt (count { s with prb := { s.prb with
    unresp := setBit s.prb.unresp k true, toev := setBit s.prb.toev k true, seq := s.prb.seq + 1 } } (cntPrbTmo (portOf k))) srcPrbTmo

/-- One more boundary for every outstanding probe. -/
def ageProbes (s : State) : State :=
  { s with prb := { s.prb with probes := s.prb.probes.map fun x => { x with out := x.out.map fun o => (o.1, o.2 + 1) } } }

/-- The check of every outstanding probe at a boundary (R85). -/
def probeBoundary (s : State) : State :=
  (List.range 8).foldl (fun s k => if probeOverdue s k then agentTimeout s k else s) (ageProbes s)

end Sys2Proof.Machine
end

