-- ==== Sys2Proof/Machine/EngineRings.lean ====
section
/-! DEFINITION. The command engine's rings (09): descriptor reads (R207, R212, R221), completion and event entries (R213, R214, R223,
R235 to R238), aborts (R222), and step 8 of a boundary: acceptance (R211), assignment (R218) and progress (R232). -/

namespace Sys2Proof.Machine

/-- A request of the engine leaves the list, its result taken. -/
def takeReq (s : State) (id : Nat) : State := { s with bus := { s.bus with reqs := s.bus.reqs.filter (·.id != id) } }

/-! ### Descriptors -/

/-- The descriptor at ring `n`'s head may be read (R212). -/
def descDue (s : State) (n : Nat) : Bool :=
  let r := getRing s n
  isOn s && mayStart s && !r.halt && r.head != r.acc && r.run.isNone && r.held.isNone && r.desc.isNone && decide (ringSize s n ≠ 0)

/-- The descriptor read is issued, or does not decode (R221). -/
def descRead (s : State) (n : Nat) : State :=
  let a := ringBase s n + 64 * (getRing s n).head
  match engDecode s .read a with
  | none => haltRing s n 9
  | some t =>
    let x := engAccess s n .read .none a 0 t
    updRing x.1 n fun r => { r with desc := some x.2 }

/-- The descriptor arrives (R212, R217), or its read has failed (R221): status TIMEOUT for a timeout, POOL_UNCORR for every other
failure. -/
def descArrive (s : State) (n : Nat) (r : Req) : State :=
  let s := updRing (takeReq s r.id) n fun g => { g with desc := none }
  if r.fail ≠ 0 then haltRing s n (if r.fail = 2 then 7 else 6)
  else
    updRing s n fun g => { g with
      head := (g.head + 1) % ringSize s n, num := g.num + 1, held := some r.result, stamp := g.stamps.headD 0, stamps := g.stamps.drop 1 }

/-- The request of the descriptor read, once it is done. -/
def descDone (s : State) (n : Nat) : Option Req :=
  ((getRing s n).desc.bind fun id => getReq s id).filter fun r => r.phase == .done

/-! ### Completion entries -/

/-- Free entries of a ring written by the engine (R213). -/
def freeEntries (size head tail : Nat) : Nat := if size = 0 then 0 else size - 1 - (tail + size - head) % size

def cqFree (s : State) : Nat := freeEntries (ringSize s 4) s.eng.cqHead s.eng.cqTail
def eqFree (s : State) : Nat := freeEntries (ringSize s 5) s.eng.eqHead s.eng.eqTail

/-- The 64 bytes of a completion entry (R235). -/
def entryBytes (s : State) (e : CEntry) : Sector :=
  let sq := if e.ring < 4 then (getRing s e.ring).head else 0
  BitVec.ofNat 512 (e.typ + 2 ^ 8 * (flag s.eng.cqPhase * 128 + e.ring) + 2 ^ 16 * e.opcode + 2 ^ 24 * e.status +
    2 ^ 32 * e.cmdId.toNat + 2 ^ 64 * sq + 2 ^ 80 * e.accTail + 2 ^ 96 * e.pct + 2 ^ 128 * e.next.toNat + 2 ^ 192 * e.count0.toNat +
    2 ^ 256 * e.count1.toNat + 2 ^ 320 * e.errAddr.toNat + 2 ^ 384 * e.tick.toNat)

/-- Mark of a completion entry's write (R219). -/
def entryMark (e : CEntry) : Mark := if e.typ = 3 then (if e.durable then .durable else .release) else .none

/-- Commands are accepted (R211). -/
def accepts (s : State) : Bool := s.eng.en && engineOpen s

/-- Ring `n`'s pending tail is valid (R211). -/
def tailValid (s : State) (n : Nat) : Bool :=
  let r := getRing s n
  let z := ringSize s n
  decide (r.pend < z ∧ (r.acc + z - r.head) % z ≤ (r.pend + z - r.head) % z)

/-- Ring `n` has a pending tail to examine (R211). -/
def tailDue (s : State) (n : Nat) : Bool :=
  accepts s && (getRing s n).pend != (getRing s n).acc && ringSize s n != 0

/-- A completion entry or an acceptance waits to be written. -/
def cqWanted (s : State) : Bool := !s.eng.cents.isEmpty || (List.range 4).any fun n => tailDue s n && tailValid s n

/-- The completion ring has no room: a CQ_FULL event, once until an entry is freed (R214). -/
def cqFullSaid (s : State) : State :=
  if !cqWanted s || cqFree s != 0 || s.eng.cqSaid then s
  else event { s with eng := { s.eng with cqSaid := true } } 0 2 0

/-- An entry whose write does not decode is lost: every ring halts (R223). A lost final entry ends its command. -/
def cqLost (s : State) (e : CEntry) (a : Nat) : State :=
  let now : BitVec 4 := (List.range 4).foldl (fun m n => if (getRing s n).halt then m else setBit m n true) 0
  let s := (List.range 4).foldl (fun s n => updRing s n fun r => { r with halt := true }) s
  let s := { s with eng := { s.eng with cqErr := true, cqHalted := s.eng.cqHalted ||| now } }
  let s := if e.final && e.ring < 4 then finalWritten s e.ring else s
  event s 0 3 (payload [(16, a)])

/-- The oldest completion entry is written at the ring's tail (R207, R208, R213). -/
def cqWrite (s : State) (e : CEntry) : State :=
  let a := ringBase s 4 + 64 * s.eng.cqTail
  let d := entryBytes s e
  let s := { s with eng := { s.eng with cents := s.eng.cents.drop 1 } }
  match engDecode s .write a with
  | none => cqLost s e a
  | some t =>
    let x := engAccess s e.ring .write (entryMark e) a d t
    let s := x.1
    let tail := (s.eng.cqTail + 1) % ringSize s 4
    let w : EngWrite := { req := x.2, ring := e.ring, final := e.final, accepted := e.typ == 1, irq := e.irq, event := false }
    { s with eng := { s.eng with
      cqTail := tail, cqPhase := if tail = 0 then !s.eng.cqPhase else s.eng.cqPhase, writes := s.eng.writes ++ [w] } }

/-- Requester 12's store queue has a free entry (07 R157). -/
def engQueueFree (s : State) : Bool := decide ((storeQueue s 12).length < 8)

/-- The final entry of the 8140's own WAKE_EPOCH is queued when the run ends (15 R368), and written once the probes of its walk are
acknowledged (R219). -/
def probesOwed (s : State) (e : CEntry) : Bool := e.ring == 4 && e.final && s.prb.probes.any (·.ring == some 4)

/-- COMPLETION_ENTRY_WRITE: the oldest entry is written once the ring has a free entry. -/
def cqRow (s : State) : State :=
  match s.eng.cents.head? with
  | some e => if cqFree s = 0 then cqFullSaid s else if probesOwed s e || !engQueueFree s then s else cqWrite s e
  | none => s

/-! ### Event entries -/

/-- An event is lost (R237): counted, and the overflow source raised at the first loss. -/
def eqLose (s : State) (n : Nat) : State :=
  let s := if s.eng.eqLost = 0 && n != 0 then raiseInt s srcEqOvf else s
  { s with eng := { s.eng with eqLost := s.eng.eqLost + BitVec.ofNat 32 n } }

/-- Write one entry at the event ring's tail; one that does not decode is lost (R223). -/
def eqWrite (s : State) (d : Sector) : State :=
  let a := ringBase s 5 + 64 * s.eng.eqTail
  match engDecode s .write a with
  | none =>
    { s with eng := { s.eng with eqErr := true, eqLost := s.eng.eqLost + 1, seq := s.eng.seq + 1 } }
  | some t =>
    let x := engAccess s 4 .write .none a d t
    let s := x.1
    let tail := (s.eng.eqTail + 1) % ringSize s 5
    let w : EngWrite := { req := x.2, ring := 4, final := false, accepted := false, irq := false, event := true }
    { s with eng := { s.eng with
      eqTail := tail, eqPhase := if tail = 0 then !s.eng.eqPhase else s.eng.eqPhase, writes := s.eng.writes ++ [w] } }

def eventBytes (s : State) (e : Event) : Sector :=
  BitVec.ofNat 512 (0x10 + 2 ^ 8 * (flag s.eng.eqPhase * 128 + e.block.toNat) + 2 ^ 16 * e.code.toNat + 2 ^ 64 * e.tick.toNat +
    2 ^ 128 * e.payload.toNat)

/-- The OVERFLOW marker: events that arose before its write are counted in it (R237). -/
def eqMarker (s : State) : State :=
  let s := { s with eng := { s.eng with
    eqLost := s.eng.eqLost + BitVec.ofNat 32 s.eng.events.length, events := [], marker := false } }
  let d : Sector := BitVec.ofNat 512 (0x11 + 2 ^ 15 * flag s.eng.eqPhase + 2 ^ 64 * s.eng.markTick.toNat + 2 ^ 128 * s.eng.eqLost.toNat)
  eqWrite { s with eng := { s.eng with eqLost := 0 } } d

/-- EVENT_ENTRY_WRITE: the marker first, then the oldest event while two entries are free; else it is lost. -/
def eqRow (s : State) : State :=
  if !engQueueFree s then s
  else if s.eng.marker && eqFree s ≠ 0 then eqMarker s
  else match s.eng.events with
    | [] => s
    | e :: l =>
      let d := eventBytes s e
      let s := { s with eng := { s.eng with events := l } }
      if eqFree s ≥ 2 then eqWrite s d else eqLose s 1

/-! ### Step 8 of a boundary -/

/-- An ABORT bit takes effect (R222): the running command stops, and the head moves on at its end; a ring that runs no command skips
what it has accepted. -/
def abortRing (s : State) (n : Nat) : State :=
  let r := getRing s n
  if !r.abort then s
  else
    let s := updRing s n fun r => { r with abort := false }
    match r.run with
    | some x => if x.final then s else updRun (stopRun s n 8 x.issued) n fun x => { x with skip := true }
    | none =>
      let s := (match r.desc with | some id => takeReq s id | none => s)
      let z := ringSize s n
      updRing s n fun r => { r with
        held := none, desc := none, num := r.num + (r.acc + z - r.head) % z, head := r.acc, stamps := [] }

/-- Acceptance of one ring (R211). While the completion ring has no free entry it waits (R214); an invalid pending tail is given up. -/
def acceptRing (s : State) (n : Nat) : State :=
  let r := getRing s n
  let z := ringSize s n
  if !tailDue s n then s
  else if tailValid s n then
    if cqFree s = 0 then s
    else
      let k := (r.acc + z - r.head) % z
      let m := (r.pend + z - r.head) % z
      let s := updRing s n fun r => { r with acc := r.pend, stamps := r.stamps ++ List.replicate (m - k) (tickCnt s) }
      queueEntry s { blankEntry s 1 n with accTail := r.pend }
  else haltRing (updRing s n fun r => { r with pend := r.acc, dueQt := none }) n 9

/-- Boundaries an ACCEPTED entry has been due (15 R371 check 1): counted from the doorbell's first boundary, while R215's conditions on
the ring and the completion ring hold. -/
def dueRing (s : State) (n : Nat) : State :=
  let r := getRing s n
  if r.halt || !s.eng.en then updRing s n fun r => { r with dueQt := none }
  else match r.dueQt with
    | some k => if cqFree s = 0 && cqWanted s then s else updRing s n fun r => { r with dueQt := some (k + 1) }
    | none => if r.pend != r.acc && ringSize s n != 0 then updRing s n fun r => { r with dueQt := some 0 } else s

/-- Ring `n`'s running command still has units to issue on a resource. -/
def needsIt (s : State) (uses : Nat → Bool) (n : Nat) : Bool :=
  match getRun s n with
  | some x => uses x.opcode && !x.final && x.stop.isNone && decide (x.issued < x.total)
  | none => false

/-- The holder for the coming Qt (R218). -/
def nextHolder (s : State) (uses : Nat → Bool) (last : Nat) : Option Nat :=
  match s.eng.epoch with
  | some e => some e.ring
  | none => ((List.range 4).map fun i => (last + 1 + i) % 4).find? (needsIt s uses)

/-- Assignment of the work buffer and the tag walker (R218). -/
def assign (s : State) : State :=
  let b := nextHolder s usesBuffer s.eng.bufLast
  let w := nextHolder s usesWalker s.eng.walkLast
  let last (o : Option Nat) (d : Nat) : Nat := match o with | some n => if n < 4 then n else d | none => d
  { s with eng := { s.eng with buffer := b, walker := w, bufLast := last b s.eng.bufLast, walkLast := last w s.eng.walkLast } }

/-- The command waits for a resource another run holds. -/
def waitsFor (s : State) (n : Nat) (x : Running) : Bool :=
  (usesBuffer x.opcode && s.eng.buffer != some n && needsIt s usesBuffer n) ||
  (usesWalker x.opcode && s.eng.walker != some n && needsIt s usesWalker n)

/-- A WAKE_EPOCH holds a resource the command needs: the time is not counted (R233). -/
def epochHolds (s : State) (n : Nat) (x : Running) : Bool :=
  match s.eng.epoch with
  | some e => e.ring != n && (usesBuffer x.opcode || usesWalker x.opcode)
  | none => false

/-- CMD_PROGn and its NEXT registers (R232, R233). A command runs until its final entry is written (R212). -/
def progWords (s : State) (n : Nat) : Reg32 × BitVec 48 :=
  let r := getRing s n
  match r.run with
  | some x => (word [(28, if waitsFor s n x then 2 else 1), (20, x.opcode), (0, pctOf x)], BitVec.ofNat 48 (nextOf s n x))
  | none => (word [(28, if r.halt then 3 else 0)], 0)

/-- UPD advances for a running command, and when the words of a ring that runs none change. -/
def progRing (s : State) (n : Nat) : State :=
  let r := getRing s n
  let (p, nx) := progWords s n
  if r.run.isSome || put r.prog 19 12 0 != p then
    updRing s n fun r => { r with upd := r.upd + 1, prog := put p 19 12 (r.upd + 1).toNat, next := nx }
  else s

/-- The boundary's part in one running command: Qt counts, and a PROGRESS entry when one is due (R232). -/
def tickRun (s : State) (n : Nat) : State :=
  match getRun s n with
  | none => s
  | some x =>
    if x.final then s
    else
      let s := updRun s n fun x => { x with
        progQt := x.progQt + 1, stuckQt := if epochHolds s n x then x.stuckQt else x.stuckQt + 1 }
      if progIvl s ≠ 0 && decide (progIvl s ≤ x.progQt + 1) && decide (x.progDone < x.doneN) then
        updRun (queueEntry s (runEntry s n x 2 0 (pctOf x))) n fun x => { x with progQt := 0, progDone := x.doneN }
      else s

/-- Step 8. -/
def engineBoundary (s : State) : State :=
  let s := { s with eng := { s.eng with
    starts := s.eng.en, cents := if s.eng.en then s.eng.cents ++ s.eng.held else s.eng.cents,
    held := if s.eng.en then [] else s.eng.held } }
  let s := (List.range 4).foldl abortRing s
  let s := (List.range 4).foldl dueRing s
  let s := (List.range 4).foldl acceptRing s
  let s := assign s
  let s := (List.range 4).foldl (fun s n => tickRun (progRing s n) n) s
  let s := cqFullSaid s
  { s with eng := { s.eng with cqFullQt := if cqFree s = 0 && s.eng.en then s.eng.cqFullQt + 1 else 0 } }

end Sys2Proof.Machine
end

