-- ==== Sys2Proof/Machine/EngineUnits.lean ====
section
/-! DEFINITION. What one step of each command does (09 R225 to R231): the tag walks of INVALIDATE_ALL, REGION_DROP and WAKE_EPOCH (05
R127, 15 R366), PRELOAD, LOCK_WAYS and UNLOCK_WAYS (06 R153, R154), RESTRENGTH and VERIFY (09 R228, R230), the Vault commands (15 R375,
R376), and the revocation page (12 R299 to R301). -/

namespace Sys2Proof.Machine

def walkUnits : Nat := 32768

/-- Issued units of ring `n`'s command. -/
def issueUnit (s : State) (n : Nat) : State := updRun s n fun x => { x with issued := x.issued + 1 }

/-- A unit is issued and performed at once. -/
def wholeUnit (s : State) (n : Nat) : State := unitDone (issueUnit s n) n

/-! ### INVALIDATE_ALL (05 R124, R127; 03 R71) -/

/-- Tag entries [lo, hi) are written all zeros. -/
def zeroTags (s : State) (lo hi : Nat) : State :=
  { s with cch := { s.cch with
    tags := s.cch.tags.filter fun e => !decide (lo ≤ e.1 ∧ e.1 < hi)
    known := if lo ≤ s.cch.known then max s.cch.known hi else s.cch.known } }

/-- The last tag entry has been written: INV_DONE, and INV_ALL to the attached agents. -/
def invEnd (s : State) (n : Nat) (x : Running) : State :=
  let s := if x.keyed then s else { s with cch := { s.cch with invDone := true } }
  queueProbe s .invAll (attachedAgents s) { ring := some n }

/-- The next `k` units. -/
def invStep (s : State) (n k : Nat) (x : Running) : State :=
  let k := min k (walkUnits - x.doneN)
  let last := x.doneN + k = walkUnits
  if k = 0 || (last && !probeRoom s (attachedAgents s)) then s
  else
    let s := zeroTags s (64 * x.doneN) (64 * (x.doneN + k))
    let s := updRun s n fun x => { x with issued := x.issued + k, doneN := x.doneN + k, stuckQt := 0 }
    if last then invEnd s n x else s

/-! ### Walks over valid and pending entries (09 R226, 15 R366) -/

/-- Positions in [lo, hi) that are listed or pending, rising. -/
def walkPositions (s : State) (lo hi : Nat) : List Nat :=
  let inside (p : Nat) : Bool := decide (lo ≤ p ∧ p < hi)
  let listed := (s.cch.tags.filter fun e => inside e.1).map fun e => (e.1, ())
  let pend := s.cch.handlers.filterMap fun h => if isFill h.kind && !h.cancelled then h.pos.filter inside else none
  (pend.foldl (fun m p => minsert p () m) listed).map (·.1)

/-- The codeblock of a valid or pending position. -/
def posBlock (s : State) (p : Nat) : Option Nat :=
  if valid (tagAt s p) then some (cbAtPos s p)
  else (s.cch.handlers.find? fun h => isFill h.kind && !h.cancelled && h.pos == some p).map (·.cb)

/-- Fills that invalidating a position cancels. -/
def fillsAt (s : State) (p : Nat) : Nat :=
  (s.cch.handlers.filter fun h => !h.cancelled && h.pos == some p && (isFill h.kind || (h.kind == .sectorMiss && valid (tagAt s p)))).length

/-- Tally of a walk: state, entries invalidated, fills cancelled, and whether every entry could be dealt with (probe queues have room). -/
structure Walk where
  st    : State
  inval : Nat
  fills : Nat
  room  : Bool

/-- One position of a walk. -/
def walkPos (inRange : Nat → Bool) (f : ProbeFor) (a : Walk) (p : Nat) : Walk :=
  match a.room, (posBlock a.st p).filter inRange with
  | true, some _ =>
    if invalRoom a.st p then
      { st := invalPos a.st p f, inval := a.inval + 1, fills := a.fills + fillsAt a.st p, room := true }
    else { a with room := false }
  | _, _ => a

/-- Positions [lo, hi) of a walk; `inRange` selects pool codeblocks. -/
def walk (s : State) (lo hi : Nat) (inRange : Nat → Bool) (f : ProbeFor) : Walk :=
  (walkPositions s lo hi).foldl (walkPos inRange f) { st := s, inval := 0, fills := 0, room := true }

/-- One probe of a walk over undefined tags, while the probe queues have room (03 R74). -/
def freeProbe (n : Nat) (a : State × Bool) (p : BitVec 44 × BitVec 8) : State × Bool :=
  if a.2 && probeRoom a.1 p.2 then (queueProbe a.1 (.inv p.1.toNat) p.2 { ring := some n }, true) else (a.1, false)

/-- A REGION_DROP walked over undefined tags: its counts are free, and the probes it may queue are (R226). While a probe waits for room
the walk makes no progress; what it still finds then is free anew. -/
def dropUndefined (s : State) (n : Nat) : State × Bool :=
  let (i, s) := nextFree s
  let (j, s) := nextFree s
  let (s, room) := (Config.freeDropProbes i).foldl (freeProbe n) (s, true)
  (updRun s n fun x => { x with count0 := Config.freeCount i, count1 := Config.freeCount j }, room)

/-- Recent-write entries of a pool range are cleared (10 R247). -/
def dropRecent (s : State) (r : Nat × Nat) : State :=
  { s with icb := { s.icb with recent := s.icb.recent.filter fun e => !inPool r (e.1 * 512) } }

/-- REGION_DROP: the next `k` units. -/
def dropStep (s : State) (n k : Nat) (x : Running) : State :=
  let r := (x.addr, x.addr + x.len)
  let k := min k (walkUnits - x.doneN)
  if k = 0 then s else
  let s := if x.begun then s else updRun (dropRecent s r) n fun x => { x with begun := true }
  let w := walk s (64 * x.doneN) (64 * (x.doneN + k)) (fun cb => inPool r (cb * 512)) { ring := some n }
  let s := addCount1 (addCount0 w.st n w.inval) n w.fills
  let (s, room) := if w.room && s.cch.known < 64 * (x.doneN + k) then dropUndefined s n else (s, w.room)
  if room then updRun s n fun x => { x with issued := x.issued + k, doneN := x.doneN + k, stuckQt := 0 } else s

/-! ### PRELOAD, LOCK_WAYS, UNLOCK_WAYS (06 R153, R154) -/

/-- The codeblock of unit `u` decodes as an access of its own (R221): region, attributes, pool codeblock. -/
def unitBlock (s : State) (x : Running) (u : Nat) : Option (Reg32 × Nat) :=
  (engDecode s .read (x.addr + 512 * u)).map fun t => (t.2.1, cbOf t.2.2)

/-- A unit is skipped: counted in COUNT0. -/
def skipUnit (s : State) (n : Nat) : State := unitDone (addCount0 s n 1) n

/-- A step's fill of a codeblock; `none` when it has to wait for the probe queues or for its command's handlers. -/
def preloadFill (s : State) (n u cb : Nat) (attr : Reg32) (mask : Option (BitVec 16)) (counted again : Bool) (held : Option Nat) :
    Option State :=
  if !fillRoom s cb false mask then none
  else
    withUnit s n u attr cb counted again held fun s i =>
      if s.err.fPoolDown then stopRun s n 7 u
      else
        let h := newHandler i (.preload n u) cb 12 (strengthFor s cb (attrStr attr)) counted (unitClass n attr counted) []
        match fillStart s h mask with
        | some s => s
        | none => skipUnit s n

/-- The missing sectors of an entry are refetched, or the step joins a refetch in flight (06 R143). -/
def preloadSectors (s : State) (n u cb p : Nat) (attr : Reg32) (counted again : Bool) (held : Option Nat) : Option State :=
  match smissOf s p cb with
  | some h => some (updHandler s h.idx fun h => { h with units := h.units ++ [(n, u)] })
  | none =>
    withUnit s n u attr cb counted again held fun s i =>
      if s.err.fPoolDown then stopRun s n 7 u
      else
        let h := newHandler i .sectorMiss cb 12 (strengthFor s cb (attrStr attr)) counted (unitClass n attr counted) []
        readFor s { h with pos := some p, units := [(n, u)] }

/-- One PRELOAD step's decision; `again`: it has waited for a fill in flight before; `held`: a handler it was given. None: it has to wait
before its lookup. Outside its way mask an entry is invalidated, a locked one too: R153 excepts none, and R155's list of what clears LOCK
does not name PRELOAD (log entry 83; DESIGN CHOICE). -/
def preloadDecide (s : State) (n u : Nat) (x : Running) (attr : Reg32) (cb : Nat) (counted again : Bool) (held : Option Nat) :
    Option State :=
  let set := setOf s cb
  let mask := if x.wmask then some x.ways else none
  let age0 (s : State) (p : Nat) : State := tagPut s p { tagAt s p with age := 0 }
  if !lookable s (attrCacheable attr) cb then some (skipUnit s n)
  else if clearingDue s cb then none
  else
    match lookup s cb 0xFF with
    | .parErr bad => some (tagParity s set bad)
    | .filtered => if filteredRoom s cb then some (skipUnit (dropFiltered s cb { ring := some n }) n) else none
    | .hit w =>
      let p := posOf s set w
      if !x.wmask || x.ways.getLsbD w then some (unitDone (age0 s p) n)
      else if !invalRoom s p then none
      else preloadFill (invalPos s p { ring := some n }) n u cb attr mask counted again held
    | .smiss w =>
      let p := posOf s set w
      if !x.wmask || x.ways.getLsbD w then preloadSectors (age0 s p) n u cb p attr counted again held
      else if !invalRoom s p then none
      else preloadFill (invalPos s p { ring := some n }) n u cb attr mask counted again held
    | .miss =>
      match fillOf s cb with
      | some h =>
        if again then some (skipUnit s n)
        else some (updHandler (unitWait s n u attr cb false true) h.idx fun h => { h with waits := h.waits ++ [(n, u)] })
      | none => preloadFill s n u cb attr mask counted again held

/-- A parity error keeps the unit: it re-enters after the set clearing (11 R268). -/
def keepsUnit (s : State) (attr : Reg32) (cb : Nat) : Bool :=
  lookable s (attrCacheable attr) cb && !clearingDue s cb && (match lookup s cb 0xFF with | .parErr _ => true | _ => false)

/-- A waiting PRELOAD unit whose fill in flight has installed or was cancelled. -/
def reentry (s : State) (n : Nat) (x : Running) : Option UnitWait :=
  x.waiting.find? fun w => w.age.isNone && !s.cch.handlers.any fun h => !h.cancelled && h.waits.contains (n, w.unit)

/-- A waiting PRELOAD unit re-enters, with what it was decoded to; `held` is a handler it was given. -/
def preloadAgain (s : State) (n : Nat) (x : Running) (w : UnitWait) (held : Option Nat) : State :=
  let counted := x.c0.contains w.unit
  if keepsUnit s w.attr w.cb then (preloadDecide s n w.unit x w.attr w.cb counted w.again held).getD s
  else (preloadDecide (unitGo s n w.unit) n w.unit x w.attr w.cb counted w.again held).getD s

/-- PRELOAD: the next unit is issued. -/
def preloadStep (s : State) (n : Nat) (x : Running) : State :=
  if x.total ≤ x.issued then s
  else
    match unitBlock s x x.issued with
    | none => stopRun s n 4 x.issued
    | some (attr, cb) =>
      let (s1, counted) := admitUnit s n x.issued attr
      if keepsUnit s attr cb then (preloadDecide s1 n x.issued x attr cb counted false none).getD s
      else (preloadDecide (issueUnit s1 n) n x.issued x attr cb counted false none).getD s

/-- The PRELOAD of ring `n` goes on: a waiting unit re-enters, else the next one is issued if `due`. -/
def preloadRow (s : State) (n : Nat) (due : Bool) : State :=
  match getRun s n with
  | none => s
  | some x =>
    if x.opcode ≠ 2 || x.final then s
    else match reentry s n x with
      | some w => preloadAgain s n x w none
      | none => if due && x.stop.isNone then preloadStep s n x else s

/-- Locked ways of a set. -/
def lockedWays (s : State) (set : Nat) : Nat :=
  ((liveWays s set).filter fun w => let t := tagAt s (posOf s set w); valid t && t.lock).length

/-- LOCK_WAYS (`lock`) or UNLOCK_WAYS on an entry in a way of the mask. -/
def lockEntry (s : State) (n set p : Nat) (lock : Bool) : State :=
  let t := tagAt s p
  if !lock then wholeUnit (tagPut s p { t with lock := false }) n
  else if t.lock then wholeUnit s n
  else if lockedWays s set + 1 > lockMax s then skipUnit (issueUnit s n) n
  else wholeUnit (tagPut s p { t with lock := true }) n

/-- One unit of LOCK_WAYS or UNLOCK_WAYS: a codeblock skipped or not found is counted. -/
def lockStep (s : State) (n : Nat) (x : Running) (lock : Bool) : State :=
  if x.total ≤ x.issued then s
  else
    match unitBlock s x x.issued with
    | none => stopRun s n 4 x.issued
    | some (attr, cb) =>
      let set := setOf s cb
      let miss (s : State) : State := skipUnit (issueUnit s n) n
      let s1 := (admitUnit s n x.issued attr).1
      if !lookable s (attrCacheable attr) cb then miss s1
      else if clearingDue s cb then s
      else
        match lookup s cb 0 with
        | .parErr bad => tagParity s1 set bad
        | .filtered => if filteredRoom s cb then miss (dropFiltered s1 cb { ring := some n }) else s
        | .hit w => if x.ways.getLsbD w then lockEntry s1 n set (posOf s set w) lock else miss s1
        | .smiss w => if x.ways.getLsbD w then lockEntry s1 n set (posOf s set w) lock else miss s1
        | .miss => miss s1

/-! ### RESTRENGTH and VERIFY (09 R228, R230) -/

/-- The codeblock's entry can be taken by a rewriting unit. -/
def rewriteRoom (s : State) (cb : Nat) (counted : Bool) : Bool :=
  match openEntry s cb with
  | some e => !e.fetching && e.rewrite.isNone
  | none => mergeAvail s counted

/-- RESTRENGTH: step 1 of the next unit. -/
def restrengthStep (s : State) (n : Nat) (x : Running) : State :=
  if x.total ≤ x.issued then s
  else
    match unitBlock s x x.issued, s.eng.window with
    | some (attr, cb), some w =>
      let (s', counted) := admitUnit s n x.issued attr
      if !rewriteRoom s cb counted || windowBusy s cb then s
      else
        let s := { s' with eng := { s'.eng with window := some { w with busy := w.busy ++ [cb] } } }
        beginRewrite (issueUnit s n) n x.issued cb w.new (unitClass n attr counted) (attrCacheable attr)
    | none, _ => stopRun s n 4 x.issued
    | _, none => s

/-- VERIFY: the pool read of unit `u` of codeblock `cb`, on a handler it was given or one it takes. -/
def verifyRead (s : State) (n u : Nat) (attr : Reg32) (cb : Nat) (counted : Bool) (held : Option Nat) : Option State :=
  withUnit s n u attr cb counted false held fun s i =>
    unitRead s n u cb (strengthFor s cb (attrStr attr)) (unitClass n attr counted) (attrCacheable attr) i

/-- VERIFY: the pool read of the next unit, after every earlier drain of the codeblock. -/
def verifyStep (s : State) (n : Nat) (x : Running) : State :=
  if x.total ≤ x.issued then s
  else
    match unitBlock s x x.issued with
    | none => stopRun s n 4 x.issued
    | some (attr, cb) =>
      if s.wrb.slots.any (fun t => t.kind == .drain && t.cb == cb) || windowBusy s cb then s
      else
        let (s', counted) := admitUnit s n x.issued attr
        match verifyRead s' n x.issued attr cb counted none with
        | some s => issueUnit s n
        | none => s

/-- A unit that waited for a miss handler re-enters the lookup pipeline holding `i` (06 R134). -/
def grantUnit (s : State) (n : Nat) (x : Running) (w : UnitWait) (i : Nat) : State :=
  let s1 := unitGo s n w.unit
  let counted := x.c0.contains w.unit
  match x.opcode with
  | 2 => preloadAgain s n x w (some i)
  | 10 =>
    (match s.eng.epoch with
     | some e => if e.failed then s1 else pageRead s1 n w.unit counted i
     | none => s1)
  | _ =>
    match s.wrb.entries.find? fun e => e.rewrite == some (n, w.unit) with
    | some e => feedRewrite s1 e (some i)
    | none => if x.opcode = 7 then (verifyRead s1 n w.unit w.attr w.cb counted (some i)).getD s else s1

/-- Counts of a codeblock that a pool read of RESTRENGTH or VERIFY brought (R228, R230, R235). -/
def countRead (s : State) (n u fixed : Nat) (bad : Bool) : State :=
  if bad then noteErr (addCount1 s n 1) n u else if fixed ≠ 0 then addCount0 s n 1 else s

/-- The work buffer failed parity (10 R256): the unit is redone once from its source (true), or the command stops. -/
def bufferBad (s : State) (n u : Nat) (x : Running) : State × Bool :=
  let s := bufParity s 6 12
  if x.redo.contains u then (unitDrop (stopRun s n 6 u) n u, false)
  else (updRun s n fun x => { x with redo := u :: x.redo }, true)

/-- The unit's pool read is issued once more on the handler it holds. -/
def unitReread (s : State) (h : Handler) : State :=
  if s.err.fPoolDown then updHandler s h.idx fun x => { x with data := some (0, 2) }
  else askBlock (updHandler s h.idx fun x => { x with data := none, cbData := none, grData := none }) (.handler h.idx) h.cb
    (portClass h.counted h.cls)

/-- A pool read of RESTRENGTH or VERIFY has ended: handler `h` brings unit `u` its codeblock. -/
def unitArrive (s : State) (n u : Nat) (x : Running) (h : Handler) (b : Block) (fail : Nat) (perr : Bool) : State :=
  let bad := fail ≠ 0
  let e := s.wrb.entries.find? fun e => e.rewrite == some (n, u)
  if perr then
    let (s, again) := bufferBad s n u x
    if again then unitReread s h else dropHandler s h.idx
  else
    let s := dropHandler s h.idx
    if fail = 2 then unitTimeout s n u
    else if x.opcode = 6 then (match e with | some e => rewriteFed (countRead s n u h.fixed bad) e b bad | none => s)
    else
      match e with
      | some e => if bad then unitDone (countRead (unitDrop s n u) n u 0 true) n else rewriteFed s e b false
      | none =>
        let s := countRead s n u h.fixed bad
        if x.repair && !bad && h.fixed ≠ 0 && rewriteRoom s h.cb h.counted && !windowBusy s h.cb then
          beginRewrite s n u h.cb h.str h.cls h.cacheable
        else unitDone s n

/-- VERIFY with REPAIR may take the codeblock's entry, or has nothing to repair; until then its data waits. -/
def repairReady (s : State) (x : Running) (h : Handler) (fail : Nat) : Bool :=
  !(x.opcode == 7 && x.repair && fail == 0 && h.fixed != 0) ||
  s.wrb.entries.any (fun e => e.cb == h.cb && e.rewrite.isSome) || (rewriteRoom s h.cb h.counted && !windowBusy s h.cb)

/-! ### The Vault commands (15 R375, R376) -/

/-- Bytes that a VAULT_LOAD takes from the slot of its user content. -/
def loadBytes (v : BitVec 65536) (x : Running) : Nat := min (256 * slotUserN v) x.len

/-- Units of the Scree part of a VAULT_LOAD. -/
def screeUnits (s : State) (x : Running) : Nat := if x.param.getLsbD 2 && (newestWith s 2).isSome then 16 else 0

/-- The first step of a Vault command: a save composes its image, a load finds its content. -/
def vaultBegin (s : State) (n : Nat) (x : Running) : State :=
  if x.opcode = 8 then
    let (i, s) := nextFree s
    let eq := Config.freeEqualisation i
    updRun s n fun x => { x with image := some (vaultTarget s, vaultImage s x.param x.user (x.len / 256) eq) }
  else
    let slot := if x.param.getLsbD 3 then newestWith s 3 else none
    let v := match slot with | some i => slotAt s i | none => 0
    let user := match slot with | some _ => loadBytes v x / 256 | none => 0
    updRun s n fun x => { x with image := some (slot.getD 0, v), total := screeUnits s x + user }

/-- One 64-byte access of a Vault command to its agent range. -/
def vaultAccess (s : State) (n : Nat) (x : Running) (c : ReqCmd) (d : Sector) : State :=
  match engDecode s c (x.addr + x.src) with
  | none => stopRun s n 4 x.issued
  | some t =>
    let (s, id) := engAccess s n c .none (x.addr + x.src) d t
    updRun s n fun x => { x with req := some id }

/-- VAULT_SAVE: a read of the source, the image, or the next 256 bytes; the header goes last. -/
def saveStep (s : State) (n : Nat) (x : Running) : State :=
  if x.req.isSome then s
  else if x.param.getLsbD 3 && decide (x.src < x.len) then vaultAccess s n x .read 0
  else
    match x.image with
    | none => vaultBegin s n x
    | some (i, img) =>
      if x.total ≤ x.doneN then s
      else
        let s := updRun (saveUnit s i x.doneN img) n fun x => { x with
          issued := x.issued + 1, doneN := x.doneN + 1, stuckQt := 0, count0 := x.count0 + 256 }
        if x.doneN + 1 = x.total then vaultSaved s i 1 img else s

/-- VAULT_LOAD: the next 256 bytes of the Scree list, or 64 bytes of the user area. -/
def loadStep (s : State) (n : Nat) (x : Running) : State :=
  if x.req.isSome then s
  else
    match x.image with
    | none => vaultBegin s n x
    | some (_, v) =>
      if x.total ≤ x.doneN then s
      else if x.src = 0 && x.param.getLsbD 2 && decide (x.doneN < 16) && (newestWith s 2).isSome then
        let s := updRun s n fun x => { x with
          issued := x.issued + 1, doneN := x.doneN + 1, stuckQt := 0, count0 := x.count0 + 256 }
        if x.doneN = 15 then (match newestWith s 2 with | some i => loadScree s i | none => s) else s
      else if engQueueFree s then vaultAccess s n x .write (BitVec.ofNat 512 (slotFld v (0x1400 + x.src) 64))
      else s

/-- The 64-byte access of a Vault command is over: `r` is the read, none a retired write. -/
def vaultArrive (s : State) (n : Nat) (x : Running) (r : Option Req) (perr : Bool) : State :=
  match r with
  | some r =>
    let s := updRun (takeReq s r.id) n fun x => { x with req := none }
    if perr then (bufferBad s n x.issued x).1
    else if r.fail ≠ 0 then stopRun s n (if r.fail = 2 then 7 else 6) x.issued
    else updRun s n fun x => { x with
      src := x.src + 64, user := x.user ||| ((r.result.setWidth 24576) <<< (8 * x.src)) }
  | none =>
    let s := updRun s n fun x => { x with req := none, src := x.src + 64 }
    if perr then (bufferBad (updRun s n fun y => { y with src := x.src }) n x.issued x).1
    else if (x.src + 64) % 256 = 0 then
      updRun s n fun x => { x with issued := x.issued + 1, doneN := x.doneN + 1, stuckQt := 0, count0 := x.count0 + 256 }
    else s

/-! ### COMMAND_UNIT_DONE (09 R231) -/

/-- A unit's data read from the cache for its entry (R228 step 2). -/
def cacheArrive (s : State) (n u : Nat) (x : Running) (b : Block) (perr : Bool) : State :=
  let s := updRun s n fun x => { x with got := x.got.drop 1 }
  if perr then (bufferBad s n u x).1
  else
    match s.wrb.entries.find? fun e => e.rewrite == some (n, u) with
    | some e => rewriteFed s e b false
    | none => s

/-- The data of a PRELOAD's fill failed parity in the work buffer: it is fetched once more, and a second error stops the command (10 R256);
the fill goes on for whoever else waits on it. -/
def fillRedo (s : State) (n : Nat) (x : Running) : State :=
  match s.cch.handlers.find? fun h => h.data.isSome && (match h.kind with | .preload r _ => r == n | _ => false) with
  | some h =>
    match h.kind with
    | .preload _ u => let (s, again) := bufferBad s n u x; if again then unitReread s h else s
    | _ => s
  | none => s

/-- What ring `n`'s command takes next: data from the cache, the data of a handler, or the access of a Vault command. -/
def unitArrival (s : State) (n : Nat) (perr : Bool) : State :=
  match getRun s n with
  | none => s
  | some x =>
    match x.got.head? with
    | some (u, b) => cacheArrive s n u x b perr
    | none =>
      let ready := s.cch.handlers.find? fun h => match h.kind, h.data with
        | .unit r _, some (_, f) => r == n && repairReady s x h f
        | _, _ => false
      match ready with
      | some h =>
        match h.kind, h.data with
        | .unit _ u, some (b, f) => unitArrive s n u x h b f perr
        | _, _ => s
      | none =>
        match x.req with
        | none => if x.opcode = 2 && perr then fillRedo s n x else s
        | some id =>
          match getReq s id with
          | some r => if r.phase = .done && isRead r.cmd then vaultArrive s n x (some r) perr else s
          | none => vaultArrive s n x none perr

/-! ### WAKE_EPOCH (12 R299 to R301; 15 R366 to R368) -/

/-- The revocation page as a number, lowest byte first. -/
def pageNum (l : List (Option Block)) : Nat := l.foldr (fun b a => ((b.map (·.toNat)).getD 0) + 2 ^ 4096 * a) 0

def pageFld (p lo n : Nat) : Nat := (p >>> (8 * lo)) % 2 ^ (8 * n)

/-- Used entries of a page: epoch, base, length. -/
def pageEntries (p : Nat) : List (Nat × Nat × Nat) :=
  (List.range (min 32 (pageFld p 6 2))).map fun i =>
    (pageFld p (64 + 32 * i) 8, pageFld p (72 + 32 * i) 8, pageFld p (80 + 32 * i) 8)

/-- CRC of the page with its CRC field taken as 0. -/
def pageCrc (p : Nat) : Reg32 := crc32 (numBytes 24 p ++ numBytes 4 0 ++ numBytes 4068 (p >>> 224))

/-- The page is valid (12 R300). -/
def pageValid (s : State) (p : Nat) : Bool :=
  let epoch := pageFld p 8 8
  let floor := pageFld p 16 8
  pageFld p 0 4 == 0x50564552 && pageFld p 4 2 == 1 && pageFld p 24 4 == (pageCrc p).toNat &&
  decide (pageFld p 6 2 ≤ 32 ∧ floor ≤ epoch) &&
  (pageEntries p).all fun e => decide (floor < e.1 ∧ e.1 ≤ epoch ∧ e.2.1 % 65536 = 0 ∧ e.2.2 % 65536 = 0 ∧ e.2.2 ≠ 0 ∧
    e.2.1 + e.2.2 ≤ dataEnd s)

/-- The outcome (12 R301), with the pool ranges it covers. -/
def pageOutcome (s : State) (failed : Bool) (p : Nat) : Outcome3 × List (Nat × Nat) :=
  let all : List (Nat × Nat) := [(0, dataEnd s)]
  let seen := s.mem.seen.toNat
  if failed || !pageValid s p then (.full, all)
  else if pageFld p 8 8 = seen then (.none, [])
  else if pageFld p 8 8 < seen ∨ seen < pageFld p 16 8 then (.full, all)
  else (.drop, ((pageEntries p).filter fun e => decide (seen < e.1)).map fun e => (e.2.1, e.2.1 + e.2.2))

/-- The page read falls due; it fails at once when the link is not in L0 (15 R366 step 1). Its eight parts of 512 bytes are read as the
engine finds miss handlers for them. -/
def pageDue (s : State) (ok : Bool) : State :=
  updEpoch s fun e => { e with started := true, failed := e.failed || !ok || s.err.fPoolDown }

/-- The page has arrived whole, or its read has failed and no part of it is outstanding. -/
def pageOver (s : State) (e : Epoch) : Bool := e.started && e.decided.isNone && (e.page.all Option.isSome || (e.failed && !pagesOut s))

/-- SEEN takes an epoch (12 R301). -/
def putSeen (s : State) (v : BitVec 64) : State :=
  regPut (regPut { s with mem := { s.mem with seen := v } } rEpochLo (v.extractLsb' 0 32)) rEpochHi (v.extractLsb' 32 32)

/-- The outcome is applied: SEEN takes EPOCH, but for a failed or invalid page. -/
def applyEpoch (s : State) (e : Epoch) : State := if e.failed then s else putSeen s e.epochV

/-- The outcome is decided, and the filter armed (15 R366 step 2, 10 R247). -/
def decideEpoch (s : State) (e : Epoch) : State :=
  let p := pageNum e.page
  let bad := e.failed || !pageValid s p
  let (o, l) := pageOutcome s e.failed p
  let n := if o = .drop then l.length else 0
  let v := if bad then 0 else pageFld p 8 8
  let s := updEpoch s fun e => { e with decided := some o, epochV := BitVec.ofNat 64 v, failed := bad }
  let s := event (l.foldl dropRecent s) 8 5 (payload [(16, outcomeCode o), (17, n), (24, v)])
  let s := updRun s e.ring fun x => { x with issued := 8, doneN := 8, stuckQt := 0, waiting := [], count0 := BitVec.ofNat 64 n }
  let s := setWake s fun w => if e.ring = 4 then { w with w7 := true, outcome := o } else w
  if s.cch.enabled && o != .none then
    updRun (updEpoch { s with cch := { s.cch with filter := l, walked := 0 } } fun e => { e with walks := true }) e.ring
      fun x => { x with total := 8 + walkUnits }
  else s

/-- The next `k` units of the walk. -/
def epochWalk (s : State) (k : Nat) (e : Epoch) : State :=
  let k := min k (walkUnits - e.units)
  let w := walk s (64 * e.units) (64 * (e.units + k)) (fun cb => s.cch.filter.any fun r => inPool r (cb * 512))
    { ring := some e.ring }
  let s := addCount1 w.st e.ring w.inval
  if !w.room then s
  else
    let s := { s with cch := { s.cch with walked := 64 * (e.units + k) } }
    let s := updEpoch s fun e => { e with units := e.units + k }
    updRun s e.ring fun x => { x with issued := x.issued + k, doneN := x.doneN + k, stuckQt := 0 }

/-- The outcome needs no walk, or the walk has visited every entry. -/
def epochOver (e : Epoch) : Bool :=
  e.decided.isSome && (!e.walks || e.units == walkUnits)

/-- A ring's WAKE_EPOCH ends: the filter disarms, its probes acknowledged (09 R219). -/
def epochEnd (s : State) (e : Epoch) : State :=
  let s := { s with cch := { s.cch with filter := [] } }
  match getRun s e.ring with
  | some x => if s.prb.probes.any (·.ring == some e.ring) then s else finishRun (applyEpoch s e) e.ring x 0
  | none => s

/-- The run a WAKE_EPOCH row names is the one in progress. -/
def epochOf (s : State) (run : EpochRun) : Option Epoch :=
  let n : Nat := match run with | .ring n => n.val | .self => 4
  match getRun s n with
  | some x => if x.stop.isSome || x.final then none else s.eng.epoch.filter fun e => e.ring == n
  | none => none

/-- A step of WAKE_EPOCH but for its walk: the page read, the decision, or the end of a ring's run. -/
def epochStep (s : State) (e : Epoch) : State :=
  if !e.started then
    (if e.ring = 4 then s
     else if holds s e.ring false then pageDue s (s.mem.dlUp && s.mem.pstate == 0)
     else s)
  else if e.decided.isNone then (if pageOver s e then decideEpoch s e else s)
  else if !epochOver e || e.ring = 4 then s
  else epochEnd s e

/-- The wake's own run of WAKE_EPOCH (15 R368): no descriptor, entries with CMD_ID all ones; it holds both resources. -/
def selfEpoch (s : State) : State :=
  let x := { descRun 10 with cmdId := 0xFFFFFFFF, total := 8 }
  let s := updRing s 4 fun r => { r with run := some x }
  { s with eng := { s.eng with epoch := some (newEpoch 4), buffer := some 4, walker := some 4 } }

/-! ### Miss handlers given to waiting operations (06 R134) -/

/-- An operation waiting for a miss handler. -/
inductive Waiter where
  | req (r : Req)
  | unit (n : Nat) (x : Running) (w : UnitWait)

/-- The waiting operations, each as R134 orders it. -/
def waiters (s : State) : List (Waiter × HWait) :=
  (s.bus.reqs.filterMap fun r => if r.phase == .handler then some (.req r, { age := reqAge r.id, counted := takesReserved r }) else none) ++
  (List.range 5).flatMap fun n => match getRun s n with
    | some x => x.waiting.filterMap fun w => w.age.map fun t => (.unit n x w, { age := t, counted := x.c0.contains w.unit })
    | none => []

/-- The waiting operation that takes a free handler, and the handler. -/
def handlerFor (s : State) : Option (Waiter × Nat) :=
  (waiters s).findSome? fun w => (handlerInTurn s w.2).map fun i => (w.1, i)

/-- It re-enters the lookup pipeline holding the handler. -/
def grantHandler (s : State) : State :=
  match handlerFor s with
  | some (.req r, i) => if r.queued then fetchPass s r (some i) else goRead s r (some i)
  | some (.unit n x w, i) => grantUnit s n x w i
  | none => s

end Sys2Proof.Machine
end

