-- ==== Sys2Proof/Machine/Pipeline.lean ====
section
/-! DEFINITION. The lookup pipeline's rank order (08 R196 to R199). Lookups of requests that wait only for their turn are taken in `settle`,
in this order; the operations here have rows of their own, and a row's operation is taken only when no operation that ranks before it is
ready (log entry 91). -/

namespace Sys2Proof.Machine

/-! ### The operations -/

inductive PipeOp where
  | install (h : Nat)
  | setClear | sectorClear | retirement
  /-- the completion lookup of a drain slot -/
  | completion (slot : Nat)
  /-- the next step of ring `n`'s command, 4 for the 8140's own WAKE_EPOCH -/
  | step (n : Nat)
  /-- a retirement from the requester's store queue, and a performing pass -/
  | store (who : Nat)
  | pass (who : Nat)
  /-- the re-entry of what is given a miss handler -/
  | reenter
  | candidate
  deriving DecidableEq, Repr

/-- Accesses of the install: one, but for a SECTOR_MISS fill one for each run of sectors that are not valid. -/
def installAccs (s : State) (h : Handler) : Nat :=
  match h.kind, h.pos with | .sectorMiss, some p => (sectorRuns (invalidSectors s p)).length | _, _ => 1

/-- Places for the install's accesses are there, or the fill installs nothing (13 R322). -/
def installRoom (s : State) (h : Handler) : Bool :=
  accRoomFor s h.counted (installAccs s h) || h.cancelled || !s.cch.enabled || !s.csp.ready

/-- The install operation of handler `i`, once its data is there and no back-invalidation of its codeblock is outstanding (06 R141). -/
def installOp (s : State) (i : Nat) : State :=
  match getHandler s i with
  | some h =>
    match h.kind, h.data with
    | .unit _ _, _ => s
    | _, some (b, _) => if backBusy s h.cb || !installRoom s h then s else install (over2 s (.install i)) h b
    | _, none => s
  | none => s

/-- The oldest queued set clearing, with room for its INV_ALL (11 R268). -/
def setOp (s : State) : State :=
  match s.cch.setClr with
  | (i, _) :: l =>
    if !s.cch.enabled || probeRoom s (attachedAgents s) then clearSet (over2 { s with cch := { s.cch with setClr := l } } .set) i else s
  | [] => s

/-- The oldest queued sector clearing, with room for the probes of a whole entry's (11 R267). -/
def sectorOp (s : State) : State :=
  match s.cch.secClr with
  | (p, k) :: l =>
    if k = 8 && !invalRoom s p then s else clearSector (over2 { s with cch := { s.cch with secClr := l } } .sector) p k
  | [] => s

/-- The oldest queued retirement, with room for the probes of its position (11 R273). -/
def retireOp (s : State) : State :=
  match s.err.retire with
  | (p, c) :: l => if invalRoom s p then retirePos (over2 { s with err := { s.err with retire := l } } .retire) p c else s
  | [] => s

/-- The completion lookup of a drain slot (07 R168). -/
def lookupOp (s : State) (i : Nat) : State :=
  match getSlot s i with
  | some t => if t.kind = .drain && t.stage = .lookup then completionLookup s t else s
  | none => s

/-- The prefetcher issues nothing during entry or an MBIST run (15 R361, 18 R422). -/
def prefetchOpen (s : State) : Bool := !watchesClosed s && s.pwr.st != .offrdy

/-- The oldest prefetch candidate: dropped, or a fill that finds room for its back-invalidation (06 R150). -/
def candidateOp (s : State) : State :=
  match s.cch.cands with
  | c :: l =>
    let s' := { s with cch := { s.cch with cands := l } }
    if !prefetchOpen s then s' else if candidateWaits s c then s else prefetch s' c
  | [] => s

/-- Ring `n` runs a command of opcode `op` that may issue its next unit: it holds the resource the opcode uses (09 R218). -/
def stepDue (s : State) (n op : Nat) : Option Running :=
  if isOn s && (!usesBuffer op || holds s n false) && (!usesWalker op || holds s n true) then unitDue s n op else none

/-- The walk of a WAKE_EPOCH may go on. -/
def walkDue (s : State) (e : Epoch) : Bool := e.started && e.decided.isSome && !epochOver e && holds s e.ring true

/-- The next step of ring `n`'s command in the lookup pipeline, `k` units of a walk. -/
def stepOp (s : State) (n k : Nat) : State :=
  match (getRun s n).map (·.opcode) with
  | some 1 => (stepDue s n 1).elim s fun x => if k = 0 then s else invStep s n k x
  | some 2 => preloadRow s n (holds s n false)
  | some 3 => (stepDue s n 3).elim s fun x => lockStep s n x true
  | some 4 => (stepDue s n 4).elim s fun x => lockStep s n x false
  | some 5 => (stepDue s n 5).elim s fun x => if k = 0 then s else dropStep s n k x
  | some 6 => (stepDue s n 6).elim s fun x => restrengthStep s n x
  | some 7 => (stepDue s n 7).elim s fun x => verifyStep s n x
  | some 10 =>
    (match epochOf s (if h : n < 4 then .ring ⟨n, h⟩ else .self) with
     | some e => if walkDue s e then epochWalk s k e else s
     | none => s)
  | _ => s

/-- The operation, performed; `k` units of a walk. -/
def opRun (s : State) (k : Nat) (perr : Bool) : PipeOp → State
  | .install i => installOp s i
  | .setClear => setOp s
  | .sectorClear => sectorOp s
  | .retirement => retireOp s
  | .completion i => lookupOp s i
  | .step n => stepOp s n k
  | .store w => storeRetire s w perr
  | .pass w => performingPass s w
  | .reenter => grantHandler s
  | .candidate => candidateOp s

/-! ### Their ranks (R196, R197) -/

/-- Where an operation ranks: in tens the rank of R197, with 15 for the wake walk, which goes after rank 1 only (15 R366); its class and
port at rank 5; and its age. -/
structure Rank where
  rank : Nat
  cls  : Nat := 1
  port : Option PortId := none
  age  : Nat := 0

/-- Rank of a request's operation: admission is its age. -/
def reqRank (r : Req) : Rank :=
  if r.counted then { rank := 10, age := reqAge r.id }
  else { rank := 50, cls := roundClass r.cls, port := if r.who < 12 then some (portOf r.who) else none, age := reqAge r.id }

/-- Rank of an operation of the store queue's oldest entry. -/
def headRank (s : State) (who : Nat) : Rank :=
  match (storeQueue s who).head? with | some r => reqRank r | none => { rank := 60 }

/-- Rank of the operations that fell due in `rank2`'s order. -/
def rankTwo (s : State) (o : Rank2) : Rank := { rank := 20, age := s.cch.rank2.findIdx (· == o) }

/-- Rank of a command step of ring `n` in class `cls`: a step of the class-0 ring that is admitted as class 0 at rank 1; those of rings 1 to
3, and every walk, at rank 4 while CMD_MIN lasts (08 R193). Steps are the youngest of their class (log entry 91). -/
def cmdRank (s : State) (n cls age : Nat) (counted walk : Bool) : Rank :=
  if counted then { rank := 10, age := age }
  else if (walk || n ≠ 0) && decide (0 < s.qtk.cmdMin) then { rank := 40 }
  else { rank := 50, cls := roundClass cls, age := age }

/-- Rank of the unit that ring `n`'s command issues next: on the class-0 ring as it would be admitted. -/
def nextRank (s : State) (n : Nat) (x : Running) : Rank :=
  let age := reqAge s.bus.nextReq
  match unitBlock s x x.issued with
  | some (attr, _) =>
    let c := if x.issued < x.admitted then x.c0.contains x.issued else engClass n attr == 0 && countable s
    cmdRank s n (unitClass n attr c) age c false
  | none => cmdRank s n (max 1 n) age false false

/-- Rank of a waiting unit that re-enters. -/
def waitRank (s : State) (n : Nat) (x : Running) (w : UnitWait) : Rank :=
  let c := x.c0.contains w.unit
  cmdRank s n (unitClass n w.attr c) (w.age.getD (reqAge s.bus.nextReq)) c false

def stepRank (s : State) (n : Nat) : Rank :=
  match getRun s n with
  | none => { rank := 60 }
  | some x =>
    match x.opcode with
    | 1 | 5 => cmdRank s n n (reqAge s.bus.nextReq) false true
    | 10 => if n = 4 then { rank := 15 } else cmdRank s n n (reqAge s.bus.nextReq) false true
    | 2 => match reentry s n x with | some w => waitRank s n x w | none => nextRank s n x
    | _ => nextRank s n x

def opRank (s : State) : PipeOp → Rank
  | .install i =>
    match getHandler s i with
    | some h =>
      if h.counted then { rank := 10, age := (h.reqs.map reqAge).foldl min (reqAge s.bus.nextReq) } else rankTwo s (.install i)
    | none => { rank := 60 }
  | .setClear => rankTwo s .set
  | .sectorClear => rankTwo s .sector
  | .retirement => rankTwo s .retire
  | .completion _ => { rank := 30 }
  | .step n => stepRank s n
  | .store w => headRank s w
  | .pass w => headRank s w
  | .reenter =>
    match handlerFor s with
    | some (.req r, _) => reqRank r
    | some (.unit n x w, _) => waitRank s n x w
    | none => { rank := 60 }
  | .candidate => { rank := 60 }

/-! ### Which one is taken -/

/-- The oldest entry of a queue takes part when its retirement writes or fetches a NORMAL region; others need no lookup. -/
def storeOps (s : State) (w : Nat) : List PipeOp :=
  match (storeQueue s w).head? with
  | some r =>
    if !isNormal r || brokenFor s r then []
    else match r.phase, r.cmd with
      | .fetched, _ => [.pass w]
      | .queue, .write | .queue, .writeNt | .queue, .lockWrite | .queue, .atomic | .queue, .lockRead => [.store w]
      | _, _ => []
  | none => []

/-- Operations that stand at the pipeline's entry. -/
def pipeOps (s : State) : List PipeOp :=
  (s.cch.handlers.filterMap fun h => if h.data.isSome then some (.install h.idx) else none) ++
  (if s.cch.setClr.isEmpty then [] else [.setClear]) ++ (if s.cch.secClr.isEmpty then [] else [.sectorClear]) ++
  (if s.err.retire.isEmpty then [] else [.retirement]) ++
  (s.wrb.slots.filterMap fun t => if t.stage == .lookup then some (.completion t.id) else none) ++
  ((List.range 5).filter fun n => (getRun s n).isSome).map .step ++ (List.range 13).flatMap (storeOps s) ++
  (if (waiters s).isEmpty then [] else [.reenter]) ++ (if s.cch.cands.isEmpty then [] else [.candidate])

/-- An operation is ready: taken now, it would do something. -/
def opReady (s : State) (o : PipeOp) : Bool := decide (opRun s 1 false o ≠ s)

/-- The ready operations, with their ranks. -/
def readyOps (s : State) : List (PipeOp × Rank) := ((pipeOps s).filter (opReady s)).map fun o => (o, opRank s o)

/-- Operations of one class at rank 5 whose port comes first: the port not served last; the engine's take part with either. -/
def portTurn (s : State) (l : List Rank) : List Rank :=
  let other := l.filter fun r => r.port != some (if s.qtk.portB then .B else .A)
  if other.isEmpty then l else other

/-- The oldest of them. -/
def oldest (l : List Rank) (r : Rank) : Bool := l.all fun x => decide (r.age ≤ x.age)

/-- The pipeline takes operation `o`, whose walk asks for `k` cycles: the state with what taking it uses of CMD_MIN and the round, and the
cycles it is given. None when it is not ready, or another ranks before it. -/
def turn (s : State) (o : PipeOp) (k : Nat) : Option (State × Nat) :=
  if !(pipeOps s).contains o || !opReady s o then none
  else
    let l := (readyOps s).map (·.2)
    let r := opRank s o
    let took (s : State) : State := { s with qtk := { s.qtk with walkLast := r.rank == 15 } }
    if l.any fun x => decide (x.rank < r.rank) then (if r.rank = 15 && !s.qtk.walkLast then some (took s, min k 1) else none)
    else match r.rank with
      | 10 | 20 => if oldest (l.filter (·.rank == r.rank)) r then some (took s, k) else none
      | 40 => let n := min k s.qtk.cmdMin; some (took { s with qtk := { s.qtk with cmdMin := s.qtk.cmdMin - max 1 n } }, n)
      | 50 =>
        match roundPick s (fun c => l.any fun x => x.rank == 50 && x.cls == c) 3 s.qtk.pipeRound with
        | some (c, d) =>
          let mine := portTurn s (l.filter fun x => x.rank == 50 && x.cls == c)
          if c = r.cls && mine.any (fun x => x.age == r.age && x.port == r.port) && oldest mine r then
            let b := match r.port with | some p => p == .B | none => s.qtk.portB
            some (took { s with qtk := { s.qtk with pipeRound := d, portB := b } }, if l.length = 1 then k else min k 1)
          else none
        | none => none
      | _ => some (took s, k)

/-- The row of a pipeline operation: performed when the pipeline takes it. -/
def pipeRow (s : State) (o : PipeOp) (k : Nat) (perr : Bool) : State :=
  match turn s o k with
  | some (s, k) => settle (opRun s k perr o)
  | none => s

end Sys2Proof.Machine
end

