-- ==== Sys2Proof/Machine/Quartz.lean ====
section
/-! DEFINITION. The tick boundary (08 R183 to R191): where boundaries come from, and what each starts, in the order of R191: budget and
rounds (R193 to R199), probe timeouts (03 R85), ages (07 R165), locks and deadlock (11 R277, R279), buckets and suspects (R271, R272),
the configuration CRC (16 R401, R402), the engine's step (09), HEARTBEAT (15 R371), ZQCS (13 R328) and the pool-down retry (12 R298). -/

namespace Sys2Proof.Machine

/-! ### The tick's own settings (R184 to R188) -/

/-- Period as QTK_CFG gives it: 2^N, N held between 8 and 16. -/
def cfgN (s : State) : Nat := min 16 (max 8 (fld (reg s rQtkCfg) 4 0))

/-- QTK_CFG applies (R188), and ZQIVL (13 R316); as a tick output, SYNC pulses (R187). -/
def takeCfg (s : State) : State :=
  let c := reg s rQtkCfg
  let s := { s with qtk := { s.qtk with n := cfgN s, syncIn := c.getLsbD 8, syncOut := c.getLsbD 9 }, csp := { s.csp with ivl := zqIvl s } }
  if s.qtk.syncOut && !s.qtk.syncIn then emit s .syncPulse else s

/-- A member's parity is checked whenever its block samples it (16 R398); every member that a block of the core uses in Run is sampled at
a boundary, the test registers are not (log entry 22; DEDUCED). -/
def sampleMembers (s : State) : State := (s.cfg.parBad.filter (· < 0xE000)).foldl useReg s

/-- Step 1: budget, INFLIGHT, weights and CMD_MIN take their register values, the rounds restart (R193 to R199); the age limits of
WRB_CFG are read (07 R180). -/
def reloadBudget (s : State) : State :=
  let b := reg s rQtkBudget
  let c := reg s rQtkSched
  let w := reg s rWrbCfg
  { s with qtk := { s.qtk with
      budget := fld b 7 0, inflight := min 8 (max 1 (fld b 11 8)), w1 := max 1 (fld c 3 0), w2 := max 1 (fld c 7 4),
      w3 := max 1 (fld c 11 8), cmdMin := fld c 31 24, csRound := Round.reset, memRound := Round.reset, pipeRound := Round.reset,
      ageMax := max 1 (fld w 23 16), ntAge := max 1 (fld w 7 4) } }

/-! ### Steps 3 to 5 -/

def ageEntries (s : State) : State :=
  { s with wrb := { s.wrb with entries := s.wrb.entries.map fun e => { e with age := e.age + 1 } } }

/-- The entry is old enough to be marked (07 R165). -/
def agedOut (s : State) (e : Entry) : Bool := decide ((if e.nt then s.qtk.ntAge else s.qtk.ageMax) ≤ e.age)

/-- Entries at their age limit are marked. -/
def markAged (s : State) : State := (s.wrb.entries.filter (agedOut s)).foldl (fun s e => markEntry s e.id .other) s

def ageLocks (s : State) : State :=
  { s with wrb := { s.wrb with locks := s.wrb.locks.map fun l => (l.1, l.2.1, l.2.2 + 1) } }

/-- Agent `k` holds a lock past its timeout (11 R277). -/
def lockOverdue (s : State) (k : Nat) : Option Nat := (s.wrb.locks.find? fun l => l.1 == k && decide (lockTmo s ≤ l.2.2)).map (·.2.1)

def lockBoundary (s : State) (k : Nat) : State := match lockOverdue s k with | some cb => breakLock s k cb 1 | none => s

/-- The condition of the deadlock detector (11 R279); `dmaReq` are the DMA pairs whose x_REQ_N is asserted. -/
def deadlocked (s : State) (dmaReq : BitVec 4) : Bool :=
  let parked (k : Nat) : Bool := s.bus.reqs.any fun r => r.who == k && r.phase == .watching
  dlkEn s && s.bus.reqs.any (·.phase == .watching) &&
  (List.range 8).all (fun k => !probeable s k false || parked k) &&
  dmaReq == 0 && !s.bus.reqs.any (fun r => decide (8 ≤ r.who ∧ r.who < 12) && inProgress r) &&
  !s.bus.reqs.any (fun r => r.queued && (match r.cmd with | .write | .writeNt | .lockWrite | .atomic => true | _ => false)) &&
  ringsQuiet s

def deadlockSample (s : State) (dmaReq : BitVec 4) : State :=
  if deadlocked s dmaReq then
    if s.err.dlkPrev then
      let (s, woken) := wakeAll s
      let s := { s with err := { s.err with dlkPrev := false } }
      raiseInt (event (count s cntDlk) 7 6 (payload [(16, woken.toNat)])) srcDeadlock
    else { s with err := { s.err with dlkPrev := true } }
  else { s with err := { s.err with dlkPrev := false } }

/-! ### Step 6 (11 R271, R272) -/

/-- One boundary of a bucket that leaks every `leak` Qt: a configuration write resets it, else its leak count advances. -/
def leakStep (leak : Nat) (b : Bucket) : Bucket :=
  if b.rst then { level := 0, leak := 0, rst := false }
  else if leak = 0 then b
  else if b.leak + 1 ≥ leak then { b with leak := 0, level := b.level - 1 }
  else { b with leak := b.leak + 1 }

def leakBucket (s : State) (n : Nat) : State :=
  { s with err := { s.err with buckets := updAt s.err.buckets n (leakStep (bktLeak s n)) } }

/-- The entry's window has passed. -/
def suspectOld (s : State) (e : Suspect) : Bool := decide (suspWindow s ≤ (tickCnt s - e.wstart).toNat)

def expireSuspects (s : State) : State :=
  { s with err := { s.err with suspects := s.err.suspects.filter fun e => !suspectOld s e } }

/-! ### Step 7 (16 R390, R401, R402) -/

/-- The key locks at the second boundary after the unlock. -/
def keyAge (s : State) : State :=
  if s.cfg.unlocked.isSome then { s with cfg := { s.cfg with unlkQt := s.cfg.unlkQt + 1 } } else s

def keyOverdue (s : State) : Bool := s.cfg.unlocked.isSome && decide (2 ≤ s.cfg.unlkQt)

def lapseKey (s : State) : State := when s (keyOverdue s) fun s => { s with cfg := { s.cfg with unlocked := none } }

/-- The commit window closes on its own 64 Qt after it opened. -/
def windowAge (s : State) : State :=
  if s.cfg.window then { s with cfg := { s.cfg with winQt := s.cfg.winQt + 1 } } else s

def windowOverdue (s : State) : Bool := s.cfg.window && decide (64 ≤ s.cfg.winQt)

def closeWindow (s : State) : State := when s (windowOverdue s) fun s => { s with cfg := { s.cfg with window := false } }

/-- A pass starts at this boundary. -/
def passDue (s : State) : Bool := ((tickCnt s).toNat % 64 == 0 || s.cfg.refPend) && !s.cfg.pass && !s.cfg.window

def startPass (s : State) : State :=
  { s with cfg := { s.cfg with passWait := false, pass := true, passPos := 0, passCrc := 0xFFFFFFFF, passNew := true } }

/-- A pass ends (R401); a match of a pass that started after the most recent Bypass cause meets check 4 of R125. -/
def endPass (s : State) : State :=
  let v := s.cfg.passCrc ^^^ 0xFFFFFFFF
  let s := count { s with cfg := { s.cfg with pass := false, crcLast := v } } cntPass
  if !s.cfg.armed then s
  else if v = reg s rCfgRef then { s with cfg := { s.cfg with lastOk := true, okSince := s.cfg.okSince || s.cfg.passNew } }
  else bypassCause { s with cfg := { s.cfg with lastOk := false } } 1 0

/-- Up to 16 members are read, each use checking parity (R398, R399). -/
def passRead (s : State) : State :=
  let ms := (members.drop s.cfg.passPos).take 16
  let s := ms.foldl useReg s
  let c := (ms.flatMap fun o => numBytes 4 (reg s o).toNat).foldl crcByte s.cfg.passCrc
  let s := { s with cfg := { s.cfg with passCrc := c, passPos := s.cfg.passPos + ms.length } }
  if s.cfg.passPos ≥ members.length then endPass s else s

/-- Step 7: a pass starts where one is due, and a running one reads on. -/
def crcBoundary (s : State) : State :=
  let s := { s with cfg := { s.cfg with passWait := passDue s, refPend := false } }
  let s := if s.cfg.passWait then startPass s else s
  if s.cfg.pass then passRead s else s

/-! ### Step 9 (15 R371, R372) -/

/-- The checks failing now. -/
def hbChecks (s : State) : BitVec 8 :=
  let rings := List.range 4
  let stuck := rings.any fun n => match getRun s n with | some x => !x.final && decide (256 ≤ x.stuckQt) | none => false
  let due := rings.any fun n => match (getRing s n).dueQt with | some k => decide (8 ≤ k) | none => false
  BitVec.ofNat 8 (flag stuck + 2 * flag due + 4 * flag s.err.fPoolDown + 8 * flag s.err.fBypass + 16 * flag s.err.fCsloss +
    32 * flag s.err.fScree + 64 * flag (decide (256 ≤ s.eng.cqFullQt)) + 128 * flag (s.clk.fault && decide (2 ≤ monAct s)))

/-- HEARTBEAT's decision, while the run rule holds. -/
def heartbeat (s : State) : State :=
  if !s.pwr.c0Rdy || s.pwr.st = .offrdy then s
  else
    let f := hbChecks s
    let new := f &&& ~~~s.pwr.hbFail
    let s := { s with pwr := { s.pwr with hbFail := f } }
    let s := if new = 0 then s else raiseInt (event s 11 4 (payload [(16, new.toNat)])) srcPwr
    if hbEn s && (tickCnt s).toNat % 2 ^ hbK s == 0 && f &&& hbMask s == 0 then
      { s with pwr := { s.pwr with hb := !s.pwr.hb } }
    else s

/-! ### Steps 10 and 11 -/

/-- A housekeeping quantum may start: during a relock with SYNC the next boundary may be 2^(N−5) cc away, which leaves no 64 cc at N ≤ 10
(R192). In every other case the boundary cycle itself leaves time. -/
def quantaOpen (s : State) : Bool := !(s.qtk.syncIn && s.clk.relocking && decide (s.qtk.n ≤ 10))

def zqRank (s : State) (rank : Nat) : State := if s.qtk.quanta && zqDue s rank then zqIssue s rank else s

/-- Step 10: boundaries since each rank's last ZQCS count while READY, and a rank whose interval has passed is given one (13 R328). -/
def zqBoundary (s : State) : State :=
  let s := { s with qtk := { s.qtk with quanta := quantaOpen s } }
  let s := if s.csp.ready then { s with csp := { s.csp with zq0 := s.csp.zq0 + 1, zq1 := s.csp.zq1 + 1 } } else s
  zqRank (zqRank s 0) 1

/-- A retry that is due starts, unless an earlier one still runs, which skips it (12 R298). -/
def startRetry (s : State) : State :=
  let s := { s with mem := { s.mem with retryDue := false } }
  if s.err.fPoolDown && s.mem.recov == .idle then recoveryTrain s else s

/-- Step 11: while the pool is down, every 64th boundary makes a retry due, which starts at once or is skipped (12 R298). -/
def retryBoundary (s : State) : State :=
  if s.err.fPoolDown then
    let k := s.mem.downQt + 1
    let s := { s with mem := { s.mem with downQt := k, retryDue := k % 64 == 0 } }
    if s.mem.retryDue then startRetry s else s
  else s

/-! ### Entry to Sleep or Off starts at a boundary (15 R360, R361, R370) -/

/-- A latched request is acted on at the first boundary after full ready. -/
def takeLatches (s : State) : State :=
  if s.pwr.st ≠ .run || !s.pwr.fullRdy || s.tst.busy then s
  else if s.pwr.latchSleep then beginEntry { s with pwr := { s.pwr with latchSleep := false, latchWrite := false } } false
  else if s.pwr.latchWrite then
    let s := { s with pwr := { s.pwr with latchWrite := false } }
    if entryAllowed s then beginEntry s false else setFail s 1
  else s

/-- Entry's share of a boundary; an MBIST run holds it off. Entry that has not come to its end in time is abandoned (R362, R370). -/
def entryBoundary (s : State) : State :=
  match s.pwr.entry with
  | some e =>
    if e.step = .armed then (if s.tst.busy then s else beginEntry s e.off)
    else
      let e := { e with ticks := e.ticks + 1 }
      let s := { s with pwr := { s.pwr with entry := some e } }
      if entryTmoPassed s e then abandon s 2 else s
  | none => takeLatches s

/-! ### A boundary -/

/-- Steps 3 to 7. -/
def houseSteps (s : State) (dmaReq : BitVec 4) : State :=
  let s := markAged (ageEntries s)
  let s := (List.range 8).foldl lockBoundary (ageLocks s)
  let s := settle (deadlockSample s dmaReq)
  let s := expireSuspects ((List.range 6).foldl leakBucket s)
  crcBoundary (closeWindow (windowAge (lapseKey (keyAge s))))

/-- One tick boundary (R191). Entry to Sleep or Off starts, and answers the registered watches, before step 1: R360 names the boundary
only, and R191 lists no such step (log entry 85; DESIGN CHOICE). -/
def boundary (s : State) (dmaReq : BitVec 4) : State :=
  let s := sampleMembers (takeCfg (count s cntTick))
  let s := entryBoundary s
  let s := settle (probeBoundary (reloadBudget s))
  let s := houseSteps s dmaReq
  let s := settle (engineBoundary s)
  settle (retryBoundary (zqBoundary (heartbeat s)))

/-! ### Where boundaries come from (R183, R186, R190) -/

/-- The tick runs. -/
def ticking (s : State) : Bool := isOn s && s.qtk.running

/-- A boundary of the internal counter, of a SYNC edge, or of a lost edge. -/
def tickAt (s : State) (sync : Bool) (dmaReq : BitVec 4) : State :=
  boundary { measBoundary s sync with
    qtk := { s.qtk with syncOk := sync, relocked := s.clk.relocking, relockAll := s.clk.relocking } } dmaReq

/-- Counts since the last boundary, `since` core cycles ago: 16 for each core cycle of a relock. How many of them ran in a relock is
known to the model when all did, or none; else it is `relock`. -/
def edgeCounts (s : State) (since relock : Nat) : Nat :=
  since + 15 * (if !s.qtk.relocked then 0 else if s.qtk.relockAll then since else min relock since)

/-- An early edge is ignored. -/
def earlyEdge (s : State) : State := count { s with qtk := { s.qtk with early := true, seq := s.qtk.seq + 1 } } cntSyncEarly

/-- A rising edge of SYNC: early below 2^(N−1) counts. -/
def syncEdge (s : State) (since relock : Nat) (dmaReq : BitVec 4) : State :=
  if edgeCounts s since relock < 2 ^ (s.qtk.n - 1) then earlyEdge s else tickAt s true dmaReq

/-- A lost edge makes a boundary. -/
def lostEdge (s : State) (dmaReq : BitVec 4) : State :=
  let s := count { s with qtk := { s.qtk with loss := true, seq := s.qtk.seq + 1 } } cntSyncLoss
  tickAt (raiseInt s srcSyncLoss) false dmaReq

/-- The tick starts or restarts with a boundary (R190). -/
def startTick (s : State) : State := tickAt { s with qtk := { s.qtk with running := true } } false 0

end Sys2Proof.Machine
end

