-- ==== Sys2Proof/Machine/ClockRows.lean ====
section
/-! DEFINITION. Rows of reset, clocks and the tick: cold reset (15 R357 to R359), relocks and monitors (14), boundaries (08) and the parts
of a boundary that the table gives rows of their own (log entry 23). -/

namespace Sys2Proof.Machine

/-! ### Cold reset (15 R357 to R359) -/

/-- Every register at reset. Kept: the Vault, the TAP, which PORST_N does not reset (18 R410) unless it leaves Sleep by it (R411), the
pin levels of x_RSNS_N, and the model's own queue, trace and counter of free values. -/
def resetKept (s : State) : State :=
  { State.reset with
    pending := s.pending, freeCtr := s.freeCtr, out := s.out
    bus := { Bus.reset with rsnsPin := s.bus.rsnsPin }
    cch := { Cch.reset with epoch := s.cch.epoch + 1 }
    vlt := { Vlt.reset with slots := s.vlt.slots }
    tst := { Tst.reset with tap := if s.pwr.phase = .sleep then Tap.reset else s.tst.tap } }

/-- PORST_N_ASSERT. -/
def execPorstNAssert (s : State) : Host.Outcome State Fault Refusal := .next (resetKept s)

/-- COLD_RESET: step C1. The period of undefined behaviour ends here (00 R5), the one of a pin-control instruction too (18 R414). -/
def execColdReset (straps : BitVec 3) (s : State) : Host.Outcome State Fault Refusal :=
  .next (when s (s.pwr.phase == .reset) fun s =>
    { s with
      undef := none
      bus := { s.bus with strap := straps }
      pwr := { s.pwr with phase := .c1 } })

/-- The crystal is stable: step C2 with the Vault scan, or the count repeated at wake (14 R335, 15 R369). -/
def crystalStable (s : State) : State :=
  if s.pwr.phase = .c1 then
    vaultScan (startRelock { s with clk := { s.clk with xoOk := true }, pwr := { s.pwr with phase := .c2 } } 1)
  else if s.pwr.wake.isSome && !s.clk.xoOk then startRelock { s with clk := { s.clk with xoOk := true } } 2
  else s

/-- XO_STABLE. -/
def execXoStable (s : State) : Host.Outcome State Fault Refusal := guarded s crystalStable

/-- Step C3: the boot enable is a keyed change, the ports sample their inputs from now on, and the tick starts. -/
def bootEnd (s : State) : State :=
  let s := regPut (keyedChange { s with pwr := { s.pwr with phase := .on } }) (rAgpCfg .A) 0x80002001
  startTick ((List.range 12).foldl sampleRsns s)

/-- The lock counter reaches 4,096. -/
def lockReached (s : State) : State :=
  let s := relockEnd s
  if s.pwr.phase = .c2 then bootEnd s
  else match s.pwr.wake with
    | some w => if w.w3 then s else startTick (monRestart (setWake s fun w => { w with w3 := true }))
    | none => s

/-- RELOCK_COMPLETE. -/
def execRelockComplete (s : State) : Host.Outcome State Fault Refusal :=
  guarded s fun s => when s (s.clk.relocking && s.clk.xoOk && (isOn s || s.pwr.phase == .c2)) lockReached

/-! ### Clocks (14) -/

/-- LOCK_MONITOR_WINDOW. -/
def execLockMonitorWindow (count : Nat) (s : State) : Host.Outcome State Fault Refusal :=
  guarded s fun s => when s (isOn s && s.clk.lock && s.clk.xoOk) fun s => lockWindow s count

/-- RELOCK. -/
def execRelock (who : Fin 8) (s : State) : Host.Outcome State Fault Refusal := guarded s fun s => regRow s who 0xA004 0x80000000

/-- REFBACK. -/
def execRefback (who : Fin 8) (s : State) : Host.Outcome State Fault Refusal := guarded s fun s => regRow s who 0xA004 0x40000000

/-- DRIFT_WINDOW. -/
def execDriftWindow (count : Nat) (s : State) : Host.Outcome State Fault Refusal :=
  guarded s fun s => when s (monRuns s) fun s => settle (monWindow s count)

/-- SYNC_MEAS_RUN_END. -/
def execSyncMeasRunEnd (count : Nat) (s : State) : Host.Outcome State Fault Refusal :=
  guarded s fun s => when s (isOn s) fun s => syncRun s count

/-- CRYSTAL_STOP. -/
def execCrystalStop (s : State) : Host.Outcome State Fault Refusal :=
  guarded s fun s => when s (s.pwr.phase == .sleep) fun s => { s with clk := { s.clk with xoOk := false } }

/-! ### Boundaries (08) -/

/-- TICK_BOUNDARY. -/
def execTickBoundary (dmaReq : BitVec 4) (s : State) : Host.Outcome State Fault Refusal :=
  guarded s fun s => when s (ticking s && !s.qtk.syncIn) fun s => tickAt s false dmaReq

/-- SYNC_EDGE. -/
def execSyncEdge (since relock : Nat) (dmaReq : BitVec 4) (s : State) : Host.Outcome State Fault Refusal :=
  guarded s fun s => when s (ticking s && s.qtk.syncIn) fun s => syncEdge s since relock dmaReq

/-- SYNC_LOSS. -/
def execSyncLoss (dmaReq : BitVec 4) (s : State) : Host.Outcome State Fault Refusal :=
  guarded s fun s => when s (ticking s && s.qtk.syncIn) fun s => lostEdge s dmaReq

/-! ### Parts of a boundary with rows of their own -/

/-- PROBE_TIMEOUT, part of step 2. -/
def execProbeTimeout (k : Fin 8) (s : State) : Host.Outcome State Fault Refusal :=
  guarded s fun s => when s (ticking s && probeOverdue s k) fun s => settle (agentTimeout s k)

/-- MERGE_AGE_MARK: step 3. -/
def execMergeAgeMark (s : State) : Host.Outcome State Fault Refusal := guarded s fun s => when s (ticking s) markAged

/-- LOCK_TIMEOUT, part of step 4. -/
def execLockTimeout (k : Fin 8) (s : State) : Host.Outcome State Fault Refusal :=
  guarded s fun s => when s (ticking s) fun s => settle (lockBoundary s k)

/-- A bucket's leak count stands at LEAK (11 R271). -/
def leakDue (s : State) (n : Nat) : Bool :=
  let b := s.err.buckets.getD n Bucket.reset
  !b.rst && bktLeak s n != 0 && decide (bktLeak s n ≤ b.leak)

/-- BUCKET_LEAK, part of step 6. -/
def execBucketLeak (n : Fin 6) (s : State) : Host.Outcome State Fault Refusal :=
  guarded s fun s => when s (ticking s && leakDue s n) fun s =>
    { s with err := { s.err with buckets := updAt s.err.buckets n fun b => { b with leak := 0, level := b.level - 1 } } }

/-- SUSPECT_EXPIRE, part of step 6. -/
def execSuspectExpire (s : State) : Host.Outcome State Fault Refusal := guarded s fun s => when s (ticking s) expireSuspects

/-- CRC_PASS_START: step 7 of a boundary that found a pass due and has not started it; a boundary leaves none such (log entry 23). -/
def execCrcPassStart (s : State) : Host.Outcome State Fault Refusal :=
  guarded s fun s => when s (ticking s && s.cfg.passWait) fun s => passRead (startPass s)

/-- COMMIT_WINDOW_EXPIRE, before step 7. -/
def execCommitWindowExpire (s : State) : Host.Outcome State Fault Refusal := guarded s fun s => when s (ticking s) closeWindow

/-- KEY_LAPSE, at a boundary. -/
def execKeyLapse (s : State) : Host.Outcome State Fault Refusal := guarded s fun s => when s (ticking s) lapseKey

end Sys2Proof.Machine
end

