-- ==== Sys2Proof/WellFormed.lean ====
section
/-! DEFINITION. Well-formed commands. A request row's tenure whose H0 arrived with good parity carries the row's own CMD, or a
reserved CMD (02 R62 code 0x06 arises in any request row); every other operand is one its row can carry (log entry 7). -/

namespace Sys2Proof

/-- The tenure of a request row, with the CMD of the row (02 R46). -/
def rowTenure (i : Instr) : Option (Tenure × Machine.ReqCmd) :=
  match i with
  | .read t => some (t, .read)
  | .readFetch t => some (t, .fetch)
  | .readSpec t => some (t, .spec)
  | .write t => some (t, .write)
  | .writeNt t => some (t, .writeNt)
  | .lockRead t => some (t, .lockRead)
  | .lockWrite t => some (t, .lockWrite)
  | .lockAbort t => some (t, .lockAbort)
  | .atomic t => some (t, .atomic)
  | .watch t => some (t, .watch)
  | .barrier t => some (t, .barrier)
  | _ => none

/-- A tenure may stand in the row of command `c`. -/
def tenureFits (c : Machine.ReqCmd) (t : Tenure) : Bool :=
  Machine.badBytes t.h0 != 0 ||
    (match Machine.cmdOf (Machine.h0Cmd t.h0.ad) with
     | some d => d == c
     | none => true)

/-- Well-formedness of a command. -/
def wellFormed (i : Instr) : Bool :=
  match rowTenure i with
  | some (t, c) => tenureFits c t
  | none => true

end Sys2Proof
end

