-- ==== Sys2Proof/Machine/AgentRows.lean ====
section
/-! DEFINITION. Rows of the agent bus (02), the requests (04, 06, 07) and the probe channel (03). -/

namespace Sys2Proof.Machine

/-! ### Requests -/

/-- A request row: the tenure is of the row's own command, or breaks a row of the violation table before its command is read. -/
def requestRow (c : ReqCmd) (t : Tenure) (s : State) : Host.Outcome State Fault Refusal :=
  if tenureFits c t then guarded s fun s => tenureRow s t else .refused .illFormed

def execRead (t : Tenure) (s : State) : Host.Outcome State Fault Refusal := requestRow .read t s
def execReadFetch (t : Tenure) (s : State) : Host.Outcome State Fault Refusal := requestRow .fetch t s
def execReadSpec (t : Tenure) (s : State) : Host.Outcome State Fault Refusal := requestRow .spec t s
def execWrite (t : Tenure) (s : State) : Host.Outcome State Fault Refusal := requestRow .write t s
def execWriteNt (t : Tenure) (s : State) : Host.Outcome State Fault Refusal := requestRow .writeNt t s
def execLockRead (t : Tenure) (s : State) : Host.Outcome State Fault Refusal := requestRow .lockRead t s
def execLockWrite (t : Tenure) (s : State) : Host.Outcome State Fault Refusal := requestRow .lockWrite t s
def execLockAbort (t : Tenure) (s : State) : Host.Outcome State Fault Refusal := requestRow .lockAbort t s
def execAtomic (t : Tenure) (s : State) : Host.Outcome State Fault Refusal := requestRow .atomic t s
def execWatch (t : Tenure) (s : State) : Host.Outcome State Fault Refusal := requestRow .watch t s
def execBarrier (t : Tenure) (s : State) : Host.Outcome State Fault Refusal := requestRow .barrier t s

/-! ### Ports -/

/-- GRANT (02 R41, R43). -/
def execGrant (p : PortId) (pins : PortPins) (h0 : H0Cycle) (s : State) : Host.Outcome State Fault Refusal :=
  guarded s fun s => grantRow s p pins h0

/-- AVLD_OUT_OF_TENURE (02 R62, R63). -/
def execAvldOutOfTenure (p : PortId) (s : State) : Host.Outcome State Fault Refusal := guarded s fun s => strayRow s p

/-- RESPONSE_TENURE (02 R54, R63). -/
def execResponseTenure (p : PortId) (pins : PortPins) (collided : Bool) (upset : List Beat64) (s : State) : Host.Outcome State Fault Refusal :=
  guarded s fun s => responseRow s p pins collided upset

/-- UNATTACHED_REQUEST (02 R62 code 0x13). -/
def execUnattachedRequest (p : PortId) (k : Fin 6) (s : State) : Host.Outcome State Fault Refusal :=
  guarded s fun s => unattachedRow s p k

/-- RESET_SENSE_ASSERT (02 R60). -/
def execResetSenseAssert (who : Fin 12) (s : State) : Host.Outcome State Fault Refusal :=
  guarded s fun s => rsnsRow s who true

/-- RESET_SENSE_DEASSERT (03 R87). -/
def execResetSenseDeassert (who : Fin 12) (s : State) : Host.Outcome State Fault Refusal :=
  guarded s fun s => rsnsRow s who false

/-- PORT_DISABLE (02 R59): a write of AGP_CFGx that takes EN from 1 to 0. -/
def execPortDisable (who : Fin 8) (p : PortId) (val : Reg32) (s : State) : Host.Outcome State Fault Refusal :=
  guarded s fun s => when s (portEn s p && !val.getLsbD 31) fun s => regRow s who (rAgpCfg p) val

/-! ### Probes (03) -/

/-- PROBE_SEND (03 R74). -/
def execProbeSend (p : PortId) (perr : Bool) (s : State) : Host.Outcome State Fault Refusal :=
  guarded s fun s => if pinsLive s then (match nextProbe s p with | some x => settle (sendProbe s x perr) | none => s) else s

/-- PROBE_ACK (03 R81, R89). -/
def execProbeAck (k : Fin 8) (cycles : Nat) (late : Bool) (s : State) : Host.Outcome State Fault Refusal :=
  guarded s fun s => when s (pinsLive s && cycles != 0) fun s => settle (ackRun s k cycles late)

/-- PRB_REVIVE (03 R86, R88). -/
def execPrbRevive (who : Fin 8) (mask : BitVec 8) (s : State) : Host.Outcome State Fault Refusal :=
  guarded s fun s => regRow s who 0x1008 (mask.setWidth 32)

end Sys2Proof.Machine
end

