-- ==== Sys2Proof/Machine/CacheRows.lean ====
section
/-! DEFINITION. Rows of the lookup pipeline and the cache store: miss handlers, fills, prefetch (06), cache-store accesses (13),
fault-handling operations (11), enabling and leaving the enabled state (05), and the Cache Store Port's own events (13). -/

namespace Sys2Proof.Machine

/-- MISS_HANDLER_GRANT (06 R134). -/
def execMissHandlerGrant (s : State) : Host.Outcome State Fault Refusal :=
  guarded s fun s => when s (isOn s) fun s => pipeRow s .reenter 1 false

/-- FILL_INSTALL (06 R141). -/
def execFillInstall (i : Fin 64) (s : State) : Host.Outcome State Fault Refusal :=
  guarded s fun s => when s (isOn s) fun s => pipeRow s (.install i) 1 false

/-- The next burst among the accesses whose bank can accept one is issued (13 R325). -/
def accessRow (s : State) (ready : List Nat) : State :=
  match pickAcc s ready with
  | some (a, r) => settle (issueAcc { s with qtk := { s.qtk with csRound := r } } a)
  | none => s

/-- CACHE_STORE_ACCESS. -/
def execCacheStoreAccess (ready : List Nat) (s : State) : Host.Outcome State Fault Refusal :=
  guarded s fun s => when s (isOn s && s.csp.ready) fun s => accessRow s ready

/-- Read data of an issued access: eight words for each sector read from the devices. -/
def readDoneRow (s : State) (id : Nat) (ws : List (BitVec 64 × BitVec 8)) : State :=
  match s.csp.accs.find? fun a => a.id == id && a.issued with
  | some a => if ws.length = 8 * (todo a).length then settle (accData s a ws) else s
  | none => s

/-- CACHE_STORE_READ_DONE (10 R254, 11 R267, 13 R324). -/
def execCacheStoreReadDone (id : Nat) (ws : List (BitVec 64 × BitVec 8)) (s : State) : Host.Outcome State Fault Refusal :=
  guarded s fun s => when s (isOn s) fun s => readDoneRow s id ws

/-- SECTOR_CLEAR (11 R267). -/
def execSectorClear (s : State) : Host.Outcome State Fault Refusal :=
  guarded s fun s => when s (isOn s) fun s => pipeRow s .sectorClear 1 false

/-- TAG_SET_CLEARING (11 R268). -/
def execTagSetClearing (s : State) : Host.Outcome State Fault Refusal :=
  guarded s fun s => when s (isOn s) fun s => pipeRow s .setClear 1 false

/-- PREFETCH_CANDIDATE (06 R150). -/
def execPrefetchCandidate (s : State) : Host.Outcome State Fault Refusal :=
  guarded s fun s => when s (isOn s) fun s => pipeRow s .candidate 1 false

/-- CACHE_ENABLE (05 R125). -/
def execCacheEnable (who : Fin 8) (s : State) : Host.Outcome State Fault Refusal := guarded s fun s => regRow s who 0x2104 1

/-- CACHE_DISABLE (05 R128). -/
def execCacheDisable (who : Fin 8) (s : State) : Host.Outcome State Fault Refusal := guarded s fun s => regRow s who 0x2104 0

/-- SCREE_RETIREMENT (11 R273). -/
def execScreeRetirement (s : State) : Host.Outcome State Fault Refusal :=
  guarded s fun s => when s (isOn s) fun s => pipeRow s .retirement 1 false

/-- SCREE_CLR (11 R274). -/
def execScreeClr (who : Fin 8) (s : State) : Host.Outcome State Fault Refusal := guarded s fun s => regRow s who rScreeCtrl 0x80000000

/-! ### The Cache Store Port (13) -/

/-- CSP_INIT (13 R317). -/
def execCspInit (who : Fin 8) (s : State) : Host.Outcome State Fault Refusal := guarded s fun s => regRow s who 0x9010 0x80000000

/-- CSP_INIT_STEP_DONE (13 R317, R318). -/
def execCspInitStepDone (r : InitResult) (s : State) : Host.Outcome State Fault Refusal :=
  guarded s fun s => when s (isOn s && s.csp.busy) fun s => settle (cspNext s r)

/-- DDR_REFRESH (13 R326). -/
def execDdrRefresh (rank : Fin 2) (s : State) : Host.Outcome State Fault Refusal :=
  guarded s fun s => when s (isOn s && s.csp.ready && decide (rank.val < cspRanks s)) fun s => count (emit s (.ddrRef rank)) cntRef

/-- ZQCS: step 10 of a boundary, for a rank still due, unless R192 forbids the quantum to start (13 R328; log entry 23). -/
def execZqcs (rank : Fin 2) (s : State) : Host.Outcome State Fault Refusal :=
  guarded s fun s => when s (isOn s && s.qtk.quanta && zqDue s rank) fun s => zqIssue s rank

/-- DDR_ALERT (13 R332). -/
def execDdrAlert (rank : Fin 2) (s : State) : Host.Outcome State Fault Refusal :=
  guarded s fun s => when s (isOn s && decide (rank.val < cspRanks s)) fun s => settle (cspAlert s rank)

/-- VDDQ_LOW_IN_SLEEP (13 R330). -/
def execVddqLowInSleep (s : State) : Host.Outcome State Fault Refusal :=
  guarded s fun s => when s (s.pwr.phase == .sleep) fun s => { s with csp := { s.csp with vddqLow := true } }

end Sys2Proof.Machine
end

