-- ==== Sys2Proof/Machine/WriteRows.lean ====
section
/-! DEFINITION. Rows of the write path (07): retirement, performing passes, drains and flush reads. -/

namespace Sys2Proof.Machine

/-- A retirement: in the lookup pipeline's order where it needs a lookup (08 R197). -/
def storeRow (s : State) (w : Nat) (perr : Bool) : State :=
  if (storeOps s w).contains (.store w) then pipeRow s (.store w) 1 perr else settle (storeRetire s w perr)

/-- STORE_RETIREMENT (07 R158, R159). -/
def execStoreRetirement (r : Fin 13) (perr : Bool) (s : State) : Host.Outcome State Fault Refusal :=
  guarded s fun s => when s (isOn s) fun s => storeRow s r perr

/-- ATOMIC_PERFORMING_PASS (07 R175). -/
def execAtomicPerformingPass (r : Fin 13) (s : State) : Host.Outcome State Fault Refusal :=
  guarded s fun s => when s (isOn s) fun s => pipeRow s (.pass r) 1 false

/-- Step 2 of an MBIST run: once the ports are quiet, every open entry is marked (18 R422). -/
def quiesceMark (s : State) : State :=
  if s.tst.quiescing && quietE2 s then markAll { s with tst := { s.tst with quiescing := false } } else s

/-- The marked entry that comes first takes a slot (07 R166). -/
def drainRow (s : State) (perr : Bool) : State :=
  match drainPick s with
  | some e => if drainSlotLeft s then settle (startDrain s e perr) else s
  | none => s

/-- DRAIN_START (07 R166). -/
def execDrainStart (perr : Bool) (s : State) : Host.Outcome State Fault Refusal :=
  guarded s fun s => when s (isOn s) fun s => drainRow (quiesceMark s) perr

/-- COMPLETION_LOOKUP (07 R168). -/
def execCompletionLookup (slot : Nat) (s : State) : Host.Outcome State Fault Refusal :=
  guarded s fun s => when s (isOn s) fun s => pipeRow s (.completion slot) 1 false

/-- The drain that the port issues next writes (07 R471, 08 R198). -/
def writeRow (s : State) (i : Nat) (perr : Bool) : State :=
  match pickDrain s with
  | some (t, r) => if t.id = i then settle (drainWrite { s with qtk := { s.qtk with memRound := r } } t perr) else s
  | none => s

/-- DRAIN_WRITE (07 R167). -/
def execDrainWrite (slot : Nat) (perr : Bool) (s : State) : Host.Outcome State Fault Refusal :=
  guarded s fun s => when s (isOn s) fun s => writeRow s slot perr

/-- FLUSH_READ (07 R172). -/
def execFlushRead (s : State) : Host.Outcome State Fault Refusal :=
  guarded s fun s => when s (isOn s && !(flushWaiting s).isEmpty && slotFree s true) fun s => settle (flushIssue s)

end Sys2Proof.Machine
end

