-- ==== Sys2Proof/Machine/MemRows.lean ====
section
/-! DEFINITION. Rows of the Memory Port (12): completions, timeouts, link recovery, the link and its control registers, errors and
link-partner violations, and configuration requests. -/

namespace Sys2Proof.Machine

/-! ### Completions (12 R307, R472) -/

/-- The outstanding or quarantined read a completion matches. -/
def matching (s : State) (c : Cpl) : Option MRead :=
  if c.ridOk then s.mem.reads.find? fun m => m.tag == some c.tag.toNat else none

def ownerIsFlush (o : ReadOwner) : Bool :=
  match o with
  | .flush _ | .probe => true
  | _ => false

/-- POOL_READ_COMPLETION's completion: unexpected, late, or the data of a read other than a flush or probe read, which have rows of
their own. -/
def completionRow (s : State) (c : Cpl) (perr : Bool) : State :=
  match matching s c with
  | none => logMemViol s 1 c.header
  | some m =>
    if m.quar then settle (lateCpl s m c.tag.toNat c)
    else if ownerIsFlush m.owner then s
    else settle (dataCpl s m c.tag.toNat c perr)

/-- POOL_READ_COMPLETION (12 R307, 10 R248). -/
def execPoolReadCompletion (c : Cpl) (perr : Bool) (s : State) : Host.Outcome State Fault Refusal :=
  guarded s fun s => when s (isOn s && s.mem.dlUp) fun s => completionRow s c perr

/-- The completion of a flush read. -/
def flushRow (s : State) (c : Cpl) : State :=
  match matching s c with
  | some m =>
    match m.owner with
    | .flush i => if m.quar then s else settle (flushCpl s i c.tag.toNat m c)
    | _ => s
  | none => s

/-- FLUSH_READ_DONE (07 R173, 12 R307 code 0x05). -/
def execFlushReadDone (c : Cpl) (s : State) : Host.Outcome State Fault Refusal :=
  guarded s fun s => when s (isOn s && s.mem.dlUp) fun s => flushRow s c

/-! ### Timeouts and recovery (12 R296 to R298, 11 R275) -/

/-- The outstanding read of a tag passes T_cpl; the probe read has a row of its own. -/
def timeoutRow (s : State) (tag : Nat) : State :=
  match s.mem.reads.find? fun m => m.tag == some tag && !m.quar with
  | some m => if m.owner = .probe then s else settle (readTimeout s m)
  | none => s

/-- COMPLETION_TIMEOUT (11 R275). -/
def execCompletionTimeout (tag : BitVec 8) (s : State) : Host.Outcome State Fault Refusal :=
  guarded s fun s => when s (isOn s) fun s => timeoutRow s tag.toNat

/-- LINK_TRAIN_TIMEOUT (12 R297 step 2). -/
def execLinkTrainTimeout (s : State) : Host.Outcome State Fault Refusal :=
  guarded s fun s => when s (isOn s && s.mem.recov == .training && !s.mem.dlUp) fun s => settle (recoveryProbe s)

/-- The probe read ends with a completion, or passes T_cpl (12 R297 steps 4 and 5). -/
def probeRow (s : State) (res : Option Cpl) : State :=
  match s.mem.reads.find? fun m => m.owner == .probe && !m.quar with
  | none => s
  | some m =>
    match res with
    | none => settle (probeFailed (endParts s .probe false))
    | some c =>
      if !c.ridOk || m.tag != some c.tag.toNat || !s.mem.dlUp then s
      else if zeroLenOk m c then settle (probeMet (dropRead s c.tag.toNat))
      else settle (probeFailed (dropRead (logMemViol s 5 c.header) c.tag.toNat))

/-- PROBE_READ_DONE. -/
def execProbeReadDone (res : Option Cpl) (s : State) : Host.Outcome State Fault Refusal :=
  guarded s fun s => when s (isOn s && s.mem.recov == .probing) fun s => probeRow s res

/-- POOL_DOWN_RETRY: step 11 of a boundary that found a retry due and has not started it; a boundary leaves none such (log entry 23). -/
def execPoolDownRetry (s : State) : Host.Outcome State Fault Refusal :=
  guarded s fun s => when s (isOn s && s.mem.retryDue) fun s => settle (startRetry s)

/-! ### The link (12 R303, R304, R309) -/

/-- LINK_DOWN (12 R297). -/
def execLinkDown (s : State) : Host.Outcome State Fault Refusal :=
  guarded s fun s => when s (isOn s && s.mem.dlUp) fun s => settle (linkLost s)

/-- A training is under way, or the link may leave Detect. -/
def trainDue (s : State) : Bool :=
  linkEn s && perstOffBit s && (!s.mem.dlUp || s.mem.recov == .training || s.mem.retraining)

/-- DL_UP (12 R309). -/
def execDlUp (speed width : BitVec 4) (s : State) : Host.Outcome State Fault Refusal :=
  guarded s fun s => when s (isOn s && s.pwr.st != .offrdy && trainDue s) fun s => settle (linkUp s speed width)

/-- LINK_ENABLE (12 R473). -/
def execLinkEnable (who : Fin 8) (val : Reg32) (s : State) : Host.Outcome State Fault Refusal :=
  guarded s fun s => regRow s who rLinkCtrl val

/-- PERST_OFF (19 R432). -/
def execPerstOff (who : Fin 8) (val : Reg32) (s : State) : Host.Outcome State Fault Refusal :=
  guarded s fun s => regRow s who rLinkCtrl val

/-- The value that writes one action bit of MEM_LINK_CTRL and leaves EN and PERST_OFF as they are. -/
def linkAction (s : State) (b : Nat) : Reg32 := setBit (reg s rLinkCtrl) b true

/-- RETRAIN (12 R303): the write, and the end of the training it starts. -/
def execRetrain (who : Fin 8) (speed width : BitVec 4) (s : State) : Host.Outcome State Fault Refusal :=
  guarded s fun s =>
    let s := regRow s who rLinkCtrl (linkAction s 29)
    when s (isOn s && s.mem.dlUp && s.mem.retraining) fun s => settle (trained s speed width)

/-- HOTRST (12 R303). -/
def execHotrst (who : Fin 8) (s : State) : Host.Outcome State Fault Refusal :=
  guarded s fun s => regRow s who rLinkCtrl (linkAction s 28)

/-- The port is idle: no TLP queued or outstanding. -/
def portIdle (s : State) : Bool := s.mem.reads.isEmpty && !s.mem.cfgBusy && s.mem.recov == .idle && s.mem.dlUp

/-- ASPM_L1_ENTRY (12 R304). -/
def execAspmL1Entry (s : State) : Host.Outcome State Fault Refusal :=
  guarded s fun s => when s (isOn s && aspmL1 s && portIdle s && s.mem.pstate == 0) fun s =>
    { s with mem := { s.mem with pstate := 1 } }

/-! ### Errors and AER (12 R306) -/

/-- Bit of MEM_AER_COR of a correctable error the port detects. -/
def corBit (e : LinkErr) : Option Nat :=
  match e with
  | .receiver => some 0 | .badTlp => some 1 | .badDllp => some 2 | .replayTimeout => some 3 | .replayRollover => some 4
  | _ => none

/-- Bit of MEM_AER_UNC of a fatal one. -/
def uncBit (e : LinkErr) : Nat :=
  match e with
  | .dlProtocol => 1 | .flowControl => 2 | .receiverOverflow => 3 | _ => 0

/-- A port-detected error: counted, or fatal; a surprise down is the link going down too. -/
def linkErrorRow (s : State) (e : LinkErr) : State :=
  match corBit e with
  | some b => aerCorSet (count s cntCor) b
  | none =>
    let s := aerUncSet s (uncBit e)
    if e = .surpriseDown && s.mem.dlUp then linkLost s else startRecovery s 2

/-- LINK_ERROR. -/
def execLinkError (e : LinkErr) (s : State) : Host.Outcome State Fault Refusal :=
  guarded s fun s => when s (isOn s && linkEn s) fun s => settle (linkErrorRow s e)

/-- A message of the bridge. -/
def messageRow (s : State) (m : BridgeMsg) (header : List Reg32) : State :=
  match m with
  | .errCor => aerCorSet s 5
  | .errFatal => startRecovery (aerUncSet s 4) 2
  | .errNonfatal => aerUncSet s 5
  | .unsupported => logMemViol s 0x0C header

/-- BRIDGE_MESSAGE (12 R306, R307 code 0x0C). -/
def execBridgeMessage (m : BridgeMsg) (header : List Reg32) (s : State) : Host.Outcome State Fault Refusal :=
  guarded s fun s => when s (isOn s && s.mem.dlUp) fun s => settle (messageRow s m header)

/-- ASSERT_INTX. -/
def execAssertIntx (s : State) : Host.Outcome State Fault Refusal :=
  guarded s fun s => when s (isOn s && s.mem.dlUp) fun s => raiseInt { s with mem := { s.mem with bridgeInt := true } } srcMem

/-- DEASSERT_INTX. -/
def execDeassertIntx (s : State) : Host.Outcome State Fault Refusal :=
  guarded s fun s => when s (isOn s && s.mem.dlUp) fun s => { s with mem := { s.mem with bridgeInt := false } }

/-! ### Link-partner violations (12 R307) -/

/-- A request TLP or malformed TLP of the bridge: answered with UR, or discarded. -/
def requestTlp (s : State) (r : BridgeReq) (header : List Reg32) : State :=
  match r with
  | .mrd => logMemViol (sendTlp s .urCompletion) 6 header
  | .mwr => logMemViol s 7 header
  | .otherNonPosted => logMemViol (sendTlp s .urCompletion) 8 header
  | .otherPosted => logMemViol s 8 header
  | .malformed => logMemViol s 9 header

/-- BRIDGE_REQUEST. -/
def execBridgeRequest (r : BridgeReq) (header : List Reg32) (s : State) : Host.Outcome State Fault Refusal :=
  guarded s fun s => when s (isOn s && s.mem.dlUp) fun s => requestTlp s r header

/-- CLKREQ_IN_SLEEP (12 R307 code 0x0A). -/
def execClkreqInSleep (s : State) : Host.Outcome State Fault Refusal :=
  guarded s fun s => when s (s.pwr.phase == .sleep) fun s => { s with mem := { s.mem with clkreq := true } }

/-! ### Configuration requests (12 R302) -/

/-- CONFIG_REQUEST. -/
def execConfigRequest (who : Fin 8) (val : Reg32) (s : State) : Host.Outcome State Fault Refusal :=
  guarded s fun s => when s (val.getLsbD 31) fun s => regRow s who rCfgaCtrl val

def cplsCode (c : CplStatus) : BitVec 3 := match c with | .sc => 0 | .ur => 1 | .crs => 2 | .ca => 4

/-- The end of the configuration request. -/
def configEnd (s : State) (res : Option (CplStatus × Reg32)) : State :=
  let s := { s with mem := { s.mem with cfgBusy := false, cfgWait := none, cfgTag := none } }
  match res with
  | none => { s with mem := { s.mem with cfgCpls := 7 } }
  | some (c, d) =>
    let s := { s with mem := { s.mem with cfgCpls := cplsCode c } }
    if c = .sc && s.mem.cfgRead then regPut s rCfgaData d else s

/-- CONFIG_COMPLETION. -/
def execConfigCompletion (res : Option (CplStatus × Reg32)) (s : State) : Host.Outcome State Fault Refusal :=
  guarded s fun s => when s (isOn s && s.mem.cfgBusy && (res.isNone || (s.mem.dlUp && s.mem.cfgTag.isSome))) fun s => configEnd s res

/-- PME_TO_ACK (12 R305): the port's part of the way to Off ends, and Off preparation with it (15 R370). -/
def execPmeToAck (acked : Bool) (s : State) : Host.Outcome State Fault Refusal :=
  guarded s fun s => when s (isOn s && (s.pwr.entry.map (·.step)) == some .turnOff) fun s => offReady (turnOffDone s acked)

end Sys2Proof.Machine
end

