-- ==== Sys2Proof/Machine/EngineRows.lean ====
section
/-! DEFINITION. Rows of the command engine (09; 15 for the Vault commands and WAKE_EPOCH): its registers, descriptors, entries, and one
row for each command, which performs the command's next step. -/

namespace Sys2Proof.Machine

/-! ### Registers -/

/-- CMD_SQ_DB (09 R209). -/
def execCmdSqDb (who : Fin 8) (ring : Fin 4) (tail : BitVec 12) (s : State) : Host.Outcome State Fault Refusal :=
  guarded s fun s => regRow s who (0x5110 + 4 * ring.val) (tail.setWidth 32)

/-- CMD_ENABLE (09 R215, R223). -/
def execCmdEnable (who : Fin 8) (val : Reg32) (s : State) : Host.Outcome State Fault Refusal :=
  guarded s fun s => regRow s who 0x5100 val

/-- CMD_CTRL with EN as it stands and four action bits at `lo` (09 R222). -/
def ctrlValue (s : State) (mask : BitVec 4) (lo : Nat) : Reg32 := word [(lo, mask.toNat), (0, flag s.eng.en)]

/-- ABORT (09 R222). -/
def execAbort (who : Fin 8) (mask : BitVec 4) (s : State) : Host.Outcome State Fault Refusal :=
  guarded s fun s => regRow s who 0x5100 (ctrlValue s mask 8)

/-- RESTART (09 R222). -/
def execRestart (who : Fin 8) (mask : BitVec 4) (s : State) : Host.Outcome State Fault Refusal :=
  guarded s fun s => regRow s who 0x5100 (ctrlValue s mask 4)

/-- CMD_RING_WRITE (09 R206). -/
def execCmdRingWrite (who : Fin 8) (off : BitVec 16) (val : Reg32) (s : State) : Host.Outcome State Fault Refusal :=
  guarded s fun s => when s (decide (0x5000 ≤ off.toNat ∧ off.toNat < 0x5060) && (storedRow off.toNat).isSome) fun s =>
    regRow s who off.toNat val

/-- RING_HEAD_WRITE (09 R213, R237). -/
def execRingHeadWrite (who : Fin 8) (eq : Bool) (val : Reg32) (s : State) : Host.Outcome State Fault Refusal :=
  guarded s fun s => regRow s who (if eq then 0x5138 else 0x5130) val

/-- RSW_CLR (09 R229). -/
def execRswClr (who : Fin 8) (s : State) : Host.Outcome State Fault Refusal := guarded s fun s => regRow s who 0x510C 0x40000000

/-! ### Descriptors and entries -/

/-- DESCRIPTOR_READ (09 R212). -/
def execDescriptorRead (n : Fin 4) (s : State) : Host.Outcome State Fault Refusal :=
  guarded s fun s => when s (descDue s n) fun s => settle (descRead s n)

/-- DESCRIPTOR_READ_DONE (09 R217, R221). -/
def execDescriptorReadDone (n : Fin 4) (s : State) : Host.Outcome State Fault Refusal :=
  guarded s fun s => if isOn s then (match descDone s n with | some r => settle (descArrive s n r) | none => s) else s

/-- COMPLETION_ENTRY_WRITE (09 R214). -/
def execCompletionEntryWrite (s : State) : Host.Outcome State Fault Refusal :=
  guarded s fun s => when s (isOn s && entriesOpen s) fun s => settle (cqRow s)

/-- EVENT_ENTRY_WRITE (09 R237). -/
def execEventEntryWrite (s : State) : Host.Outcome State Fault Refusal :=
  guarded s fun s => when s (isOn s && entriesOpen s) fun s => settle (eqRow s)

/-- COMMAND_UNIT_DONE (09 R231). -/
def execCommandUnitDone (n : Fin 4) (perr : Bool) (s : State) : Host.Outcome State Fault Refusal :=
  guarded s fun s => when s (isOn s) fun s => settle (unitArrival s n perr)

/-! ### Commands -/

/-- One step of a command that needs no lookup of its own. -/
def stepRow (s : State) (n op : Nat) (f : State → Running → State) : State :=
  match stepDue s n op with
  | some x => settle (f s x)
  | none => s

/-- The next step of ring `n`'s command of opcode `op`, when the lookup pipeline takes it; `k` units of a walk (08 R197). -/
def unitRow (s : State) (n op k : Nat) : State :=
  if (getRun s n).any (·.opcode == op) then pipeRow s (.step n) k false else s

/-- NOP: it has no unit; its end is its final entry (09 R225). -/
def execNop (n : Fin 4) (s : State) : Host.Outcome State Fault Refusal :=
  guarded s fun s => stepRow s n 0 fun s x => finishRun s n x 0

/-- INVALIDATE_ALL (05 R127). -/
def execInvalidateAll (n : Fin 4) (units : Nat) (s : State) : Host.Outcome State Fault Refusal :=
  guarded s fun s => unitRow s n 1 units

/-- PRELOAD (06 R153): a waiting unit re-enters whoever holds the work buffer, for it is issued already (09 R218). -/
def execPreload (n : Fin 4) (s : State) : Host.Outcome State Fault Refusal :=
  guarded s fun s => when s (isOn s) fun s => unitRow s n 2 1

/-- LOCK_WAYS (06 R154). -/
def execLockWays (n : Fin 4) (s : State) : Host.Outcome State Fault Refusal :=
  guarded s fun s => unitRow s n 3 1

/-- UNLOCK_WAYS (06 R154). -/
def execUnlockWays (n : Fin 4) (s : State) : Host.Outcome State Fault Refusal :=
  guarded s fun s => unitRow s n 4 1

/-- REGION_DROP (09 R226). -/
def execRegionDrop (n : Fin 4) (units : Nat) (s : State) : Host.Outcome State Fault Refusal :=
  guarded s fun s => unitRow s n 5 units

/-- RESTRENGTH (09 R228). -/
def execRestrength (n : Fin 4) (s : State) : Host.Outcome State Fault Refusal :=
  guarded s fun s => unitRow s n 6 1

/-- VERIFY (09 R230). -/
def execVerify (n : Fin 4) (s : State) : Host.Outcome State Fault Refusal :=
  guarded s fun s => unitRow s n 7 1

/-- VAULT_SAVE (15 R375). -/
def execVaultSave (n : Fin 4) (s : State) : Host.Outcome State Fault Refusal :=
  guarded s fun s => stepRow s n 8 fun s x => saveStep s n x

/-- VAULT_LOAD (15 R376). -/
def execVaultLoad (n : Fin 4) (s : State) : Host.Outcome State Fault Refusal :=
  guarded s fun s => stepRow s n 9 fun s x => loadStep s n x

/-- A step of the WAKE_EPOCH that `run` names: its walk takes the lookup pipeline's cycles (08 R197, 15 R366). -/
def epochRow (s : State) (run : EpochRun) (units : Nat) : State :=
  match epochOf s run with
  | some e => if walkDue s e then pipeRow s (.step e.ring) units false else settle (epochStep s e)
  | none => s

/-- WAKE_EPOCH (15 R366, R368). -/
def execWakeEpoch (run : EpochRun) (units : Nat) (s : State) : Host.Outcome State Fault Refusal :=
  guarded s fun s => when s (isOn s) fun s => epochRow s run units

end Sys2Proof.Machine
end

