-- ==== Sys2Proof/Machine/RegisterRows.lean ====
section
/-! DEFINITION. Rows of register writes (16): the key, CFG_REF, snapshots, write-backs, aliases, posted domains, and every register
without a row of its own. -/

namespace Sys2Proof.Machine

/-- CFG_REF_WRITE (16 R402). -/
def execCfgRefWrite (who : Fin 8) (val : Reg32) (s : State) : Host.Outcome State Fault Refusal :=
  guarded s fun s => regRow s who rCfgRef val

/-- KEY_UNLOCK (16 R389). -/
def execKeyUnlock (who : Fin 8) (val : Reg32) (s : State) : Host.Outcome State Fault Refusal :=
  guarded s fun s => regRow s who 0xD000 val

/-- SNAP (16 R394). -/
def execSnap (who : Fin 8) (s : State) : Host.Outcome State Fault Refusal := guarded s fun s => regRow s who 0xD00C 0x80000000

/-- SNAP_CLR (16 R394). -/
def execSnapClr (who : Fin 8) (s : State) : Host.Outcome State Fault Refusal := guarded s fun s => regRow s who 0xD00C 0xC0000000

/-- SEQ_WRITE_BACK (16 R397). -/
def execSeqWriteBack (who : Fin 8) (off : BitVec 16) (val : Reg32) (s : State) : Host.Outcome State Fault Refusal :=
  guarded s fun s => when s (isRsq off.toNat) fun s => regRow s who off.toNat val

/-- BIT_ALIAS_WRITE (16 R392). -/
def execBitAliasWrite (who : Fin 8) (off : BitVec 16) (val : Reg32) (s : State) : Host.Outcome State Fault Refusal :=
  guarded s fun s => when s (decide (0xF000 ≤ off.toNat) && off.toNat % 4 == 0) fun s => regRow s who off.toNat val

/-- POSTED_WRITE_TAKEN (16 R395, 17 R408). -/
def execPostedWriteTaken (d : Domain) (s : State) : Host.Outcome State Fault Refusal :=
  guarded s fun s => match d with
    | .bedrock => when s (isOn s && s.pwr.busyBr) takeBedrock
    | .phy => when s (isOn s && s.pwr.busyPhy) takePhy

/-- REGISTER_WRITE (16 R386): any word of the window. -/
def execRegisterWrite (who : Fin 8) (off : BitVec 16) (val : Reg32) (s : State) : Host.Outcome State Fault Refusal :=
  guarded s fun s => when s (off.toNat % 4 == 0) fun s => regRow s who off.toNat val

/-- DMA_RESTART (11 R266). -/
def execDmaRestart (who : Fin 8) (mask : BitVec 4) (s : State) : Host.Outcome State Fault Refusal :=
  guarded s fun s => regRow s who 0x700C (word [(8, mask.toNat)])

end Sys2Proof.Machine
end

