-- ==== Sys2Proof/Machine/PowerRows.lean ====
section
/-! DEFINITION. Rows of power states (15): Sleep entry, wake, Off preparation, the loss of supplies. -/

namespace Sys2Proof.Machine

/-! ### Sleep and Off entry (R360 to R362, R370) -/

/-- SLEEP_REQ. -/
def execSleepReq (s : State) : Host.Outcome State Fault Refusal := guarded s fun s => when s (isOn s) sleepEdge

/-- SLEEP. -/
def execSleep (who : Fin 8) (s : State) : Host.Outcome State Fault Refusal := guarded s fun s => regRow s who 0xB000 0x80000000

/-- OFFPREP. -/
def execOffprep (who : Fin 8) (s : State) : Host.Outcome State Fault Refusal := guarded s fun s => regRow s who 0xB000 0x40000000

/-- SLEEP_ENTRY: the next step of entry whose condition holds. -/
def entryRow (s : State) : State := match s.pwr.entry with | some e => settle (entryStep s e) | none => s

def execSleepEntry (s : State) : Host.Outcome State Fault Refusal := guarded s fun s => when s (isOn s) entryRow

/-- Step E4 is in progress. -/
def atE4 (s : State) : Bool := (s.pwr.entry.map (·.step)) == some .e4

/-- LINK_L12_REACHED: steps E4 to E6. -/
def execLinkL12Reached (s : State) : Host.Outcome State Fault Refusal :=
  guarded s fun s => when s (isOn s && atE4 s && portIdle s && quietE2 s && drained s) fun s => settle (sleepNow s)

/-- The limit has passed: ENTRY_TMO boundaries since entry started, or 100 µs since step E4 began. -/
def entryLate (s : State) (c : EntryTimeout) : Bool :=
  match s.pwr.entry, c with
  | some e, .entryTmo => entryTmoPassed s e
  | some e, .l12Limit => e.step == .e4
  | none, _ => false

/-- SLEEP_ENTRY_TIMEOUT. -/
def execSleepEntryTimeout (c : EntryTimeout) (s : State) : Host.Outcome State Fault Refusal :=
  guarded s fun s => when s (isOn s && entryLate s c) fun s =>
    settle (abandon s (match c with | .entryTmo => 2 | .l12Limit => 4))

/-- SLEEP_HEARTBEAT_TOGGLE (R372): in Sleep, and in a wake until class-0-ready. -/
def execSleepHeartbeatToggle (s : State) : Host.Outcome State Fault Refusal :=
  guarded s fun s => when s (s.pwr.phase == .sleep || (isOn s && s.pwr.st == .waking && !s.pwr.c0Rdy)) fun s =>
    { s with pwr := { s.pwr with hb := !s.pwr.hb } }

/-! ### Wake (R363 to R369) -/

/-- WAKE_REQ. -/
def execWakeReq (s : State) : Host.Outcome State Fault Refusal :=
  guarded s fun s => when s (isOn s || s.pwr.phase == .sleep) wakeEdge

/-- The port's wake step is still to end. -/
def w4Due (s : State) : Bool := match s.pwr.wake with | some w => !w.w4 | none => false

/-- The port's wake ends; a loss ends the wake's walk, since the cache has left the enabled state (R369). -/
def cspWakeRow (s : State) (pass : Bool) : State :=
  let s := setWake (cspWoken s pass) fun w => { w with w4 := true }
  if s.cch.enabled then s
  else updRun { s with cch := { s.cch with filter := [], walked := 0 } } 4 fun x => { x with total := min x.total (max 8 x.doneN) }

/-- CSP_WAKE (13 R331): its PLL has the crystal to lock to (14 R335). -/
def execCspWake (pass : Bool) (s : State) : Host.Outcome State Fault Refusal :=
  guarded s fun s => when s (isOn s && s.clk.xoOk && w4Due s) fun s => settle (cspWakeRow s pass)

/-- The page read falls due; a link that is not there has gone down (R366 step 1, R369). -/
def l0Row (s : State) (inL0 : Bool) : State :=
  match s.pwr.wake with
  | none => s
  | some w =>
    if w.w5 then s
    else
      let s := setWake s fun w => { w with w5 := true }
      let s := if inL0 then { s with mem := { s.mem with pstate := 0 } } else linkLost s
      settle (if w.w7 then s else pageDue (selfEpoch s) (inL0 && s.mem.dlUp))

/-- L12_EXIT_DONE (12 R304). -/
def execL12ExitDone (inL0 : Bool) (s : State) : Host.Outcome State Fault Refusal :=
  guarded s fun s => when s (isOn s) fun s => l0Row s inL0

/-- Class-0-ready: the relock, the port's wake and the decision have ended (R364 W8). -/
def class0Due (s : State) : Bool := match s.pwr.wake with | some w => w.w3 && w.w4 && w.w7 && !s.pwr.c0Rdy | none => false

/-- The wake is over once both are ready. -/
def wakeOver (s : State) : State :=
  if s.pwr.c0Rdy && s.pwr.fullRdy then { s with pwr := { s.pwr with st := .run, wake := none } } else s

/-- CLASS0_READY (R365, R367): the pins leave their Sleep states, and x_RSNS_N is sampled again (19 R426). -/
def execClass0Ready (us : BitVec 16) (s : State) : Host.Outcome State Fault Refusal :=
  guarded s fun s => when s (isOn s && class0Due s) fun s =>
    let s := (List.range 12).foldl sampleRsns { s with pwr := { s.pwr with c0Rdy := true } }
    settle (wakeOver (event s 11 2 (payload [(16, us.toNat)])))

/-- The wake's own run of WAKE_EPOCH. -/
def ownEpoch (s : State) : Option Epoch := s.eng.epoch.filter fun e => e.ring == 4

/-- Full ready: the wake's run ends, or without one class-0-ready has come (R364 W10, R368). -/
def fullDue (s : State) : Bool :=
  s.pwr.wake.isSome && !s.pwr.fullRdy && (match ownEpoch s with | some e => epochOver e | none => s.pwr.c0Rdy)

/-- The end of the wake's run: SEEN is written, the filter disarms, its DONE entry is queued. -/
def ownEnd (s : State) : State :=
  match ownEpoch s, getRun s 4 with
  | some e, some x =>
    let s := finishRun (applyEpoch s e) 4 x 0
    { s with eng := { s.eng with buffer := none, walker := none } }
  | _, _ => s

/-- FULL_READY (R367, R368). -/
def fullRow (s : State) (us : BitVec 16) : State :=
  let o := match s.pwr.wake with | some w => outcomeCode w.outcome | none => 0
  let s := ownEnd s
  let s := event { s with pwr := { s.pwr with fullRdy := true } } 11 3 (payload [(16, us.toNat), (18, o)])
  settle (wakeOver (raiseInt s srcPwr))

def execFullReady (us : BitVec 16) (s : State) : Host.Outcome State Fault Refusal :=
  guarded s fun s => when s (isOn s && fullDue s) fun s => fullRow s us

/-! ### Off (R353, R356, 20 R451) -/

/-- Nothing but the Vault survives. -/
def offKept (s : State) : State :=
  let r := resetKept s
  { r with pwr := { r.pwr with phase := .off }, tst := Tst.reset }

/-- BEDROCK_SUPPLY_LOSS (R356). -/
def execBedrockSupplyLoss (s : State) : Host.Outcome State Fault Refusal :=
  guarded s fun s => when s (s.pwr.phase == .sleep) offKept

/-- SUPPLIES_REMOVED (20 R451). -/
def execSuppliesRemoved (s : State) : Host.Outcome State Fault Refusal := .next (offKept s)

end Sys2Proof.Machine
end

