-- ==== Sys2Proof/Machine/Tap.lean ====
section
/-! DEFINITION. The test access port (18 R410 to R420, R425): the cells of the boundary register, the levels that the scanned pins
follow, and a cycle of TCK. -/

namespace Sys2Proof.Machine

/-! ### The boundary register (R417, R418) -/

/-- Scanned signals; a differential pair is one (R417). -/
inductive ScanSig where
  | ad (p : PortId) | adp (p : PortId) | avldN (p : PortId) | reqN (p : PortId) | urgN (p : PortId) | rsnsN (p : PortId)
  | packN (p : PortId) | clk (p : PortId) | rvldN (p : PortId) | gntN (p : PortId) | pvN (p : PortId) | prb (p : PortId)
  | prbp (p : PortId)
  | ddrDq | ddrCb | ddrDqs | ddrDmN | ddrCk | ddrA | ddrBa | ddrBg | ddrActN | ddrCsN | ddrCke | ddrOdt | ddrPar | ddrResetN
  | ddrAlertN | peTx | peRx | sync | peClkreqN | intN | faultN | heartbeat | pePerstN | porstN | sleepReq | wakeReq | rwbSel
  deriving DecidableEq, Repr

/-- Kinds of signals. -/
inductive ScanKind where
  | input | output | bidir | peTx | peRx
  deriving DecidableEq, Repr

/-- What a cell does. -/
inductive CellRole where
  | control | output | input | legP | legN
  deriving DecidableEq, Repr

/-- The cells of one signal, lowest number first. -/
def cellRoles (k : ScanKind) : List CellRole :=
  match k with
  | .input => [.input]
  | .output | .peTx => [.control, .output]
  | .bidir => [.control, .output, .input]
  | .peRx => [.legP, .legN]

/-- A bus of scanned signals, bit 0 first. -/
structure ScanBus where
  sig   : ScanSig
  width : Nat
  kind  : ScanKind
  deriving DecidableEq, Repr

/-- A cell: the signal it belongs to, the bit of its bus, and what it does. -/
structure ScanCell where
  sig  : ScanSig
  bit  : Nat
  role : CellRole
  deriving DecidableEq, Repr

def portBuses (p : PortId) : List ScanBus :=
  [⟨.ad p, 64, .bidir⟩, ⟨.adp p, 8, .bidir⟩,
   ⟨.avldN p, 1, .input⟩, ⟨.reqN p, 6, .input⟩, ⟨.urgN p, 6, .input⟩, ⟨.rsnsN p, 6, .input⟩, ⟨.packN p, 4, .input⟩,
   ⟨.clk p, 1, .output⟩, ⟨.rvldN p, 1, .output⟩, ⟨.gntN p, 6, .output⟩, ⟨.pvN p, 1, .output⟩, ⟨.prb p, 48, .output⟩,
   ⟨.prbp p, 6, .output⟩]

def ddrBuses : List ScanBus :=
  [⟨.ddrDq, 64, .bidir⟩, ⟨.ddrCb, 8, .bidir⟩, ⟨.ddrDqs, 9, .bidir⟩,
   ⟨.ddrDmN, 10, .output⟩, ⟨.ddrCk, 2, .output⟩, ⟨.ddrA, 18, .output⟩, ⟨.ddrBa, 2, .output⟩, ⟨.ddrBg, 2, .output⟩,
   ⟨.ddrActN, 1, .output⟩, ⟨.ddrCsN, 2, .output⟩, ⟨.ddrCke, 2, .output⟩, ⟨.ddrOdt, 2, .output⟩, ⟨.ddrPar, 1, .output⟩,
   ⟨.ddrResetN, 1, .output⟩, ⟨.ddrAlertN, 1, .input⟩]

def otherBuses : List ScanBus :=
  [⟨.peTx, 8, .peTx⟩, ⟨.peRx, 8, .peRx⟩, ⟨.sync, 1, .bidir⟩, ⟨.peClkreqN, 1, .bidir⟩,
   ⟨.intN, 1, .output⟩, ⟨.faultN, 1, .output⟩, ⟨.heartbeat, 1, .output⟩, ⟨.pePerstN, 1, .output⟩,
   ⟨.porstN, 1, .input⟩, ⟨.sleepReq, 1, .input⟩, ⟨.wakeReq, 1, .input⟩, ⟨.rwbSel, 3, .input⟩]

/-- The signals in the order of R418. -/
def scanBuses : List ScanBus := portBuses .A ++ portBuses .B ++ ddrBuses ++ otherBuses

/-- Cells of one bus. -/
def ScanBus.cells (b : ScanBus) : Nat := b.width * (cellRoles b.kind).length

/-- Cell `n`, counted from the first cell of the list. -/
def cellIn : List ScanBus → Nat → Option ScanCell
  | [], _ => none
  | b :: l, n =>
    if n < b.cells then
      let r := cellRoles b.kind
      (r[n % r.length]?).map fun x => { sig := b.sig, bit := n / r.length, role := x }
    else cellIn l (n - b.cells)

/-- Cell `n` of the boundary register. -/
def cellOf (n : Nat) : Option ScanCell := cellIn scanBuses n

/-- The first cell of bit `i` of a signal, and the signal's kind. -/
def cellsFrom : List ScanBus → ScanSig → Nat → Option (Nat × ScanKind)
  | [], _, _ => none
  | b :: l, g, i =>
    if b.sig = g then (if i < b.width then some (i * (cellRoles b.kind).length, b.kind) else none)
    else (cellsFrom l g i).map fun x => (x.1 + b.cells, x.2)

/-- Cells that an Update-DR writes: control and output cells. -/
def driveCells : BitVec 1112 :=
  (List.range 1112).foldl (fun x n =>
    match cellOf n with
    | some c => if c.role = .control ∨ c.role = .output then x ||| BitVec.ofNat 1112 (2 ^ n) else x
    | none => x) 0

/-- The legs' cells of the test receivers. -/
def rxFirst : Nat := 1076

/-! ### Instructions (R413, R414, R425) -/

/-- The instruction of an opcode. -/
def tapOpcode (op : BitVec 8) : TapInstr :=
  match op.toNat with
  | 0x00 => .extest
  | 0x01 => .sample
  | 0x02 => .idcode
  | 0x03 => .highz
  | 0x04 => .clamp
  | 0x05 => .pulse
  | 0x06 => .train
  | 0x20 => .mbist
  | _ => .bypass

/-- Private instructions act as BYPASS (R425). -/
def privDis (s : State) : Bool := (reg s rTapCfg).getLsbD 0

/-- The instruction in force. -/
def tapActs (s : State) : TapInstr := if s.tst.tap.instr = .mbist ∧ privDis s then .bypass else s.tst.tap.instr

/-- Instructions of the TAP that take control of pins. -/
def pinControl (i : TapInstr) : Bool :=
  match i with
  | .extest | .highz | .clamp | .pulse | .train => true
  | _ => false

/-! ### Levels at the pins (R414, R417, R419, R420) -/

/-- What drives a scanned pin: the 8140's own function, nothing, or a level of the boundary register. -/
inductive PinDrive where
  | core
  | undriven
  | level (b : Bool)
  deriving DecidableEq, Repr

/-- The level that bit `i` of a signal takes from the updated cells: undriven with its control cell at 0. -/
def cellDrive (s : State) (g : ScanSig) (i : Nat) : PinDrive :=
  match cellsFrom scanBuses g i with
  | some (n, .output) | some (n, .bidir) =>
    if s.tst.tap.update.getLsbD n then .level (s.tst.tap.update.getLsbD (n + 1)) else .undriven
  | some (n, .peTx) =>
    if s.tst.tap.update.getLsbD n then .level (s.tst.tap.update.getLsbD (n + 1) ^^ s.tst.tap.flip) else .undriven
  | _ => .undriven

/-- The drive of bit `i` of a scanned signal; of a transmitter pair it is P's, and N has the complement. An undriven transmitter pair
is in electrical idle. -/
def pinDrive (s : State) (g : ScanSig) (i : Nat) : PinDrive :=
  if !pinControl s.tst.tap.instr then .core
  else if s.tst.tap.instr = .highz then .undriven
  else cellDrive s g i

/-- Peak-to-peak differential test drive in mV, of the copy of TST_LANE_CFG in the PHY domain; 0b11 acts as 0b00. -/
def txLevel (s : State) : Nat :=
  match fld s.pwr.lanePhy 5 4 with
  | 1 => 1000
  | 2 => 600
  | _ => 800

/-- Hysteresis of the test receivers in mV. -/
def rxHyst (s : State) : Nat := 50 * (fld s.pwr.lanePhy 1 0 + 1)

/-- The drive of transmitter lane `k`: the levels of P and N and the swing in mV, or electrical idle. None where a pin-control instruction
is not in force. -/
def laneDrive (s : State) (k : Nat) : Option (Bool × Bool × Nat) :=
  match pinDrive s .peTx k with
  | .level b => some (b, !b, txLevel s)
  | _ => none

/-- The test receivers see transitions under the AC instructions, those of at least the hysteresis (R419). -/
def seeSwing (s : State) (x : Swing) : State :=
  if (s.tst.tap.instr = .pulse ∨ s.tst.tap.instr = .train) ∧ rxHyst s ≤ x.mv then
    { s with tst := { s.tst with tap := { s.tst.tap with rx := setBit s.tst.tap.rx x.leg.val x.rise } } }
  else s

/-- What the boundary register captures: the pins' levels, and under an AC instruction the last transition at each leg (R419). -/
def cellCapture (s : State) (pins : BitVec 1112) : BitVec 1112 :=
  if s.tst.tap.instr = .pulse ∨ s.tst.tap.instr = .train then
    let legs : BitVec 1112 := (BitVec.allOnes 16).setWidth 1112 <<< rxFirst
    (pins &&& ~~~legs) ||| (s.tst.tap.rx.setWidth 1112 <<< rxFirst)
  else pins

/-! ### The controller (R410, IEEE 1149.1) -/

/-- The state after a rising edge of TCK. -/
def TapState.next (st : TapState) (tms : Bool) : TapState :=
  match st with
  | .testLogicReset => if tms then .testLogicReset else .runTestIdle
  | .runTestIdle | .updateDr | .updateIr => if tms then .selectDr else .runTestIdle
  | .selectDr => if tms then .selectIr else .captureDr
  | .captureDr | .shiftDr => if tms then .exit1Dr else .shiftDr
  | .exit1Dr => if tms then .updateDr else .pauseDr
  | .pauseDr => if tms then .exit2Dr else .pauseDr
  | .exit2Dr => if tms then .updateDr else .shiftDr
  | .selectIr => if tms then .testLogicReset else .captureIr
  | .captureIr | .shiftIr => if tms then .exit1Ir else .shiftIr
  | .exit1Ir => if tms then .updateIr else .pauseIr
  | .pauseIr => if tms then .exit2Ir else .pauseIr
  | .exit2Ir => if tms then .updateIr else .shiftIr

/-- Data registers (R413). -/
inductive TapReg where
  | boundary | ident | bypass | mbist
  deriving DecidableEq, Repr

/-- The data register between TDI and TDO. -/
def tapReg (i : TapInstr) : TapReg :=
  match i with
  | .extest | .sample | .pulse | .train => .boundary
  | .idcode => .ident
  | .mbist => .mbist
  | .highz | .clamp | .bypass => .bypass

/-- Bits that Capture-IR loads (R412). -/
def irCapture (s : State) : BitVec 8 :=
  BitVec.ofNat 8 (1 + 4 * flag s.tst.busy + 8 * flag s.clk.lock + 16 * flag (s.tst.fail != 0))

def updTap (s : State) (f : Tap → Tap) : State := { s with tst := { s.tst with tap := f s.tst.tap } }

/-- Capture-DR (R415 to R417, R425). -/
def captureDr (s : State) (pins : BitVec 1112) : State :=
  match tapReg (tapActs s) with
  | .boundary => updTap s fun p => { p with cells := cellCapture s pins }
  | .ident => updTap s fun p => { p with dr := 0x281409AB }
  | .mbist => updTap s fun p => { p with dr := mbistRes s }
  | .bypass => updTap s fun p => { p with byp := 0 }

/-- The bit that goes out while the selected data register shifts. -/
def drOut (s : State) : Bool :=
  match tapReg (tapActs s) with
  | .boundary => s.tst.tap.cells.getLsbD 0
  | .ident | .mbist => s.tst.tap.dr.getLsbD 0
  | .bypass => s.tst.tap.byp.getLsbD 0

/-- One shift of the selected data register; cell 0 is nearest TDO. -/
def shiftDr (s : State) (tdi : Bool) : State :=
  let s := emit s (.tdo (drOut s))
  match tapReg (tapActs s) with
  | .boundary => updTap s fun p => { p with cells := shiftIn p.cells tdi }
  | .ident | .mbist => updTap s fun p => { p with dr := shiftIn p.dr tdi }
  | .bypass => updTap s fun p => { p with byp := shiftIn p.byp tdi }

/-- The rising edge of TCK: what the controller's state does, and the move that TMS asks. EXTEST_PULSE drives its transition when
Run-Test/Idle is entered, and EXTEST_TRAIN the cells' levels outside it (R419). -/
def tckRise (s : State) (pins : BitVec 1112) (t : Tck) : State :=
  let st := s.tst.tap.st
  let s :=
    match st with
    | .captureIr => updTap s fun p => { p with ir := irCapture s }
    | .shiftIr => updTap (emit s (.tdo (s.tst.tap.ir.getLsbD 0))) fun p => { p with ir := shiftIn p.ir t.tdi }
    | .captureDr => captureDr s pins
    | .shiftDr => shiftDr s t.tdi
    | _ => s
  let st' := st.next t.tms
  updTap s fun p =>
    { p with
      st := st'
      flip :=
        match p.instr with
        | .pulse => p.flip || (st' == .runTestIdle && st != .runTestIdle)
        | .train => p.flip && st' == .runTestIdle
        | _ => false }

/-- Update-IR applies the opcode; a pin-control instruction makes the behaviour undefined from here on (R412, R414). -/
def updateIr (s : State) : State :=
  let i := tapOpcode s.tst.tap.ir
  let s := updTap s fun p => { p with instr := i, flip := false }
  if pinControl i then breach s .r414 else s

/-- Update-DR: output and control cells take what was shifted in (R417), and bit 31 of the MBIST register starts a run of the targets
in bits [8:0] while the core runs (R425). -/
def updateDr (s : State) : State :=
  match tapReg (tapActs s) with
  | .boundary => updTap s fun p => { p with update := p.cells &&& driveCells }
  | .mbist =>
    let x := s.tst.tap.dr
    if x.getLsbD 31 && isOn s && s.undef.isNone then settle (mbistStart s (x.extractLsb' 0 9)) else s
  | _ => s

/-- The falling edge of TCK: the updates, the instruction of Test-Logic-Reset, and the transmitters (R410, R419). -/
def tckFall (s : State) : State :=
  match s.tst.tap.st with
  | .testLogicReset => updTap s fun p => { p with instr := .idcode, flip := false }
  | .updateIr => updateIr s
  | .updateDr => updateDr (updTap s fun p => { p with flip := false })
  | .runTestIdle => updTap s fun p => { p with flip := if p.instr = .train then !p.flip else p.flip }
  | _ => updTap s fun p => { p with flip := false }

/-- A run of TCK (R410); TCK may stop in any state. -/
def tapRun (s : State) (x : TapRun) : State :=
  x.ticks.foldl (fun s t => tckFall (tckRise s x.pins t)) (x.swings.foldl seeSwing s)

/-! ### Scans: the cycles that a test uses -/

/-- The bits of a word, lowest first. -/
def scanBits {w : Nat} (x : BitVec w) : List Bool := (List.range w).map x.getLsbD

/-- The cycles in a Shift state: the last of them leaves it. -/
def shiftTicks : List Bool → List Tck
  | [] => []
  | [b] => [⟨true, b⟩]
  | b :: l => ⟨false, b⟩ :: shiftTicks l

/-- From Run-Test/Idle: a scan of the instruction register, to Run-Test/Idle. -/
def irScan (op : BitVec 8) : List Tck :=
  [⟨true, false⟩, ⟨true, false⟩, ⟨false, false⟩, ⟨false, false⟩] ++ shiftTicks (scanBits op) ++ [⟨true, false⟩, ⟨false, false⟩]

/-- From Run-Test/Idle: a scan of the selected data register with these bits, to Run-Test/Idle. -/
def drScan (bits : List Bool) : List Tck :=
  [⟨true, false⟩, ⟨false, false⟩, ⟨false, false⟩] ++ shiftTicks bits ++ [⟨true, false⟩, ⟨false, false⟩]

end Sys2Proof.Machine
end

