-- ==== Sys2Proof/Machine/TestRows.lean ====
section
/-! DEFINITION. Rows of built-in test and boundary scan (18). A row of a TAP instruction is a run of TCK at whose
end that instruction is in force. -/

namespace Sys2Proof.Machine

/-! ### MBIST (R421 to R424) -/

/-- MBIST_START. -/
def execMbistStart (who : Fin 8) (s : State) : Host.Outcome State Fault Refusal := guarded s fun s => regRow s who 0xE008 0x80000000

/-- The ports are quiet and every drain has issued its writes: the test runs. -/
def mbistReady (s : State) : Bool := s.tst.busy && quietE2 s && drained s

/-- What a run leaves of the contents of its targets (R423): queued probes are gone with the probe queues. -/
def mbistLoss (s : State) (t : BitVec 9) : State :=
  let s : State := if t.getLsbD 0 then
      { s with cch := { s.cch with invDone := false, tags := [], known := 0, epoch := s.cch.epoch + 1 } } else s
  let s : State := if t.getLsbD 6 then
      prune { s with prb := { s.prb with probes := s.prb.probes.map fun x => { x with toSend := 0 } } } else s
  let s : State := if t.getLsbD 8 then
      { s with err := { s.err with suspects := [] }, icb := { s.icb with recent := [] } } else s
  { s with wrb := { s.wrb with arms := List.replicate 8 none, armWr := 0 } }

/-- A run ends. -/
def mbistEnd (s : State) (fail : BitVec 9) : State :=
  mbistLoss { s with tst := { s.tst with busy := false, quiescing := false, done := true, fail := fail &&& s.tst.tested } } s.tst.tested

/-- MBIST_DONE. -/
def execMbistDone (fail : BitVec 9) (s : State) : Host.Outcome State Fault Refusal :=
  guarded s fun s => when s (isOn s && mbistReady s) fun s => settle (mbistEnd s fail)

/-! ### The TAP (R410 to R420, R425) -/

/-- Behaviour is undefined for another reason than the TAP's own (00 R5); the TAP itself works under a pin-control instruction. -/
def tapGuarded (s : State) (f : State → State) : Host.Outcome State Fault Refusal :=
  match s.undef with
  | none | some .r414 => .next (f s)
  | some c => .fault (.undefinedBehaviour c)

/-- The TAP is powered (R411). -/
def tapOn (s : State) : Bool := s.pwr.phase != .sleep && s.pwr.phase != .off

/-- TCK runs. The row is the one of the instruction in force at the end; cycles that end with another are no event of it (log entry 68). -/
def tapRow (s : State) (i : TapInstr) (x : TapRun) : State :=
  let t := tapRun s x
  if tapActs t = i then t else s

/-- TAP_RESET (R410): Test-Logic-Reset with IDCODE. The shift stages and the updated cells stay. -/
def execTapReset (s : State) : Host.Outcome State Fault Refusal :=
  tapGuarded s fun s => when s (tapOn s) fun s => updTap s fun p => { p with st := .testLogicReset, instr := .idcode, flip := false }

/-- EXTEST. -/
def execExtest (x : TapRun) (s : State) : Host.Outcome State Fault Refusal :=
  tapGuarded s fun s => when s (tapOn s) fun s => tapRow s .extest x

/-- SAMPLE_PRELOAD. -/
def execSamplePreload (x : TapRun) (s : State) : Host.Outcome State Fault Refusal :=
  tapGuarded s fun s => when s (tapOn s) fun s => tapRow s .sample x

/-- IDCODE (R415). -/
def execIdcode (x : TapRun) (s : State) : Host.Outcome State Fault Refusal :=
  tapGuarded s fun s => when s (tapOn s) fun s => tapRow s .idcode x

/-- HIGHZ. -/
def execHighz (x : TapRun) (s : State) : Host.Outcome State Fault Refusal :=
  tapGuarded s fun s => when s (tapOn s) fun s => tapRow s .highz x

/-- CLAMP. -/
def execClamp (x : TapRun) (s : State) : Host.Outcome State Fault Refusal :=
  tapGuarded s fun s => when s (tapOn s) fun s => tapRow s .clamp x

/-- EXTEST_PULSE (R419). -/
def execExtestPulse (x : TapRun) (s : State) : Host.Outcome State Fault Refusal :=
  tapGuarded s fun s => when s (tapOn s) fun s => tapRow s .pulse x

/-- EXTEST_TRAIN (R419). -/
def execExtestTrain (x : TapRun) (s : State) : Host.Outcome State Fault Refusal :=
  tapGuarded s fun s => when s (tapOn s) fun s => tapRow s .train x

/-- BYPASS (R416). -/
def execBypass (x : TapRun) (s : State) : Host.Outcome State Fault Refusal :=
  tapGuarded s fun s => when s (tapOn s) fun s => tapRow s .bypass x

/-- MBIST: opcode 0x20, which acts as BYPASS while PRIV_DIS = 1 (R425). -/
def execMbist (x : TapRun) (s : State) : Host.Outcome State Fault Refusal :=
  tapGuarded s fun s => when s (tapOn s) fun s =>
    let t := tapRun s x
    if t.tst.tap.instr = .mbist then t else s

end Sys2Proof.Machine
end

