-- ==== Sys2Proof/Machine/Dispatch.lean ====
section
/-! DEFINITION. One arm for each command: its meaning. -/

namespace Sys2Proof.Machine

/-- The effect of a command on everything but the queue. -/
def exec (i : Instr) (s : State) : Host.Outcome State Fault Refusal :=
  match i with
  | .porstNAssert => Sys2Proof.Machine.execPorstNAssert s
  | .coldReset straps => Sys2Proof.Machine.execColdReset straps s
  | .xoStable => Sys2Proof.Machine.execXoStable s
  | .relockComplete => Sys2Proof.Machine.execRelockComplete s
  | .lockMonitorWindow count => Sys2Proof.Machine.execLockMonitorWindow count s
  | .relock who => Sys2Proof.Machine.execRelock who s
  | .refback who => Sys2Proof.Machine.execRefback who s
  | .driftWindow count => Sys2Proof.Machine.execDriftWindow count s
  | .syncMeasRunEnd count => Sys2Proof.Machine.execSyncMeasRunEnd count s
  | .crystalStop => Sys2Proof.Machine.execCrystalStop s
  | .tickBoundary dmaReq => Sys2Proof.Machine.execTickBoundary dmaReq s
  | .syncEdge since relock dmaReq => Sys2Proof.Machine.execSyncEdge since relock dmaReq s
  | .syncLoss dmaReq => Sys2Proof.Machine.execSyncLoss dmaReq s
  | .grant port pins h0 => Sys2Proof.Machine.execGrant port pins h0 s
  | .read t => Sys2Proof.Machine.execRead t s
  | .readFetch t => Sys2Proof.Machine.execReadFetch t s
  | .readSpec t => Sys2Proof.Machine.execReadSpec t s
  | .write t => Sys2Proof.Machine.execWrite t s
  | .writeNt t => Sys2Proof.Machine.execWriteNt t s
  | .lockRead t => Sys2Proof.Machine.execLockRead t s
  | .lockWrite t => Sys2Proof.Machine.execLockWrite t s
  | .lockAbort t => Sys2Proof.Machine.execLockAbort t s
  | .atomic t => Sys2Proof.Machine.execAtomic t s
  | .watch t => Sys2Proof.Machine.execWatch t s
  | .barrier t => Sys2Proof.Machine.execBarrier t s
  | .avldOutOfTenure port => Sys2Proof.Machine.execAvldOutOfTenure port s
  | .responseTenure port pins collided upset => Sys2Proof.Machine.execResponseTenure port pins collided upset s
  | .resetSenseAssert who => Sys2Proof.Machine.execResetSenseAssert who s
  | .resetSenseDeassert who => Sys2Proof.Machine.execResetSenseDeassert who s
  | .portDisable who port val => Sys2Proof.Machine.execPortDisable who port val s
  | .probeSend port perr => Sys2Proof.Machine.execProbeSend port perr s
  | .probeAck k cycles late => Sys2Proof.Machine.execProbeAck k cycles late s
  | .probeTimeout k => Sys2Proof.Machine.execProbeTimeout k s
  | .prbRevive who mask => Sys2Proof.Machine.execPrbRevive who mask s
  | .missHandlerGrant => Sys2Proof.Machine.execMissHandlerGrant s
  | .poolReadCompletion cpl perr => Sys2Proof.Machine.execPoolReadCompletion cpl perr s
  | .fillInstall h => Sys2Proof.Machine.execFillInstall h s
  | .cacheStoreAccess ready => Sys2Proof.Machine.execCacheStoreAccess ready s
  | .cacheStoreReadDone id words => Sys2Proof.Machine.execCacheStoreReadDone id words s
  | .sectorClear => Sys2Proof.Machine.execSectorClear s
  | .tagSetClearing => Sys2Proof.Machine.execTagSetClearing s
  | .prefetchCandidate => Sys2Proof.Machine.execPrefetchCandidate s
  | .storeRetirement r perr => Sys2Proof.Machine.execStoreRetirement r perr s
  | .atomicPerformingPass r => Sys2Proof.Machine.execAtomicPerformingPass r s
  | .mergeAgeMark => Sys2Proof.Machine.execMergeAgeMark s
  | .drainStart perr => Sys2Proof.Machine.execDrainStart perr s
  | .completionLookup slot => Sys2Proof.Machine.execCompletionLookup slot s
  | .drainWrite slot perr => Sys2Proof.Machine.execDrainWrite slot perr s
  | .flushRead => Sys2Proof.Machine.execFlushRead s
  | .flushReadDone cpl => Sys2Proof.Machine.execFlushReadDone cpl s
  | .lockTimeout k => Sys2Proof.Machine.execLockTimeout k s
  | .bucketLeak n => Sys2Proof.Machine.execBucketLeak n s
  | .suspectExpire => Sys2Proof.Machine.execSuspectExpire s
  | .screeRetirement => Sys2Proof.Machine.execScreeRetirement s
  | .completionTimeout tag => Sys2Proof.Machine.execCompletionTimeout tag s
  | .linkTrainTimeout => Sys2Proof.Machine.execLinkTrainTimeout s
  | .probeReadDone cpl => Sys2Proof.Machine.execProbeReadDone cpl s
  | .poolDownRetry => Sys2Proof.Machine.execPoolDownRetry s
  | .linkDown => Sys2Proof.Machine.execLinkDown s
  | .linkError e => Sys2Proof.Machine.execLinkError e s
  | .bridgeMessage m header => Sys2Proof.Machine.execBridgeMessage m header s
  | .assertIntx => Sys2Proof.Machine.execAssertIntx s
  | .deassertIntx => Sys2Proof.Machine.execDeassertIntx s
  | .bridgeRequest r header => Sys2Proof.Machine.execBridgeRequest r header s
  | .clkreqInSleep => Sys2Proof.Machine.execClkreqInSleep s
  | .aspmL1Entry => Sys2Proof.Machine.execAspmL1Entry s
  | .configRequest who val => Sys2Proof.Machine.execConfigRequest who val s
  | .configCompletion res => Sys2Proof.Machine.execConfigCompletion res s
  | .linkEnable who val => Sys2Proof.Machine.execLinkEnable who val s
  | .perstOff who val => Sys2Proof.Machine.execPerstOff who val s
  | .retrain who speed width => Sys2Proof.Machine.execRetrain who speed width s
  | .hotrst who => Sys2Proof.Machine.execHotrst who s
  | .pmeToAck acked => Sys2Proof.Machine.execPmeToAck acked s
  | .cspInit who => Sys2Proof.Machine.execCspInit who s
  | .cspInitStepDone r => Sys2Proof.Machine.execCspInitStepDone r s
  | .ddrRefresh rank => Sys2Proof.Machine.execDdrRefresh rank s
  | .zqcs rank => Sys2Proof.Machine.execZqcs rank s
  | .ddrAlert rank => Sys2Proof.Machine.execDdrAlert rank s
  | .vddqLowInSleep => Sys2Proof.Machine.execVddqLowInSleep s
  | .cmdSqDb who ring tail => Sys2Proof.Machine.execCmdSqDb who ring tail s
  | .descriptorRead ring => Sys2Proof.Machine.execDescriptorRead ring s
  | .descriptorReadDone ring => Sys2Proof.Machine.execDescriptorReadDone ring s
  | .completionEntryWrite => Sys2Proof.Machine.execCompletionEntryWrite s
  | .eventEntryWrite => Sys2Proof.Machine.execEventEntryWrite s
  | .commandUnitDone ring perr => Sys2Proof.Machine.execCommandUnitDone ring perr s
  | .nop ring => Sys2Proof.Machine.execNop ring s
  | .invalidateAll ring units => Sys2Proof.Machine.execInvalidateAll ring units s
  | .preload ring => Sys2Proof.Machine.execPreload ring s
  | .lockWays ring => Sys2Proof.Machine.execLockWays ring s
  | .unlockWays ring => Sys2Proof.Machine.execUnlockWays ring s
  | .regionDrop ring units => Sys2Proof.Machine.execRegionDrop ring units s
  | .restrength ring => Sys2Proof.Machine.execRestrength ring s
  | .verify ring => Sys2Proof.Machine.execVerify ring s
  | .vaultSave ring => Sys2Proof.Machine.execVaultSave ring s
  | .vaultLoad ring => Sys2Proof.Machine.execVaultLoad ring s
  | .wakeEpoch run units => Sys2Proof.Machine.execWakeEpoch run units s
  | .cmdEnable who val => Sys2Proof.Machine.execCmdEnable who val s
  | .abort who mask => Sys2Proof.Machine.execAbort who mask s
  | .restart who mask => Sys2Proof.Machine.execRestart who mask s
  | .cmdRingWrite who off val => Sys2Proof.Machine.execCmdRingWrite who off val s
  | .ringHeadWrite who eq val => Sys2Proof.Machine.execRingHeadWrite who eq val s
  | .rswClr who => Sys2Proof.Machine.execRswClr who s
  | .cacheEnable who => Sys2Proof.Machine.execCacheEnable who s
  | .cacheDisable who => Sys2Proof.Machine.execCacheDisable who s
  | .crcPassStart => Sys2Proof.Machine.execCrcPassStart s
  | .commitWindowExpire => Sys2Proof.Machine.execCommitWindowExpire s
  | .cfgRefWrite who val => Sys2Proof.Machine.execCfgRefWrite who val s
  | .keyUnlock who val => Sys2Proof.Machine.execKeyUnlock who val s
  | .keyLapse => Sys2Proof.Machine.execKeyLapse s
  | .snap who => Sys2Proof.Machine.execSnap who s
  | .snapClr who => Sys2Proof.Machine.execSnapClr who s
  | .seqWriteBack who off val => Sys2Proof.Machine.execSeqWriteBack who off val s
  | .bitAliasWrite who off val => Sys2Proof.Machine.execBitAliasWrite who off val s
  | .postedWriteTaken d => Sys2Proof.Machine.execPostedWriteTaken d s
  | .registerWrite who off val => Sys2Proof.Machine.execRegisterWrite who off val s
  | .dmaRestart who mask => Sys2Proof.Machine.execDmaRestart who mask s
  | .screeClr who => Sys2Proof.Machine.execScreeClr who s
  | .sleepReq => Sys2Proof.Machine.execSleepReq s
  | .sleep who => Sys2Proof.Machine.execSleep who s
  | .sleepEntry => Sys2Proof.Machine.execSleepEntry s
  | .linkL12Reached => Sys2Proof.Machine.execLinkL12Reached s
  | .sleepEntryTimeout cause => Sys2Proof.Machine.execSleepEntryTimeout cause s
  | .sleepHeartbeatToggle => Sys2Proof.Machine.execSleepHeartbeatToggle s
  | .wakeReq => Sys2Proof.Machine.execWakeReq s
  | .cspWake pass => Sys2Proof.Machine.execCspWake pass s
  | .l12ExitDone inL0 => Sys2Proof.Machine.execL12ExitDone inL0 s
  | .class0Ready us => Sys2Proof.Machine.execClass0Ready us s
  | .fullReady us => Sys2Proof.Machine.execFullReady us s
  | .offprep who => Sys2Proof.Machine.execOffprep who s
  | .bedrockSupplyLoss => Sys2Proof.Machine.execBedrockSupplyLoss s
  | .mbistStart who => Sys2Proof.Machine.execMbistStart who s
  | .mbistDone fail => Sys2Proof.Machine.execMbistDone fail s
  | .tapReset => Sys2Proof.Machine.execTapReset s
  | .extest scan => Sys2Proof.Machine.execExtest scan s
  | .samplePreload scan => Sys2Proof.Machine.execSamplePreload scan s
  | .idcode x => Sys2Proof.Machine.execIdcode x s
  | .highz shiftIn => Sys2Proof.Machine.execHighz shiftIn s
  | .clamp shiftIn => Sys2Proof.Machine.execClamp shiftIn s
  | .extestPulse scan => Sys2Proof.Machine.execExtestPulse scan s
  | .extestTrain x => Sys2Proof.Machine.execExtestTrain x s
  | .mbist shiftIn => Sys2Proof.Machine.execMbist shiftIn s
  | .bypass x => Sys2Proof.Machine.execBypass x s
  | .unattachedRequest port pair => Sys2Proof.Machine.execUnattachedRequest port pair s
  | .dlUp speed width => Sys2Proof.Machine.execDlUp speed width s
  | .suppliesRemoved => Sys2Proof.Machine.execSuppliesRemoved s

end Sys2Proof.Machine
end

