-- ==== Sys2Proof/Safety.lean ====
section
/-! DEFINITION. What counts as a sound state of the block, in the terms the statements use: canonical data, and bounds that the spec
gives its buffers and counters. -/

namespace Sys2Proof.Machine

/-- The canonical maps hold their form: the tag store, the register file, the live counts and their holding copies. -/
def State.canonical (s : State) : Prop :=
  mwf (fun _ => 0) s.cch.tags = true ∧ mwf resetVal s.cfg.regs = true ∧ mwf zero64 s.cfg.live = true ∧ mwf zero64 s.cfg.hold = true

/-- Reserved bits of stored registers store 0 (00 R13). -/
def State.reservedClear (s : State) : Prop := ∀ e ∈ s.cfg.regs, e.2 &&& ~~~(storedMask e.1) = 0

/-- A request has a number that was given out, and so has the request a waiting response answers. -/
def State.numbered (s : State) : Prop :=
  (∀ r ∈ s.bus.reqs, r.id < s.bus.nextReq) ∧ ∀ r ∈ s.bus.resps, ∀ i, r.req = some i → i < s.bus.nextReq

/-- The fixed-size arrays have the size the spec gives them: the four submission rings and the one of WAKE_EPOCH at wake (09 R205),
six error buckets (11 R270), the arms of eight agents (07 R178), the stride detectors of twelve requesters (06 R149), eight Vault
slots (15 R373), four header words of the link-partner violation log (12 R308). Requests are numbered. -/
def State.shaped (s : State) : Prop :=
  s.eng.rings.length = 5 ∧ s.err.buckets.length = 6 ∧ s.wrb.arms.length = 8 ∧ s.cch.dets.length = 12 ∧ s.vlt.slots.length = 8 ∧
  s.mem.vHdr.length = 4 ∧ s.numbered

/-- A sound state. -/
def State.sound (s : State) : Prop := s.canonical ∧ s.reservedClear ∧ s.shaped

/-! ### What waiting work may do

A command does its own effect, and then `settle` lets the work that waits inside the block go on. `Ext a s` says how far the state `s`
may differ from the state `a` that the own effect left; the statements use it as their frame. -/

/-- What `settle` leaves of a ring as it is. -/
def ringFixed (r : Ring) : Ring := { r with head := 0, num := 0, stamps := [], held := none, run := none, dueQt := none }

/-- What no part of `settle` changes. -/
def settleFixed (s : State) : State :=
  { s with
    out := []
    bus := { s.bus with reqs := [], resps := [] }
    prb := { s.prb with probes := [], nextId := 0 }
    cch := { Cch.reset with known := s.cch.known, epoch := s.cch.epoch, enSeq := s.cch.enSeq, enFail := s.cch.enFail,
                            dlog0 := s.cch.dlog0, dlog1 := s.cch.dlog1 }
    wrb := { Wrb.reset with brk := s.wrb.brk }
    qtk := { s.qtk with budget := 0, memRound := Round.reset, pipeRound := Round.reset, portB := false }
    eng := { s.eng with rings := s.eng.rings.map ringFixed, cents := [], held := [], events := [], writes := [], window := none, epoch := none }
    err := { s.err with intStatus := 0, intSeq := 0, fBypass := false, dmaHalt := 0, bypLog := 0, buckets := [], ovf := 0,
                        bktSeq := 0, suspects := [], retire := [] }
    mem := { s.mem with reads := [], pstate := 0, cfgWait := none, cfgTag := none }
    csp := { s.csp with accs := [], nextAcc := 0 }
    cfg := { s.cfg with live := [], parSeen := [], okSince := false, passNew := false, stale := [] } }

/-- What stays of a request as it was admitted. -/
def admitted (r : Req) : Req :=
  { r with mark := .none, fwdMask := 0, fwdData := 0, phase := .done, queued := false, answered := false, looked := false,
           wasHit := false, armWas := none, miss := false, dur := .idle, own := .idle, result := 0, fail := 0 }

/-- The port requests that are still owed an answer. -/
def owed (s : State) : List Req :=
  (s.bus.reqs.filter fun r => decide (r.who < 12) && !r.answered && !silenced s r.who).map admitted

/-- Responses that wait on enabled ports for a requester that is no halted channel of `h`. -/
def answersOf (s : State) (h : BitVec 4) : List Resp :=
  s.bus.resps.filter fun r => portEn s (portOf r.who) && !(decide (8 ≤ r.who) && h.getLsbD (r.who - 8))

/-- Counters that `settle` may advance. -/
def settleCounters : List Nat :=
  [cntHit, cntSmiss, cntMiss, cntSpan, cntMhWait, cntNoAlloc, cntPfDrop, cntSpecRef, cntFetch, cntPoolFail, cntDmaHalt, cntSuspEvict,
   cntBypass, cntMrd, cntC0, cntDemote]

/-- What may become of `a` while waiting work goes on: `s` has the same fixed part, owes the same answers, and has gone on with
the outputs, responses, probes, events, entries, accesses and reads of `a`. Only responses of a port whose EN is 0 are dropped
(02 R59), and those of a channel that halts changed (11 R265). -/
structure Ext (a s : State) : Prop where
  fixed  : settleFixed s = settleFixed a
  owed   : owed s = owed a
  out    : a.out <:+ s.out
  resps  : answersOf a s.err.dmaHalt <+: answersOf s s.err.dmaHalt
  probes : a.prb.probes <+: s.prb.probes
  events : a.eng.events <+: s.eng.events
  cents  : a.eng.cents <+: s.eng.cents
  accs   : a.csp.accs <+: s.csp.accs
  reads  : a.mem.reads.map (·.owner) <+: s.mem.reads.map (·.owner)
  retire : a.err.retire <+: s.err.retire
  ints   : ∀ i, a.err.intStatus.getLsbD i = true → s.err.intStatus.getLsbD i = true
  halts  : ∀ i, a.err.dmaHalt.getLsbD i = true → s.err.dmaHalt.getLsbD i = true
  bypass : a.err.fBypass = true → s.err.fBypass = true
  counts : ∀ c, c ∉ settleCounters → live s c = live a c
  enab   : a.cfg.parBad = [] → s.cch.enabled = a.cch.enabled
  sound  : a.sound → s.sound

/-! ### Terms of the statements -/

/-- The behaviour is defined (00 R5) and the core domain runs (15 R353). -/
def State.up (s : State) : Prop := s.undef = none ∧ s.pwr.phase = .on

/-- The same, and tick boundaries occur (08 R183). -/
def State.ticks (s : State) : Prop := s.up ∧ s.qtk.running = true

/-- A register row of agent `who` is performed at once: the agent can send the WRITE that it stands for (02 R39, R58), nothing of its own
holds the WRITE back (04 R99, R107, R108; 07 R158; 15 R365), and the probe queues have room for what it queues (03 R74). -/
def rowReady (s : State) (who off : Nat) (val : Reg32) : Prop :=
  rowOpen s who = true ∧ rowFree s (rowWrite s who off val) = true ∧ regWriteRoom s off val = true

/-- The port takes the tenure as one of its grant's: the pair holds the grant, nothing collided, and its requester can be answered and was
out of reset sense all through the tenure. -/
def heldCleanly (s : State) (t : Tenure) : Prop :=
  (port s (portOf t.who.val)).granted = some (pairOf t.who.val) ∧ (port s (portOf t.who.val)).collide = false ∧
  (port s (portOf t.who.val)).dead = false ∧ t.collided = false ∧ silenced s t.who.val = false

/-- A tenure that its port takes as a request of command `c` (02 R41, R60 to R63): the pair holds the grant, nothing collided, its
requester can be answered, was out of reset sense all through the tenure, and no row of the violation table applies. -/
def goodTenure (s : State) (t : Tenure) (c : ReqCmd) : Prop :=
  heldCleanly s t ∧ tenureCode t = 0 ∧ cmdOf (h0Cmd t.h0.ad) = some c ∧ sequenceCode s t c = 0 ∧ (t.urg = false ∨ h0Class t.h0.ad = 0)

/-- Decode of a good tenure (01 R28). -/
def decodeOf (s : State) (t : Tenure) (c : ReqCmd) : Dec :=
  decodeReq s t.who.val c ((markOf (h0Mark t.h0.ad)).getD .none) (h0Addr t.h0.ad) (h0Len t.h0.ad) (tenureMask t)

/-- A good tenure is admitted: its target, pool address and effective class (01 R18, R28; 11 R266, R278). -/
def admitsAs (s : State) (t : Tenure) (c : ReqCmd) : Option (Target × Nat × Nat) :=
  if isHalted s t.who.val then none
  else if c = .barrier then some (.nowhere, 0, h0Class t.h0.ad)
  else match decodeOf s t c with
    | .refuse _ _ => none
    | .window off => some (.window off, 0, h0Class t.h0.ad)
    | .region n attr p => if brokenRecord s t.who.val c attr (cbOf p) then none else some (.region n attr, p, max (h0Class t.h0.ad) (attrClass attr))

/-- The response without data to request `id`, which a tenure brought. -/
def bareAnswer (t : Tenure) (rsp : Rsp) (id : Nat) : Resp :=
  { who := t.who.val, tag := h0Tag t.h0.ad, rsp := rsp, beats := [], untagged := false, retry := false, counted := false,
    req := some id, cb := none, par := [], kept := false }

/-- A link-partner violation was logged, counted and reported (12 R307, R308). -/
def violated (s t : State) (code : Nat) (header : List Reg32) : Prop :=
  t.mem.vCode = BitVec.ofNat 8 code ∧ t.mem.vSeq = s.mem.vSeq + 1 ∧ t.mem.vHdr = (header ++ [0, 0, 0, 0]).take 4 ∧
  live t cntMemViol = live s cntMemViol + 1 ∧ t.err.intStatus.getLsbD srcMem = true

/-- Link recovery has begun, or goes on: it retrains while MEM_LINK_CTRL EN = 1 (12 R297). -/
def recovers (s t : State) (cause : Nat) : Prop :=
  linkEn s = true → if s.mem.recov = .idle then t.mem.recov = .training ∧ t.mem.cause = cause ∧ live t cntRecov = live s cntRecov + 1
    else t.mem.recov = s.mem.recov ∧ t.mem.cause = s.mem.cause ∧ live t cntRecov = live s cntRecov

/-- What a command kept: the stored registers, the Vault and the clocks. -/
def kept (s t : State) : Prop := t.cfg.regs = s.cfg.regs ∧ t.vlt = s.vlt ∧ t.clk = s.clk

/-- What a running command has issued, performed and counted, and where it stops. -/
def tally (x : Running) : Nat × Nat × BitVec 64 × BitVec 64 × Option (Nat × Nat) := (x.issued, x.doneN, x.count0, x.count1, x.stop)

/-- The tally of ring `n`'s command. -/
def runTally (s : State) (n : Nat) : Option (Nat × Nat × BitVec 64 × BitVec 64 × Option (Nat × Nat)) := (getRun s n).map tally

/-- Commands that run whatever obligation has been broken: power and PORST_N. -/
def outlastsBreach (c : Instr) : Bool :=
  match c with
  | .porstNAssert | .coldReset _ | .suppliesRemoved => true
  | _ => false

/-- The TAP's commands (18). -/
def tapCommand (c : Instr) : Bool :=
  match c with
  | .tapReset | .extest _ | .samplePreload _ | .idcode _ | .highz _ | .clamp _ | .extestPulse _ | .extestTrain _ | .mbist _ |
    .bypass _ => true
  | _ => false

/-- Commands that are a write of a register by a processor agent. -/
def writesRegister (c : Instr) : Bool :=
  match c with
  | .relock _ | .refback _ | .portDisable _ _ _ | .prbRevive _ _ | .cacheEnable _ | .cacheDisable _ | .screeClr _ | .cspInit _ |
    .configRequest _ _ | .linkEnable _ _ | .perstOff _ _ | .retrain _ _ _ | .hotrst _ | .cmdSqDb _ _ _ | .cmdEnable _ _ |
    .abort _ _ | .restart _ _ | .cmdRingWrite _ _ _ | .ringHeadWrite _ _ _ | .rswClr _ | .cfgRefWrite _ _ | .keyUnlock _ _ |
    .snap _ | .snapClr _ | .seqWriteBack _ _ _ | .bitAliasWrite _ _ _ | .registerWrite _ _ _ | .dmaRestart _ _ | .sleep _ |
    .offprep _ | .mbistStart _ => true
  | _ => false

/-- The row a run of TCK is of by the instruction in force at its end (18). -/
def tapCommandOf (i : TapInstr) (x : TapRun) : Instr :=
  match i with
  | .extest => .extest x
  | .sample => .samplePreload x
  | .idcode => .idcode x
  | .highz => .highz x
  | .clamp => .clamp x
  | .pulse => .extestPulse x
  | .train => .extestTrain x
  | .mbist => .mbist x
  | .bypass => .bypass x

/-- At the end of a run of TCK instruction `i` is in force: the one the TAP acts as, and for `mbist` the one applied, which acts as BYPASS
while PRIV_DIS = 1 (18 R425). -/
def inForce (i : TapInstr) (s : State) : Bool := if i = .mbist then s.tst.tap.instr == .mbist else tapActs s == i

/-- A run of TCK without a transition at the test receivers. -/
def tckOnly (s : State) (pins : BitVec 1112) (l : List Tck) : State := tapRun s { swings := [], pins := pins, ticks := l }

/-- The bits that TDO shows, lowest first, as outputs: the last one first. -/
def tdoBits (l : List Bool) : List Out := l.reverse.map .tdo

/-- How a command may move the part between Run, Sleep, Off and the steps of reset (15 R353). -/
def phaseMove (c : Instr) (a b : PPhase) : Prop :=
  match c with
  | .porstNAssert => b = .reset
  | .coldReset _ => a = .reset ∧ b = .c1
  | .xoStable => a = .c1 ∧ b = .c2
  | .relockComplete => a = .c2 ∧ b = .on
  | .linkL12Reached => a = .on ∧ b = .sleep
  | .wakeReq => a = .sleep ∧ b = .on
  | .bedrockSupplyLoss => a = .sleep ∧ b = .off
  | .suppliesRemoved => b = .off
  | _ => False

/-- What a reset leaves, from any state `s`: every register and count at its reset value, the tags undefined, HEARTBEAT low, the Vault
as it was. -/
def resetLeaves (s t : State) : Prop :=
  (∀ off, reg t off = resetVal off) ∧ (∀ c, live t c = 0) ∧ t.cch.known = 0 ∧ t.cch.enabled = false ∧ t.pwr.hb = false ∧
  t.vlt.slots = s.vlt.slots ∧ t.pending = s.pending ∧ t.out = s.out

/-- The clocks are as they were, but for the SYNC measurement run in progress. -/
def sameClocks (s t : State) : Prop :=
  { t.clk with measN := s.clk.measN, measBad := s.clk.measBad, measEnd := s.clk.measEnd } = s.clk

/-- What every boundary does to the state of the tick: it is counted, QTK_CFG takes effect, and nothing but the boundary's own work
changes; of the clocks that is the SYNC measurement run (14 R351). -/
def boundaryMade (s t : State) : Prop :=
  live t cntTick = live s cntTick + 1 ∧ t.qtk.running = true ∧ t.qtk.n = min 16 (max 8 (fld (reg s 0x4000) 4 0)) ∧
  t.qtk.syncIn = (reg s 0x4000).getLsbD 8 ∧ t.qtk.syncOut = (reg s 0x4000).getLsbD 9 ∧
  t.cfg.regs = s.cfg.regs ∧ t.pwr.phase = s.pwr.phase ∧ sameClocks s t ∧ t.vlt.slots = s.vlt.slots ∧ t.tst.tap = s.tst.tap

end Sys2Proof.Machine
end

