-- ==== Sys2Proof/Certificates/Slice0/Obligations.lean ====
section
/-! DEFINITION. The statements for the provers, by chapter. -/

open Sys2Proof Sys2Proof.Machine

/-- The command at the front of the queue is taken, and runs with the queue's rest; on an empty queue the block idles, which is the
model's choice (log entry 24). -/
def Obligations.StepRunsFrontCommand : Prop :=
  (∀ (c : Instr) (rest : List Instr) (s : State), s.pending = c :: rest → step s = exec c { s with pending := rest }) ∧
  ∀ s : State, s.pending = [] → step s = .next s

/-- Right after reset: every register reads the Reset column of 17 (a few of them written out), every count is 0, nothing waits, the
cache and the engine are not enabled, the tags are undefined, HEARTBEAT is low. -/
def Obligations.ResetValues : Prop :=
  State.reset.sound ∧ (∀ off, reg State.reset off = resetVal off) ∧ (∀ c, live State.reset c = 0) ∧
  reg State.reset 0x0000 = 0x00002000 ∧ reg State.reset 0x1000 = 0x00000004 ∧ reg State.reset 0x2100 = 0x00000033 ∧
  reg State.reset 0x4000 = 0x0000000A ∧ reg State.reset 0x5104 = 0x00400800 ∧ reg State.reset 0x7060 = 0x00030400 ∧
  reg State.reset 0x8024 = 0x0000000F ∧ reg State.reset 0x9004 = 0x038C596B ∧ reg State.reset 0xA010 = 0x13E800FA ∧
  reg State.reset 0xB008 = 0x8C080007 ∧
  State.reset.pending = [] ∧ State.reset.undef = none ∧ State.reset.pwr.phase = .reset ∧ State.reset.pwr.hb = false ∧
  State.reset.cch.enabled = false ∧ State.reset.cch.known = 0 ∧ State.reset.eng.en = false ∧ State.reset.cfg.unlocked = none

/-- A sound state stays sound: canonical maps, reserved bits that store 0, arrays of the spec's sizes. -/
def Obligations.StepKeepsSound : Prop := ∀ s t : State, s.sound → step s = .next t → t.sound

/-- The part moves between Run, Sleep, Off and the steps of the cold reset only by the events the spec names, and only that way. -/
def Obligations.OnlyNamedEventsMoveThePart : Prop :=
  ∀ (c : Instr) (s t : State), exec c s = .next t → t.pwr.phase ≠ s.pwr.phase → phaseMove c s.pwr.phase t.pwr.phase

/-- No command touches the queue, and what was driven stays driven: the trace only grows. The Vault is written only by VAULT_SAVE and by
the automatic save of Off preparation. What the TAP holds changes only by the TAP's own commands, by a wake, and when power goes;
PORST_N resets it only when it ends Sleep. A stored register changes only by a register write (of a row of its own, or retired from a
store queue), by the boot enable, by the read data of a configuration request, by SEEN at the end of WAKE_EPOCH, and when every register
takes its reset value. -/
def Obligations.OnlyNamedCommandsWriteLastingState : Prop :=
  (∀ (c : Instr) (s t : State), exec c s = .next t → t.pending = s.pending ∧ s.out <:+ t.out) ∧
  (∀ (c : Instr) (s t : State), exec c s = .next t → t.vlt.slots ≠ s.vlt.slots →
      (∃ n, c = .vaultSave n) ∨ (c = .sleepEntry ∧ ∃ e, s.pwr.entry = some e ∧ e.off = true)) ∧
  (∀ (c : Instr) (s t : State), exec c s = .next t → t.tst.tap ≠ s.tst.tap →
      tapCommand c = true ∨ (c = .porstNAssert ∧ s.pwr.phase = .sleep) ∨ c = .wakeReq ∨ c = .linkL12Reached ∨ c = .bedrockSupplyLoss ∨ c = .suppliesRemoved) ∧
  (∀ (c : Instr) (s t : State), exec c s = .next t → (∃ off, reg t off ≠ reg s off) →
      writesRegister c = true ∨ (∃ r p, c = .storeRetirement r p) ∨ c = .relockComplete ∨ (∃ r, c = .configCompletion r) ∨
      (∃ r n, c = .wakeEpoch r n) ∨ (∃ u, c = .fullReady u) ∨ c = .porstNAssert ∨ c = .bedrockSupplyLoss ∨ c = .suppliesRemoved)

/-- Period and direction of the tick change only at a boundary (08 R188) and at reset. QTK_TICK_CNT changes only at a boundary, when
the tick starts, by a SNAP that clears, and at reset. -/
def Obligations.OnlyBoundariesChangeTheTick : Prop :=
  (∀ (c : Instr) (s t : State), exec c s = .next t →
      (t.qtk.n ≠ s.qtk.n ∨ t.qtk.syncIn ≠ s.qtk.syncIn ∨ t.qtk.syncOut ≠ s.qtk.syncOut) →
      (∃ d, c = .tickBoundary d) ∨ (∃ n r d, c = .syncEdge n r d) ∨ (∃ d, c = .syncLoss d) ∨ c = .relockComplete ∨
      c = .porstNAssert ∨ c = .bedrockSupplyLoss ∨ c = .suppliesRemoved) ∧
  (∀ (c : Instr) (s t : State), exec c s = .next t → live t cntTick ≠ live s cntTick →
      (∃ d, c = .tickBoundary d) ∨ (∃ n r d, c = .syncEdge n r d) ∨ (∃ d, c = .syncLoss d) ∨ c = .relockComplete ∨
      writesRegister c = true ∨ (∃ r p, c = .storeRetirement r p) ∨
      c = .porstNAssert ∨ c = .bedrockSupplyLoss ∨ c = .suppliesRemoved)

/-- A command that is not one of the table's rows is refused, whatever the state; while the behaviour is undefined every command
faults but power, PORST_N and, under a pin-control instruction alone, the TAP's own (log entries 6 and 7). The behaviour becomes
undefined only by a register write, of a row of its own or from a store queue, or by a scan of the TAP. -/
def Obligations.WhatMakesBehaviourUndefined : Prop :=
  ((∀ (c : Instr) (s : State), wellFormed c = false → exec c s = .refused .illFormed) ∧
    (∀ (c : Instr) (s : State) (u : UndefCause), s.undef = some u → wellFormed c = true → outlastsBreach c = false →
      (tapCommand c = true → u ≠ .r414) → exec c s = .fault (.undefinedBehaviour u)) ∧
    (∀ (c : Instr) (s : State), s.undef = none → wellFormed c = true → ∃ t, exec c s = .next t)) ∧
  (∀ (c : Instr) (s t : State), exec c s = .next t → s.undef = none → t.undef ≠ none →
      writesRegister c = true ∨ (∃ r p, c = .storeRetirement r p) ∨ tapCommand c = true)

/-- PORST_N asserted, and the loss of the supplies: every register at its reset value, the Vault as it was. PORST_N keeps the TAP,
unless it ends Sleep. The Bedrock supply lost in Sleep: Off, with nothing but the Vault surviving. -/
def Obligations.PorstAndPowerLoss : Prop :=
  ((∀ s : State, ∃ t, exec .porstNAssert s = .next t ∧ t.pwr.phase = .reset ∧ t.undef = none ∧ resetLeaves s t ∧
      t.tst.tap = (if s.pwr.phase = .sleep then Tap.reset else s.tst.tap)) ∧
    ∀ s : State, ∃ t, exec .suppliesRemoved s = .next t ∧ t.pwr.phase = .off ∧ t.undef = none ∧ resetLeaves s t ∧
      t.tst.tap = Tap.reset) ∧
  (∀ s : State, s.undef = none → s.pwr.phase = .sleep → ∃ t, exec .bedrockSupplyLoss s = .next t ∧ t.pwr.phase = .off ∧ resetLeaves s t ∧
    t.tst.tap = Tap.reset)

/-- The cold reset sequence. C1 samples the straps. C2, once the crystal is stable, starts a relock by trigger 1 and marks the valid
Vault slots. C3, once the PLL has locked, writes AGP_CFGA for the boot agent and starts the tick with a boundary. -/
def Obligations.ColdResetSequence : Prop :=
  (∀ (s : State) (straps : BitVec 3), s.pwr.phase = .reset → ∃ t, exec (.coldReset straps) s = .next t ∧
    t.pwr.phase = .c1 ∧ t.bus.strap = straps ∧ t.undef = none ∧
    { t with pwr := s.pwr, bus := { t.bus with strap := s.bus.strap }, undef := s.undef } = s) ∧
  (∀ s : State, s.undef = none → s.pwr.phase = .c1 → ∃ t, exec .xoStable s = .next t ∧ t.pwr.phase = .c2 ∧
    t.clk = { s.clk with xoOk := true, lock := false, relocking := true, trigger := 1, bw := bwOf s, measBad := true } ∧ live t cntRelock = live s cntRelock + 1 ∧
    (∀ i, i < 8 → t.vlt.valid.getLsbD i = slotValid (slotAt s i)) ∧ t.vlt.slots = s.vlt.slots ∧ t.cfg.regs = s.cfg.regs) ∧
  ∀ s : State, s.undef = none → s.pwr.phase = .c2 → s.clk.relocking = true → s.clk.xoOk = true → ∃ t, exec .relockComplete s = .next t ∧
    t.pwr.phase = .on ∧ sameClocks { s with clk := { s.clk with lock := true, relocking := false } } t ∧ t.qtk.running = true ∧
    live t cntTick = live s cntTick + 1 ∧ reg t 0x0000 = 0x80002001 ∧ (∀ off, off ≠ 0x0000 → reg t off = reg s off) ∧
    t.vlt.slots = s.vlt.slots

/-- Relocks: the end of one that ran outside reset and wake; a loss of lock seen by the lock monitor; one that software asks for;
and the crystal's own stop in Sleep. -/
def Obligations.RelocksAndLockMonitor : Prop :=
  (∀ s : State, s.up → s.clk.relocking = true → s.clk.xoOk = true → s.pwr.wake = none → exec .relockComplete s =
    .next (event { s with clk := { s.clk with lock := true, relocking := false }, qtk := { s.qtk with relockAll := false } } 10 2 (payload [(16, s.clk.trigger)]))) ∧
  (∀ (s : State) (n : Nat), s.up → s.clk.lock = true → s.clk.xoOk = true → 1014 ≤ n → n ≤ 1034 →
    exec (.lockMonitorWindow n) s = .next s) ∧
  (∀ (s : State) (n : Nat), s.up → s.clk.lock = true → s.clk.xoOk = true → (n < 1014 ∨ 1034 < n) → ∃ t,
    exec (.lockMonitorWindow n) s = .next t ∧
    t.clk = { s.clk with lol := true, seq := s.clk.seq + 1, lock := false, relocking := true, trigger := 3, bw := bwOf s, measBad := true } ∧
    t.qtk = { s.qtk with relocked := true } ∧
    live t cntLol = live s cntLol + 1 ∧ live t cntRelock = live s cntRelock + 1 ∧ t.err.intStatus.getLsbD 18 = true ∧
    t.cfg.regs = s.cfg.regs ∧ (∀ c, c ≠ cntLol → c ≠ cntRelock → live t c = live s c) ∧
    { t with clk := s.clk, qtk := s.qtk, cfg := s.cfg, err := s.err, eng := s.eng } = s) ∧
  (∀ (s : State) (who : Fin 8), s.up → rowReady s who 0xA004 0x80000000 → ∃ t, exec (.relock who) s = .next t ∧
    Ext (count { s with clk := { s.clk with lock := false, relocking := true, trigger := 4, bw := bwOf s, measBad := true }
                        qtk := { s.qtk with relocked := true } } cntRelock) t) ∧
  ∀ s : State, s.undef = none → s.pwr.phase = .sleep → exec .crystalStop s = .next { s with clk := { s.clk with xoOk := false } }

/-- REFBACK returns the PHY to PE_REFCLK while the link is not enabled; written while it is, the behaviour is undefined. A window of
the reference monitor with `n` cycles against the expected count: its class, D, the run rules of FAULT and of the event bits; and
the count of a SYNC measurement run that has ended. -/
def Obligations.ReferenceClock : Prop :=
  ((∀ (s : State) (who : Fin 8), s.up → rowReady s who 0xA004 0x40000000 → (reg s 0x8014).getLsbD 31 = false → ∃ t, exec (.refback who) s = .next t ∧
      Ext { s with clk := { s.clk with refsw := false } } t) ∧
    ∀ (s : State) (who : Fin 8), s.up → rowReady s who 0xA004 0x40000000 → (reg s 0x8014).getLsbD 31 = true → ∃ t, exec (.refback who) s = .next t ∧ t.undef = some .r347) ∧
  ((∀ (s : State) (n : Nat), s.up → (reg s 0xA010).getLsbD 31 = true → (∀ w, s.pwr.wake = some w → w.w3 = true) →
      ∃ t, exec (.driftWindow n) s = .next t ∧
        (let e : Nat := if (reg s 0xA010).getLsbD 30 then 4183818 else 4194304
         let d : Nat := ((n : Int) - (e : Int)).natAbs
         let c : Drift := if 2 * n < e then .lost else if fld (reg s 0xA010) 25 16 * e / 1000000 < d then .fault
           else if fld (reg s 0xA010) 9 0 * e / 1000000 < d then .warning else .good
         let bad (x : Option Drift) : Bool := x == some .fault || x == some .lost
         t.clk.lastWin = some c ∧ t.clk.monUpd = s.clk.monUpd + 1 ∧
         t.clk.fault = (bad (some c) && (s.clk.fault || bad s.clk.lastWin)) ∧
         t.clk.lossEv = (s.clk.lossEv || (c == .lost && s.clk.lastWin != some .lost)) ∧
         t.clk.warnEv = (s.clk.warnEv || ((c == .warning || c == .fault) && (s.clk.lastWin == none || s.clk.lastWin == some .good))) ∧
         t.clk.faultEv = (s.clk.faultEv || (bad (some c) && bad s.clk.lastWin && !s.clk.fault))) ∧
        t.cfg.regs = s.cfg.regs ∧ live t cntTick = live s cntTick ∧ t.vlt.slots = s.vlt.slots) ∧
    (∀ (s : State) (n : Nat) (v : Bool), s.up → s.clk.measEnd = some v → exec (.syncMeasRunEnd n) s =
      .next { s with clk := { s.clk with measCount := BitVec.ofNat 31 n, measValid := v, measEnd := none } }) ∧
    ∀ (s : State) (n : Nat), s.up → s.clk.measEnd = none → exec (.syncMeasRunEnd n) s = .next s)

/-- Boundaries: of the internal counter; of a SYNC edge that is not early; of a lost edge. An early edge makes none: `n` core cycles
after the last boundary, `r` of them in a relock, the boundary counter stands at 16 for each of those and 1 for each other. The SYNC
measurement run counts boundaries, and its 4,096th ends it; that the next run follows on is the model's choice (log entry 84). -/
def Obligations.BoundarySources : Prop :=
  (∀ (s : State) (d : BitVec 4), s.ticks → s.qtk.syncIn = false → ∃ t, exec (.tickBoundary d) s = .next t ∧ boundaryMade s t ∧
    t.qtk.syncOk = false ∧ t.qtk.early = s.qtk.early ∧ t.qtk.loss = s.qtk.loss ∧ t.qtk.seq = s.qtk.seq) ∧
  (∀ (s : State) (n r : Nat) (d : BitVec 4), s.ticks → s.qtk.syncIn = true →
    2 ^ (s.qtk.n - 1) ≤ n + 15 * (if s.qtk.relocked = false then 0 else if s.qtk.relockAll then n else min r n) →
    ∃ t, exec (.syncEdge n r d) s = .next t ∧ boundaryMade s t ∧ t.qtk.syncOk = true ∧
    t.clk.measN = (if s.clk.measN + 1 = 4096 then 0 else s.clk.measN + 1) ∧
    t.clk.measEnd = (if s.clk.measN + 1 = 4096 then some (!s.clk.measBad) else s.clk.measEnd) ∧ t.qtk.early = s.qtk.early ∧ t.qtk.loss = s.qtk.loss ∧ t.qtk.seq = s.qtk.seq) ∧
  (∀ (s : State) (n r : Nat) (d : BitVec 4), s.ticks → s.qtk.syncIn = true →
    n + 15 * (if s.qtk.relocked = false then 0 else if s.qtk.relockAll then n else min r n) < 2 ^ (s.qtk.n - 1) → exec (.syncEdge n r d) s =
      .next (count { s with qtk := { s.qtk with early := true, seq := s.qtk.seq + 1 } } cntSyncEarly)) ∧
  ∀ (s : State) (d : BitVec 4), s.ticks → s.qtk.syncIn = true → ∃ t, exec (.syncLoss d) s = .next t ∧ boundaryMade s t ∧
    t.qtk.syncOk = false ∧ t.qtk.early = s.qtk.early ∧ t.qtk.loss = true ∧ t.qtk.seq = s.qtk.seq + 1

/-- A tenure of any of the eleven request rows that breaks no rule, and that decode lets through, is admitted: the block owes it an
answer from now on, and class 0 is counted or demoted by budget and INFLIGHT. What waits then goes on (`Ext`). -/
def Obligations.GoodTenureIsAdmitted : Prop :=
  ∀ (i : Instr) (t : Tenure) (c : ReqCmd) (s : State) (target : Target) (pool k : Nat), rowTenure i = some (t, c) → s.up →
    goodTenure s t c → admitsAs s t c = some (target, pool, k) → ∃ z, exec i s = .next z ∧
    (let counted : Bool := k == 0 && countable s
     let a := tenureEffect s t
     owed z = owed s ++ [{ blankReq t c s.bus.nextReq with target := target, pool := pool, counted := counted,
                                                           cls := if k = 0 then (if countable s then 0 else 1) else k }] ∧
     Ext a z ∧ a.qtk.budget = s.qtk.budget - (if counted then 1 else 0) ∧
     live a cntC0 = live s cntC0 + (if counted then 1 else 0) ∧
     live a cntDemote = live s cntDemote + (if k = 0 ∧ countable s = false then 1 else 0) ∧ s.bus.resps <+: a.bus.resps) ∧
    (port z (portOf t.who.val)).granted = none ∧ (port z (portOf t.who.val)).prevAgent = true ∧
    z.cfg.regs = s.cfg.regs ∧ z.prb.unresp = s.prb.unresp ∧ z.vlt = s.vlt ∧ z.icb = s.icb ∧ z.pwr = s.pwr

/-- The good tenures that are answered at once: from a halted channel, refused by decode (with the decode log for a DECODE_ERR), and
the first request that meets a broken lock's record. -/
def Obligations.GoodTenureIsRefused : Prop :=
  ∀ (i : Instr) (t : Tenure) (c : ReqCmd) (s : State), rowTenure i = some (t, c) → s.sound → s.up → goodTenure s t c →
    (∀ rsp : Rsp, (if isHalted s t.who.val then rsp = .channelHalted
        else c ≠ .barrier ∧ match decodeOf s t c with
          | .refuse r _ => rsp = r
          | .window _ => False
          | .region _ attr p => brokenRecord s t.who.val c attr (cbOf p) = true ∧ rsp = .lockBroken) →
      ∃ z, exec i s = .next z ∧ Ext (tenureEffect s t) z ∧
        (tenureEffect s t).bus.resps = s.bus.resps ++ [bareAnswer t rsp s.bus.nextReq] ∧ (tenureEffect s t).qtk.budget = s.qtk.budget ∧
        owed z = owed s ++ [blankReq t c s.bus.nextReq] ∧ (port z (portOf t.who.val)).granted = none ∧
        z.cfg.regs = s.cfg.regs ∧ z.vlt = s.vlt) ∧
    ∀ (rsp : Rsp) (reason : Nat), isHalted s t.who.val = false → c ≠ .barrier → decodeOf s t c = .refuse rsp (some reason) →
      ∃ z, exec i s = .next z ∧ live z cntDecode = live s cntDecode + 1 ∧
        z.cch.dlog0 = (h0Addr t.h0.ad).extractLsb' 0 32 ∧
        z.cch.dlog1 = word [(24, (fld s.cch.dlog1 31 24 + 1) % 256), (20, t.who.val), (16, reason), (0, fld (h0Addr t.h0.ad) 47 32)]

/-- A tenure that breaks a row of the violation table: the port's log, counter and interrupt source, the answer (none for code
0x0E), and the quiet period after an overrun. An urgent tenure of another class is logged with code 0x12. -/
def Obligations.TenureViolations : Prop :=
  (∀ (i : Instr) (t : Tenure) (c : ReqCmd) (s : State), rowTenure i = some (t, c) → tenureFits c t = true → s.sound → s.up →
    heldCleanly s t → tenureCode t ≠ 0 → ∃ z, exec i s = .next z ∧
      (let p := portOf t.who.val
       (port z p).granted = none ∧ (port z p).vcode = BitVec.ofNat 8 (tenureCode t) ∧ fld (port z p).vlog1 23 20 = t.who.val ∧
       (port z p).quiet = ((port s p).quiet || tenureCode t == 5) ∧
       (tenureCode t = 5 → (port z p).launch = some (t.who.val, some s.bus.nextReq)) ∧
       live z (codeCounter p (tenureCode t)) = live s (codeCounter p (tenureCode t)) + 1 ∧
       z.err.intStatus.getLsbD (srcAgpViol p) = true ∧
       Ext (tenureEffect s t) z ∧
       if (badBytes t.h0).getLsbD 6 then (port z p).untag = setBit (port s p).untag (pairOf t.who.val) true ∧ owed z = owed s
       else (tenureEffect s t).bus.resps = s.bus.resps ++ [bareAnswer t .protocolErr s.bus.nextReq]) ∧
      z.cfg.regs = s.cfg.regs ∧ z.vlt = s.vlt) ∧
  (∀ (i : Instr) (t : Tenure) (c : ReqCmd) (s : State), rowTenure i = some (t, c) → s.sound → s.up → heldCleanly s t →
    tenureCode t = 0 → cmdOf (h0Cmd t.h0.ad) = some c → sequenceCode s t c ≠ 0 → ∃ z, exec i s = .next z ∧
      (let p := portOf t.who.val
       (port z p).granted = none ∧ (port z p).vcode = BitVec.ofNat 8 (sequenceCode s t c) ∧
       live z (cntAgpSeq p) = live s (cntAgpSeq p) + 1 ∧ z.err.intStatus.getLsbD (srcAgpViol p) = true ∧
       Ext (tenureEffect s t) z ∧
       if sequenceCode s t c = 0x0E then owed z = owed s ∧ (tenureEffect s t).bus.resps = s.bus.resps
       else (tenureEffect s t).bus.resps = s.bus.resps ++ [bareAnswer t .protocolErr s.bus.nextReq]) ∧
      z.cfg.regs = s.cfg.regs ∧ z.vlt = s.vlt) ∧
  ∀ (i : Instr) (t : Tenure) (c : ReqCmd) (s : State), rowTenure i = some (t, c) → s.up → heldCleanly s t →
    tenureCode t = 0 → cmdOf (h0Cmd t.h0.ad) = some c → sequenceCode s t c = 0 → t.urg = true → h0Class t.h0.ad ≠ 0 →
    ∃ z, exec i s = .next z ∧
      (let p := portOf t.who.val
       (port z p).vcode = 0x12 ∧ live z (cntAgpSeq p) = live s (cntAgpSeq p) + 1 ∧ z.err.intStatus.getLsbD (srcAgpViol p) = true) ∧
      ∃ q, owed z = owed s ++ [q] ∧ q.who = t.who.val ∧ q.tag = h0Tag t.h0.ad

/-- A GRANT that grants a pair grants an eligible one: the port is enabled, the pair attached and requesting, out of reset sense,
its store queue with room, and not waiting for an UNTAGGED response. -/
def Obligations.OnlyEligiblePairsAreGranted : Prop :=
  ∀ (s t : State) (p : PortId) (pins : PortPins) (h0 : H0Cycle) (k : Nat), exec (.grant p pins h0) s = .next t →
    t.out = .grant p k :: s.out →
    portEn s p = true ∧ attached s (whoAt p k) = true ∧ pins.req.getLsbD k = true ∧ inReset s (whoAt p k) = false ∧
    (storeQueue s (whoAt p k)).length < 8 ∧ (port s p).untag.getLsbD k = false

/-- The order of R40 on a free port. A counted response comes first; then urgent pairs in round robin; then, after an agent tenure,
the oldest response; then any eligible pair in round robin; then the oldest response. What is chosen starts with its row. -/
def Obligations.ArbitrationOrder : Prop :=
  ∀ (s : State) (p : PortId) (pins : PortPins), s.up → portFree s p pins = true → (port s p).again = none → s.pwr.fullRdy = true →
    (let ready := readyResps s p
     let urgent (k : Nat) : Bool := eligible s p pins k && pins.urg.getLsbD k
     let next (last : Nat) (ok : Nat → Bool) (k : Nat) : Prop := ∃ i, i < 6 ∧ k = (last + 1 + i) % 6 ∧ ok k = true ∧
       ∀ j, j < i → ok ((last + 1 + j) % 6) = false
     (∀ r, ready.find? (·.counted) = some r → arbitrate s p pins = .respond r) ∧
     (∀ k, ready.find? (·.counted) = none → next (port s p).lastUrg urgent k → arbitrate s p pins = .grant k true) ∧
     ((ready.find? (·.counted) = none ∧ ∀ k, k < 6 → urgent k = false) →
       (∀ r l, ready = r :: l → (port s p).prevAgent = true → arbitrate s p pins = .respond r) ∧
       (∀ k, next (port s p).lastAny (eligible s p pins) k → (ready = [] ∨ (port s p).prevAgent = false) →
         arbitrate s p pins = .grant k false) ∧
       (∀ r l, ready = r :: l → (∀ k, k < 6 → eligible s p pins k = false) → arbitrate s p pins = .respond r))) ∧
    (∀ k u, arbitrate s p pins = .grant k u → ∃ t, exec (.grant p pins .driven) s = .next t ∧ t.out = .grant p k :: s.out ∧
      (port t p).granted = some k ∧ (port t p).lastAny = k ∧ (port t p).lastUrg = (if u then k else (port s p).lastUrg) ∧
      (port t p).quiet = false ∧ (port t p).collide = false ∧ (port t p).dead = false ∧ { t with bus := s.bus, out := s.out } = s) ∧
    (∀ k u asked, arbitrate s p pins = .grant k u → ∃ t, exec (.grant p pins (.forfeited asked)) s = .next t ∧
      (port t p).granted = (port s p).granted ∧ t.bus.reqs = s.bus.reqs ∧
      live t (cntAgpSeq p) = live s (cntAgpSeq p) + (if asked then 1 else 0) ∧
      (port t p).vcode = (if asked then 0x11 else (port s p).vcode) ∧ t.cfg.regs = s.cfg.regs) ∧
    ∀ r upset, arbitrate s p pins = .respond r → portEn s p = true → ∃ t, exec (.responseTenure p pins false upset) s = .next t ∧
      .response p { ad := rhOf r r.retry, adp := beatPar (rhOf r r.retry) } (respBeats r upset) :: s.out <:+ t.out ∧ (port t p).prevAgent = false ∧ (port t p).quiet = false ∧
      (r.untagged = true → (port t p).untag = setBit (port s p).untag (pairOf r.who) false) ∧
      (∀ i, r.req = some i → ∀ q ∈ owed t, q.id ≠ i) ∧ t.cfg.regs = s.cfg.regs

/-- RH has the layout of R53, with 0 in its reserved bits. -/
def Obligations.ResponseHeaderLayout : Prop :=
  ∀ (r : Resp) (retry : Bool), r.beats.length ≤ 8 → r.who < 12 →
    (rhOf r retry).extractLsb' 16 48 = 0 ∧ (rhOf r retry).getLsbD 15 = r.untagged ∧ (rhOf r retry).getLsbD 14 = retry ∧
    fld (rhOf r retry) 13 10 = r.beats.length ∧ fld (rhOf r retry) 9 6 = rspCode r.rsp ∧
    (rhOf r retry).extractLsb' 4 2 = (if r.untagged then 0 else r.tag) ∧ fld (rhOf r retry) 3 0 = r.who

/-- AVLD_OUT_OF_TENURE, UNATTACHED_REQUEST and a response that collides complete whenever the pin event can occur: the violations and
the quiet period of R62 and R63; a collided response is kept for its repeat, with RETRY. RESET_SENSE_ASSERT and
RESET_SENSE_DEASSERT complete in every state: the pin takes its level, and while the ports sample it a requester that goes into reset
sense has no answer waiting and is owed none, a processor agent has no probe to acknowledge and its lock is broken; on leaving it,
UNRESP and BRK clear. -/
def Obligations.StrayPinsAndResetSense : Prop :=
  (∀ (s : State) (p : PortId), s.up → pinsLive s = true → (port s p).granted = none → (port s p).quiet = false →
    ∃ t, exec (.avldOutOfTenure p) s = .next t ∧ (port t p).quiet = true ∧ (port t p).vcode = 0x14 ∧ fld (port t p).vlog1 23 20 = 15 ∧
      live t (cntAgpSeq p) = live s (cntAgpSeq p) + 1 ∧ t.err.intStatus.getLsbD (srcAgpViol p) = true ∧
      { t with bus := s.bus, cfg := s.cfg, err := s.err } = s ∧ t.bus.reqs = s.bus.reqs ∧ t.bus.resps = s.bus.resps ∧ t.cfg.regs = s.cfg.regs) ∧
  (∀ (s : State) (p : PortId) (k : Fin 6), s.up → pinsLive s = true → portEn s p = true → attached s (whoAt p k) = false →
    ∃ t, exec (.unattachedRequest p k) s = .next t ∧ (port t p).vcode = 0x13 ∧ fld (port t p).vlog1 23 20 = whoAt p k ∧
      live t (cntAgpSeq p) = live s (cntAgpSeq p) + 1 ∧ t.err.intStatus.getLsbD (srcAgpViol p) = true ∧
      { t with bus := s.bus, cfg := s.cfg, err := s.err } = s ∧ t.bus.reqs = s.bus.reqs ∧ t.bus.resps = s.bus.resps ∧ t.cfg.regs = s.cfg.regs) ∧
  (∀ (s : State) (p : PortId) (pins : PortPins) (r : Resp) (upset : List Beat64), s.up → portEn s p = true → launchOpen s p = true →
    arbitrate (atLaunch s p) p pins = .respond r →
    ∃ t, exec (.responseTenure p pins true upset) s = .next t ∧ (port t p).again = some { r with retry := true } ∧
      (port t p).quiet = true ∧ (port t p).launch = none ∧ Ext (sendResp s p r true upset) t ∧
      .response p { ad := rhOf r r.retry, adp := beatPar (rhOf r r.retry) } (respBeats r upset) :: s.out <:+ t.out) ∧
  (∀ (s : State) (who : Fin 12), s.up →
    ∃ t, exec (.resetSenseAssert who) s = .next t ∧ t.bus.rsnsPin = setBit s.bus.rsnsPin who true ∧
      t.bus.rsns = (if pinsLive s then setBit s.bus.rsns who true else s.bus.rsns) ∧ t.cfg.regs = s.cfg.regs ∧ t.vlt = s.vlt ∧
      t.prb.unresp = s.prb.unresp ∧
      (pinsLive s = true → inReset s who = false →
        (∀ q ∈ owed t, q.who ≠ who) ∧ (port t (portOf who)).untag = setBit (port s (portOf who)).untag (pairOf who) false ∧
        (∀ r, (port t (portOf who)).again = some r → r.who ≠ who) ∧
        (let a := resetSense { s with bus := { s.bus with rsnsPin := setBit s.bus.rsnsPin who true } } who
         Ext a t ∧ (∀ r ∈ a.bus.resps, r.who ≠ who) ∧
         (who.val < 8 → ∀ x ∈ a.prb.probes, x.port = portOf who → x.toSend.getLsbD (pairOf who) = false ∧ ∀ o ∈ x.out, o.1 ≠ pairOf who)) ∧
        ∀ cb, who.val < 8 → lockOf s who = some cb →
          t.wrb.brk.getLsbD who = true ∧ live t cntLockBrk = live s cntLockBrk + 1 ∧ t.err.intStatus.getLsbD srcLockBroken = true)) ∧
  ∀ (s : State) (who : Fin 12), s.up →
    ∃ t, exec (.resetSenseDeassert who) s = .next t ∧ t.bus.rsnsPin = setBit s.bus.rsnsPin who false ∧
      t.bus.rsns = (if pinsLive s then setBit s.bus.rsns who false else s.bus.rsns) ∧
      (let ends : Bool := pinsLive s && inReset s who && decide (who.val < 8)
       t.prb.unresp = (if ends then setBit s.prb.unresp who false else s.prb.unresp) ∧
       t.wrb.brk = (if ends then setBit s.wrb.brk who false else s.wrb.brk)) ∧ t.cfg.regs = s.cfg.regs ∧ t.vlt = s.vlt

/-- A write of AGP_CFGx that changes CLKDIV or ATTACHED while EN = 1 makes the behaviour undefined; EN may be cleared: nothing else
of the port changes. That the responses that are ready then are kept for it is the model's reading (log entry 27). -/
def Obligations.PortSettingsFixedWhileEnabled : Prop :=
  (∀ (s : State) (who : Fin 8) (p : PortId) (val : Reg32), s.up → rowReady s who (rAgpCfg p) val → s.cfg.unlocked = some who.val → portEn s p = true →
    (fld (reg s (rAgpCfg p)) 13 12 ≠ fld val 13 12 ∨ fld (reg s (rAgpCfg p)) 5 0 ≠ fld val 5 0) →
    ∃ t, exec (.registerWrite who (BitVec.ofNat 16 (rAgpCfg p)) val) s = .next t ∧ t.undef = some .r57) ∧
  ∀ (s : State) (who : Fin 8) (p : PortId) (val : Reg32), s.up → rowReady s who (rAgpCfg p) val → s.cfg.unlocked = some who.val → portEn s p = true →
    val.getLsbD 31 = false → fld (reg s (rAgpCfg p)) 13 12 = fld val 13 12 → fld val 13 12 ≠ 3 →
    fld (reg s (rAgpCfg p)) 5 0 = fld val 5 0 → ∃ t, exec (.portDisable who p val) s = .next t ∧ t.undef = none ∧
      portEn t p = false ∧ attachedMask t p = attachedMask s p ∧ (port t p).granted = (port s p).granted ∧
      (let a := performRegWrite s who (rAgpCfg p) val
       Ext a t ∧ a.bus.resps = s.bus.resps.map fun r => if portOf r.who == p && respReady s r then { r with kept := true } else r) ∧
      (port t p).again = (port s p).again ∧ t.cfg.unlocked = none ∧ (∀ off, off ≠ rAgpCfg p → reg t off = reg s off) ∧ t.vlt = s.vlt

/-- The probe word of R75, with the agent address of R78: PTYPE, TGT, the reserved bit, ADDR, and even parity over each byte. -/
def Obligations.ProbeWordLayout : Prop :=
  ∀ (s : State) (kind : ProbeKind) (tgt : BitVec 4),
    (let w := probeWord s kind tgt
     w.extractLsb' 40 4 = tgt ∧ w.getLsbD 39 = false ∧
     (∀ i, i < 6 → (probePar w).getLsbD i = parity 8 (w.toNat >>> (8 * i))) ∧
     (kind = .invAll → fld w 47 44 = 2 ∧ fld w 38 0 = 0) ∧
     (∀ cb, kind = .inv cb → probeRgn s (cb * 512) = none → fld w 47 44 = 2 ∧ fld w 38 0 = 0) ∧
     ∀ cb n, kind = .inv cb → probeRgn s (cb * 512) = some n →
       fld w 47 44 = 1 ∧ fld w 38 0 = (cb * 512 - rgnXlat s n + rgnBase s n) / 512 % 2 ^ 39) ∧
    ∀ P n, probeRgn s P = some n → n < 16 ∧ rgnXlat s n ≤ P ∧ P ≤ rgnXlat s n + (rgnLimit s n - rgnBase s n) + 0xFFFF ∧
      (∀ m, m < n → attrEn (rgnAttr s m) = attrEn (rgnAttr s n) → inPool (poolRange s m) P = false) ∧
      (attrEn (rgnAttr s n) = false → ∀ m, m < 16 → attrEn (rgnAttr s m) = true → inPool (poolRange s m) P = false)

/-- The oldest probe that some agent may take is sent to the agents that may take it now: the word on the pins, the count, and the
probe outstanding there. A queue entry that failed parity goes out as INV_ALL. Probes are sent to an agent only while it is
attached, out of reset sense and, but for a revive, responsive; at most four are outstanding there; and in queue order. -/
def Obligations.ProbesSentInOrder : Prop :=
  (∀ (s : State) (p : PortId) (x : Probe) (perr : Bool), s.up → pinsLive s = true → nextProbe s p = some x → ∃ t, exec (.probeSend p perr) s = .next t ∧
      (let tgt := probeTargets s x
       let w := probeWord s (if perr then .invAll else x.kind) tgt
       .probe p w (probePar w) :: s.out <:+ t.out ∧
       (updIf s.prb.probes (·.id == x.id) fun y => { y with
          toSend := y.toSend &&& ~~~tgt, out := y.out ++ (bitsOf 4 tgt).map fun k => (k, 0) }) <+: t.prb.probes) ∧
      live t (cntPrbProbe p) = live s (cntPrbProbe p) + 1 ∧ live t cntIcbBpar = live s cntIcbBpar + (if perr then 1 else 0) ∧
      t.prb.unresp = s.prb.unresp ∧ t.cfg.regs = s.cfg.regs ∧ t.vlt = s.vlt) ∧
  (∀ (s : State) (x : Probe) (k : Nat), (probeTargets s x).getLsbD k = true → k < 4 ∧ x.toSend.getLsbD k = true ∧
      attached s (whoAt x.port k) = true ∧ inReset s (whoAt x.port k) = false ∧
      (x.revive = true ∨ s.prb.unresp.getLsbD (whoAt x.port k) = false) ∧ (probesAt s x.port k).length < 4 ∧
      ∀ y ∈ s.prb.probes, y.port = x.port → y.id < x.id → y.toSend.getLsbD k = false)

/-- A run of x_PACK_N: credited to the agent's oldest outstanding probe, or the violation of R89; a late one is counted; an
acknowledged revive clears UNRESP. A probe outstanding for TMO + 1 boundaries: UNRESP and TOEV set, the timeout is counted,
reported, and every probe outstanding at the agent is counted as acknowledged. PRB_REVIVE queues an INV_ALL to each unresponsive
agent it names. -/
def Obligations.ProbeAcknowledgementAndTimeout : Prop :=
  ((∀ (s : State) (k : Fin 8) (cycles : Nat) (late : Bool) (x : Probe) (l : List Probe), s.up → pinsLive s = true → cycles ≠ 0 → attached s k = true →
      inReset s k = false → probesAt s (portOf k) (pairOf k) = x :: l → ∃ t, exec (.probeAck k cycles late) s = .next t ∧
      ((updIf s.prb.probes (·.id == x.id) fun y => { y with out := y.out.filter (·.1 != pairOf k) }).filter
        fun y => y.toSend != 0 || !y.out.isEmpty) <+: t.prb.probes ∧
      t.prb.unresp = (if x.revive then setBit s.prb.unresp k false else s.prb.unresp) ∧
      live t (cntPrbLate (portOf k)) = live s (cntPrbLate (portOf k)) + (if late then 1 else 0) ∧
      live t (cntPrbViol (portOf k)) = live s (cntPrbViol (portOf k)) + (if 2 ≤ cycles then 1 else 0) ∧
      (2 ≤ cycles → fld (port t (portOf k)).plog 7 0 = 2 ∧ fld (port t (portOf k)).plog 23 20 = k.val ∧
        t.err.intStatus.getLsbD (srcPrbViol (portOf k)) = true) ∧
      t.cfg.regs = s.cfg.regs ∧ t.vlt = s.vlt) ∧
    ∀ (s : State) (k : Fin 8) (cycles : Nat) (late : Bool), s.up → pinsLive s = true → cycles ≠ 0 →
      (attached s k = false ∨ inReset s k = true ∨ probesAt s (portOf k) (pairOf k) = []) →
      ∃ t, exec (.probeAck k cycles late) s = .next t ∧ s.prb.probes <+: t.prb.probes ∧ t.prb.unresp = s.prb.unresp ∧
        fld (port t (portOf k)).plog 7 0 = (if attached s k then (if inReset s k then 4 else 1) else 3) ∧
        fld (port t (portOf k)).plog 23 20 = k.val ∧
        live t (cntPrbViol (portOf k)) = live s (cntPrbViol (portOf k)) + 1 ∧ t.err.intStatus.getLsbD (srcPrbViol (portOf k)) = true ∧
        t.cfg.regs = s.cfg.regs ∧ t.vlt = s.vlt) ∧
  ((∀ (s : State) (k : Fin 8), s.ticks → probeOverdue s k = true → ∃ t, exec (.probeTimeout k) s = .next t ∧
      t.prb.unresp = setBit s.prb.unresp k true ∧ t.prb.toev = setBit s.prb.toev k true ∧ t.prb.seq = s.prb.seq + 1 ∧
      live t (cntPrbTmo (portOf k)) = live s (cntPrbTmo (portOf k)) + 1 ∧ t.err.intStatus.getLsbD srcPrbTmo = true ∧
      Ext (agentTimeout s k) t ∧ (∀ x ∈ (agentTimeout s k).prb.probes, x.port = portOf k → ∀ o ∈ x.out, o.1 ≠ pairOf k) ∧
      t.cfg.regs = s.cfg.regs ∧ t.vlt = s.vlt) ∧
    ∀ (s : State) (who : Fin 8) (mask : BitVec 8), s.up → rowReady s who 0x1008 (mask.setWidth 32) →
      ∃ t, exec (.prbRevive who mask) s = .next t ∧ s.prb.probes <+: t.prb.probes ∧
        (∀ k, k < 8 → mask.getLsbD k = true → s.prb.unresp.getLsbD k = true → attached s k = true → inReset s k = false →
          ∃ x ∈ t.prb.probes, x.kind = .invAll ∧ x.revive = true ∧ x.port = portOf k ∧ x.toSend.getLsbD (pairOf k) = true) ∧
        t.prb.unresp = s.prb.unresp ∧ t.cfg.regs = s.cfg.regs ∧ t.vlt = s.vlt)

/-- Items of a boundary with rows of their own, step 3: entries at their age limit are marked for drain, a fetch into one defers it.
Items of a boundary with rows of their own, steps 4, 6 and 7: a lock at its timeout breaks; a bucket leaks; suspects expire; the
commit window closes and the key lapses; a CRC pass that a boundary has left due starts and reads its first 16 members (a boundary
leaves none: log entry 23). -/
def Obligations.BoundaryItems : Prop :=
  (∀ s : State, s.ticks → ∃ t, exec .mergeAgeMark s = .next t ∧ { t with wrb := { t.wrb with entries := s.wrb.entries } } = s ∧
      t.wrb.entries.length = s.wrb.entries.length ∧
      ∀ (i : Nat) (e e' : Entry), s.wrb.entries[i]? = some e → t.wrb.entries[i]? = some e' →
        { e' with mark := e.mark, deferred := e.deferred } = e ∧
        ((if e.nt then s.qtk.ntAge else s.qtk.ageMax) ≤ e.age → if e.fetching then e'.deferred.isSome = true else e'.mark.isSome = true) ∧
        ((∀ x ∈ s.wrb.entries, agedOut s x = true → x.id ≠ e.id) → e' = e)) ∧
  ((∀ (s : State) (k : Fin 8) (cb q : Nat), s.ticks → s.wrb.locks.find? (fun l => l.1 == k.val && decide (lockTmo s ≤ l.2.2)) = some (k.val, cb, q) →
      ∃ t, exec (.lockTimeout k) s = .next t ∧ t.wrb.brk = setBit s.wrb.brk k true ∧ live t cntLockBrk = live s cntLockBrk + 1 ∧
        t.err.intStatus.getLsbD srcLockBroken = true ∧ Ext (breakLock s k cb 1) t ∧
        (breakLock s k cb 1).wrb.locks = s.wrb.locks.filter (·.1 != k.val) ∧ (cb, k.val) ∈ (breakLock s k cb 1).wrb.broken ∧
        t.cfg.regs = s.cfg.regs) ∧
    (∀ (s : State) (n : Fin 6) (b : Bucket), s.ticks → s.err.buckets[n.val]? = some b → b.rst = false → bktLeak s n ≠ 0 → bktLeak s n ≤ b.leak →
      exec (.bucketLeak n) s = .next { s with err := { s.err with
        buckets := s.err.buckets.set n { b with leak := 0, level := b.level - 1 } } }) ∧
    (∀ s : State, s.ticks → exec .suspectExpire s = .next { s with err := { s.err with
      suspects := s.err.suspects.filter fun e => decide ((tickCnt s - e.wstart).toNat < max 1 (fld (reg s 0x7060) 15 0)) } }) ∧
    (∀ s : State, s.ticks → exec .commitWindowExpire s =
      .next (if s.cfg.window = true ∧ 64 ≤ s.cfg.winQt then { s with cfg := { s.cfg with window := false } } else s)) ∧
    (∀ s : State, s.ticks → exec .keyLapse s =
      .next (if s.cfg.unlocked.isSome = true ∧ 2 ≤ s.cfg.unlkQt then { s with cfg := { s.cfg with unlocked := none } } else s)) ∧
    (∀ s : State, s.ticks → s.cfg.passWait = false → exec .crcPassStart s = .next s) ∧
    ∀ s : State, s.ticks → s.cfg.parBad = [] → s.cfg.passWait = true → exec .crcPassStart s = .next { s with cfg := { s.cfg with
        passWait := false, pass := true, passPos := 16, passNew := true,
        passCrc := crcRun 0xFFFFFFFF ((members.take 16).flatMap fun o => numBytes 4 (reg s o).toNat) } })

/-- CCH_CTRL: the checks of R125 in order, what enabling does, and what disabling does. -/
def Obligations.CacheEnableAndDisable : Prop :=
  (∀ (s : State) (who : Fin 8), s.up → rowReady s who 0x2104 1 → s.cch.enabled = false → ∃ t, exec (.cacheEnable who) s = .next t ∧
    (let code : Nat := if 3 < fld (reg s 0x2100) 2 0 then 2 else if cspCapacity s < 2 ^ (27 + fld (reg s 0x2100) 2 0) then 3
       else if s.csp.ready = false then 4 else if s.cch.bypass = true ∧ s.cfg.okSince = false then 5
       else if s.cch.invDone = false then 1 else 0
     (code ≠ 0 → t.cch.enFail = BitVec.ofNat 4 code ∧ t.cch.enSeq = s.cch.enSeq + 1 ∧ (s.cfg.parBad = [] → t.cch.enabled = false) ∧
       t.err.fCsloss = s.err.fCsloss) ∧
     (code = 0 → (s.cfg.parBad = [] → t.cch.enabled = true) ∧ t.err.fCsloss = false ∧ t.cch.enSeq = s.cch.enSeq ∧
       ∀ k, k < 8 → probeable s k false = true →
         ∃ x ∈ t.prb.probes, x.kind = .invAll ∧ x.port = portOf k ∧ x.toSend.getLsbD (pairOf k) = true)) ∧
    s.prb.probes <+: t.prb.probes ∧ t.cfg.regs = s.cfg.regs ∧ t.vlt = s.vlt) ∧
  (∀ (s : State) (who : Fin 8), s.up → rowReady s who 0x2104 1 → s.cch.enabled = true → ∃ t, exec (.cacheEnable who) s = .next t ∧ Ext s t) ∧
  ∀ (s : State) (who : Fin 8), s.up → rowReady s who 0x2104 0 → ∃ t, exec (.cacheDisable who) s = .next t ∧ (s.cfg.parBad = [] → t.cch.enabled = false) ∧
    Ext { disableCache s with cfg := { (disableCache s).cfg with stale := [] } } t ∧
    (s.cch.enabled = true → (disableCache s).cch.invDone = false ∧
      ∀ h ∈ (disableCache s).cch.handlers, (isFill h.kind = true ∨ h.kind = .sectorMiss) → h.cancelled = true) ∧
    (disableCache s).cch.tags = s.cch.tags ∧
    s.prb.probes <+: t.prb.probes ∧ t.cfg.regs = s.cfg.regs ∧ t.vlt = s.vlt

/-- The lookup pipeline's rows act in states where the pipeline takes their operation (`turn`), which changes nothing but the tick's
rounds and CMD_MIN (log entry 91); one that is taken ranks with or before every other ready one, and is the oldest of its rank at ranks
1 and 2. A miss handler goes to an operation that waits for one, and leaves enough for every request before it: those that may take a
reserved one, then by admission; the operation re-enters the lookup pipeline holding it. A fill installs: all eight sectors to the cache
store with the pending bytes over the pool's, the tag entry whole as R141 lists it, the handler released. One that was cancelled, or
meets a cache that is not enabled, installs nothing. A prefetch candidate is dropped while the prefetcher issues nothing, or when it
fails R150's checks; one that passes is looked up. -/
def Obligations.MissHandlersAndFills : Prop :=
  (∀ (s z : State) (o : PipeOp) (k n : Nat), turn s o k = some (z, n) →
      { z with qtk := s.qtk } = s ∧ n ≤ k ∧ opReady s o = true ∧
      ((opRank s o).rank ≠ 15 → ∀ x ∈ readyOps s, (opRank s o).rank ≤ x.2.rank) ∧
      ((opRank s o).rank = 10 ∨ (opRank s o).rank = 20 → ∀ x ∈ readyOps s, x.2.rank = (opRank s o).rank → (opRank s o).age ≤ x.2.age)) ∧
  ((∀ (s z : State) (r : Req) (i n : Nat), s.up → handlerFor s = some (.req r, i) → turn s .reenter 1 = some (z, n) →
      (∃ t, exec .missHandlerGrant s = .next t ∧ Ext (if r.queued then fetchPass z r (some i) else goRead z r (some i)) t ∧ owed t = owed s) ∧
      r ∈ s.bus.reqs ∧ r.phase = .handler ∧ handlerBusy s i = false ∧ i < 64 ∧ (r.counted = false → 8 ≤ i) ∧
      ∀ q ∈ s.bus.reqs, q.phase = .handler →
        ((takesReserved q = true ∧ takesReserved r = false) ∨ (takesReserved q = takesReserved r ∧ q.id < r.id)) →
        ∃ j, handlerInTurn s { age := reqAge q.id, counted := takesReserved q } = some j ∧ j ≠ i) ∧
    ∀ (s z : State) (m i n : Nat) (x : Running) (w : UnitWait), s.up → handlerFor s = some (.unit m x w, i) →
      turn s .reenter 1 = some (z, n) →
      (∃ t, exec .missHandlerGrant s = .next t ∧ Ext (grantUnit z m x w i) t) ∧ handlerBusy s i = false ∧ i < 64 ∧
        getRun s m = some x ∧ w ∈ x.waiting) ∧
  ((∀ (s z : State) (i : Fin 64) (n : Nat) (h : Handler) (b : Block) (p : Nat), s.up → s.sound → turn s (.install i) 1 = some (z, n) →
      getHandler s i = some h → h.data = some (b, 0) → (h.kind = .demand ∨ h.kind = .prefetch) → h.pos = some p → p < s.cch.known →
      h.cancelled = false → s.cch.enabled = true → s.csp.ready = true → badWays s h.cb = 0 → (overlay s h.cb h.later b).2 = false →
      ∃ t, exec (.fillInstall i) s = .next t ∧
        (let y := install (over2 z (.install i)) h b
         Ext y t ∧
         tagBits y p = tagWord { tag := h.tagF, age := h.age, lock := false, c0 := h.c0, pres := presFor s h.reqs, svalid := 0xFF } ∧
         (∀ g ∈ y.cch.handlers, g.idx ≠ h.idx)) ∧
        s.csp.accs ++ [{ id := s.csp.nextAcc, kind := .install h.idx, pos := p, sectors := List.range 8,
                         data := (overlay s h.cb h.later b).1, mask := BitVec.allOnes 512, counted := h.counted, cls := h.cls,
                         left := List.range 8, inRow := false, issued := false }] <+: t.csp.accs ∧
        t.cfg.regs = s.cfg.regs ∧ t.vlt = s.vlt ∧ t.icb = s.icb) ∧
    ∀ (s z : State) (i : Fin 64) (n : Nat) (h : Handler) (b : Block), s.up → turn s (.install i) 1 = some (z, n) →
      getHandler s i = some h → h.data = some (b, 0) → (h.kind = .demand ∨ h.kind = .prefetch ∨ h.kind = .sectorMiss) →
      (h.cancelled = true ∨ s.cch.enabled = false ∨ s.csp.ready = false) → (overlay s h.cb h.later b).2 = false →
      ∃ t, exec (.fillInstall i) s = .next t ∧
        (let y := install (over2 z (.install i)) h b
         Ext y t ∧ y.cch.tags = s.cch.tags ∧ y.csp.accs = s.csp.accs) ∧ t.cfg.regs = s.cfg.regs ∧ t.vlt = s.vlt) ∧
  ((∀ (s z : State) (n : Nat) (c : Candidate) (l : List Candidate), s.up → s.cch.cands = c :: l → turn s .candidate 1 = some (z, n) →
      (prefetchOpen s = false ∨ pfEn s = false ∨ s.cch.enabled = false ∨ inPool (poolRange s c.region) (c.cb * 512) = false ∨
        span s ≤ c.cb * 512 ∨ dataEnd s ≤ c.cb * 512) →
      ∃ t, exec .prefetchCandidate s = .next t ∧ Ext { z with cch := { z.cch with cands := l } } t) ∧
    ∀ (s z : State) (n : Nat) (c : Candidate) (l : List Candidate), s.up → s.cch.cands = c :: l → turn s .candidate 1 = some (z, n) →
      prefetchOpen s = true → ∃ t, exec .prefetchCandidate s = .next t ∧
        (let y := prefetch { z with cch := { z.cch with cands := l } } c
         Ext y t ∧ live t cntPfIssue = live y cntPfIssue) ∧ t.cfg.regs = s.cfg.regs ∧ t.vlt = s.vlt)

/-- The access picked is one whose bank can accept it, with a burst to issue, behind no older access to its sectors. The oldest access
of a request counted as class 0 that is no install comes first, but for a class-0 read of one burst to its bank; then one that holds
its bank between two bursts; then, at banks that none holds, installs counted as class 0. Its next burst goes to the devices. Read
data of a hit whose words are all good is answered with OK, the requester's own queued bytes over it; an uncorrectable word counts
a recovery and queues the clearing of its sector. -/
def Obligations.CacheStoreAccesses : Prop :=
  (∀ (s : State) (ready : List Nat) (a : Acc) (r : Round), s.up → s.csp.ready = true → pickAcc s ready = some (a, r) →
      (let c := s.csp.accs.filter fun a => !a.issued && ready.contains a.id && !accBlocked s a
       let first := c.find? fun b => b.counted && !isInstall b && (!isWrite b || !bankHeld s b)
       a ∈ c ∧
       (∀ b, first = some b → a = b ∨ (1 < b.sectors.length ∧ a.counted = true ∧ isWrite a = false ∧ a.sectors.length ≤ 1 ∧ sameBank s b a = true)) ∧
       (∀ b, first = none → c.find? (·.inRow) = some b → a = b) ∧
       (∀ b, first = none → c.find? (·.inRow) = none → (c.filter fun x => !bankHeld s x).find? (·.counted) = some b → a = b)) ∧
      ∃ t, exec (.cacheStoreAccess ready) s = .next t ∧ Ext (issueAcc { s with qtk := { s.qtk with csRound := r } } a) t ∧
        t.qtk.csRound = r ∧ t.cfg.regs = s.cfg.regs ∧ t.vlt = s.vlt ∧
        ∀ k l, a.left = k :: l →
          (if isWrite a = true ∧ (a.sectors.any fun k => partialWord (accMask a k)) = false
           then .ddrWrite (dramAddr s a.pos k) (secWords (sectorOf a.data k)) (wordsOf (accMask a k))
           else .ddrRead (dramAddr s a.pos k)) :: s.out <:+ t.out) ∧
  ((∀ (s : State) (a : Acc) (i : Nat) (q : Req) (ws : List (BitVec 64 × BitVec 8)), s.up →
      s.csp.accs.find? (fun x => x.id == a.id && x.issued) = some a → ws.length = 8 * (todo a).length → a.kind = .hit i →
      getReq s i = some q → responded s q = false → q.who < 12 → silenced s q.who = false → (sectorsRead s a.pos (todo a) ws).2.2 = [] →
      ∃ t, exec (.cacheStoreReadDone a.id ws) s = .next t ∧ Ext (accData s a ws) t ∧
        (let b := overBlock (sectorsRead s a.pos (todo a) ws).2.1 a.data a.mask
         let x := overSector (sectorOf b (secOf q.pool)) q.fwdData q.fwdMask
         (accData s a ws).bus.resps =
           s.bus.resps ++ [{ who := q.who, tag := q.tag, rsp := .ok, beats := dataBeats q x, untagged := false, retry := false,
                             counted := q.counted, req := some i, cb := some (reqCb q), par := (dataBeats q x).map beatPar, kept := false }]) ∧
        live t cntCsRec = live s cntCsRec ∧ t.cfg.regs = s.cfg.regs ∧ t.vlt = s.vlt) ∧
    ∀ (s : State) (a : Acc) (ws : List (BitVec 64 × BitVec 8)), s.up → s.csp.accs.find? (fun x => x.id == a.id && x.issued) = some a →
      ws.length = 8 * (todo a).length → isWrite a = false → (sectorsRead s a.pos (todo a) ws).2.2 ≠ [] →
      ∃ t, exec (.cacheStoreReadDone a.id ws) s = .next t ∧ Ext (accData s a ws) t ∧ live t cntCsRec = live s cntCsRec + 1 ∧
        (∀ k ∈ (sectorsRead s a.pos (todo a) ws).2.2, (a.pos, k) ∈ (accData s a ws).cch.secClr) ∧
        (∀ b ∈ (accData s a ws).csp.accs, b.id ≠ a.id) ∧ t.cfg.regs = s.cfg.regs ∧ t.vlt = s.vlt)

/-- SECDED: a word without error reads good, one flipped bit of data or check bits is corrected to the word written. A codeblock and
the granule a drain writes for it read back as they were: good, or with reason 7 when the drain marked it uncorrectable; at another
codeblock's place the reason is 4. -/
def Obligations.CodesCorrectAndDetect : Prop :=
  (∀ d : BitVec 64, secDecode d (secEncode d) = (d, .good) ∧
      (∀ i, i < 64 → secDecode (d ^^^ bit true i) (secEncode d) = (d, .corrected)) ∧
      (∀ j, j < 8 → secDecode d (secEncode d ^^^ bit true j) = (d, .corrected)) ∧
      (∀ i j, i < 64 → j < 64 → i ≠ j → (secDecode (d ^^^ bit true i ^^^ bit true j) (secEncode d)).2 = .bad) ∧
      secDecode d (secEncode d ^^^ 3) = (d, .bad)) ∧
  (∀ (str : BitVec 3) (cb : Nat) (w : BitVec 16) (unc blankOk seqChk : Bool) (b : Block), str.toNat ≤ 5 →
      decodeBlock str cb (some w) blankOk seqChk b (granuleOf b str unc w cb) =
        { reason := if unc then 7 else 0, data := b, fixed := 0, blank := false, found := w } ∧
      ∀ cb', cb' % 2 ^ 35 ≠ cb % 2 ^ 35 → (decodeBlock str cb' none blankOk seqChk b (granuleOf b str unc w cb)).reason = 4)

/-- Fault-handling operations: a sector's SVALID bit clears; a set clearing zeroes every way that is not retired and, while the cache is
enabled, queues one INV_ALL; a retirement appends its position, or sets SCREE_FULL. -/
def Obligations.FaultHandlingOperations : Prop :=
  (∀ (s z : State) (n p k : Nat) (l : List (Nat × Nat)), s.up → s.sound → s.cch.secClr = (p, k) :: l → k < 8 → p < s.cch.known →
    turn s .sectorClear 1 = some (z, n) →
    ∃ t, exec .sectorClear s = .next t ∧
      (let y := clearSector (over2 { z with cch := { z.cch with secClr := l } } .sector) p k
       Ext y t ∧ (tagAt y p).svalid.getLsbD k = false) ∧ t.cfg.regs = s.cfg.regs ∧ t.vlt = s.vlt) ∧
  (∀ (s z : State) (n i : Nat) (m : BitVec 16) (l : List (Nat × BitVec 16)), s.up → s.sound → s.cch.setClr = (i, m) :: l →
    turn s .setClear 1 = some (z, n) →
    ∃ t, exec .tagSetClearing s = .next t ∧
      (let y := clearSet (over2 { z with cch := { z.cch with setClr := l } } .set) i
       Ext y t ∧ ∀ w ∈ liveWays s i, posOf s i w < s.cch.known → tagBits y (posOf s i w) = 0) ∧
      live t cntTagRec = live s cntTagRec + 1 ∧
      (s.cch.enabled = true → ∀ k, k < 8 → probeable s k false = true →
        ∃ x ∈ t.prb.probes, x.kind = .invAll ∧ x.port = portOf k ∧ x.toSend.getLsbD (pairOf k) = true) ∧
      s.prb.probes <+: t.prb.probes ∧ t.cfg.regs = s.cfg.regs ∧ t.vlt = s.vlt) ∧
  ∀ (s z : State) (n p c : Nat) (l : List (Nat × Nat)), s.up → s.err.retire = (p, c) :: l → turn s .retirement 1 = some (z, n) →
    ∃ t, exec .screeRetirement s = .next t ∧
      (if s.err.scree.length < 1024 ∧ screeStale s = false then
         t.err.scree = (if s.err.scree.contains p then s.err.scree else s.err.scree ++ [p]) ∧ t.err.fScree = s.err.fScree ∧
         live t cntRetire = live s cntRetire + 1
       else t.err.scree = s.err.scree ∧ t.err.fScree = true ∧ live t cntRetire = live s cntRetire) ∧
      t.err.intStatus.getLsbD srcScree = true ∧ t.cfg.regs = s.cfg.regs ∧ t.vlt = s.vlt

/-- INIT clears READY and starts step 1; each step ends as R317 and R318 give: the next step, READY, a full training after a failed
trial of the Vault's record, or a failure with its ERRCODE; step 4 writes every mode register of every rank, step 5 begins with ZQCL
to each. Refresh, and ZQCS for a rank that is due; DDR_ALERT_N, the wake step of the port and VDDQ low in
Sleep, with the loss they report. -/
def Obligations.CacheStorePortStates : Prop :=
  ((∀ (s : State) (who : Fin 8), s.up → rowReady s who 0x9010 0x80000000 → s.csp.busy = false → ∃ t, exec (.cspInit who) s = .next t ∧
      (t.csp.ready, t.csp.busy, t.csp.step, t.csp.fromVault, t.csp.trial, t.csp.sref) = (false, true, 1, false, false, false) ∧
      (s.cch.enabled = true → t.err.fCsloss = true) ∧ t.csp.errCode = s.csp.errCode ∧ t.cfg.regs = s.cfg.regs ∧ t.vlt = s.vlt) ∧
    ∀ (s : State) (r : InitResult) (k : Nat), s.up → s.csp.busy = true → s.csp.step = BitVec.ofNat 4 k → 1 ≤ k → k ≤ 8 →
      ∃ t, exec (.cspInitStepDone r) s = .next t ∧ t.cfg.regs = s.cfg.regs ∧ t.vlt = s.vlt ∧
        (let at' (n : Nat) : Prop := t.csp.step = BitVec.ofNat 4 n ∧ t.csp.busy = true ∧ t.csp.ready = s.csp.ready ∧ t.csp.errCode = s.csp.errCode
         let fails (e : Nat) : Prop := t.csp.busy = false ∧ t.csp.ready = false ∧ t.csp.errCode = BitVec.ofNat 4 e ∧ t.csp.seq = s.csp.seq + 1
         (k = 1 → if timOk s = true ∧ cspDens s ≠ 3 then at' 2 ∧ t.csp.cke = false ∧ t.csp.resetN = false ∧ t.csp.ddrLock = true else fails 1) ∧
         (k = 2 → at' 3 ∧ t.csp.resetN = true) ∧ (k = 3 → at' 4 ∧ t.csp.cke = true ∧
           ∀ m, m ≤ 6 → ∀ n, n < cspRanks s → .ddrMrs n m (modeSettings s) ∈ t.out) ∧
         (k = 4 → at' 5 ∧ ∀ n, n < cspRanks s → .ddrZqcl n 1024 ∈ t.out) ∧
         (k = 5 → match vaultRecord s with
           | some b => at' 7 ∧ t.csp.record = b ∧ t.csp.trial = true
           | none => at' 6) ∧
         (k = 6 → if r = .ok then at' 7 else fails 2) ∧
         (k = 7 → if r = .ok then at' 8 else if s.csp.trial then at' 6 ∧ t.csp.trial = false else fails 3) ∧
         (k = 8 → if r = .ok then t.csp.ready = true ∧ t.csp.busy = false ∧ (s.csp.trial = true → t.csp.fromVault = true ∧ t.csp.record = s.csp.record) ∧
             (s.csp.trial = false → t.csp.record.extractLsb' 0 32 = trainStamp s)
           else if s.csp.trial then at' 6 ∧ t.csp.trial = false else fails 4))) ∧
  ((∀ (s : State) (n : Fin 2), s.up → s.csp.ready = true → n.val < cspRanks s →
      exec (.ddrRefresh n) s = .next (count (emit s (.ddrRef n)) cntRef)) ∧
    (∀ (s : State) (n : Fin 2), s.up → s.csp.ready = true → s.qtk.quanta = true → n.val < cspRanks s → 0 < s.csp.ivl →
      s.csp.ivl * 16 ≤ (if n.val = 0 then s.csp.zq0 else s.csp.zq1) → ∃ t, exec (.zqcs n) s = .next t ∧ t.out = .ddrZqcs n :: s.out ∧
        live t cntZq = live s cntZq + 1 ∧
        t.csp = (if n.val = 0 then { s.csp with zq0 := 0 } else { s.csp with zq1 := 0 }) ∧
        { t with out := s.out, csp := s.csp, cfg := s.cfg } = s ∧ t.cfg.regs = s.cfg.regs) ∧
    (∀ (s : State) (n : Fin 2), s.up → n.val < cspRanks s → ∃ t, exec (.ddrAlert n) s = .next t ∧ t.csp.ready = false ∧ t.csp.errCode = 6 ∧
      t.csp.seq = s.csp.seq + 1 ∧ live t cntAlert = live s cntAlert + 1 ∧ (s.cch.enabled = true → t.err.fCsloss = true) ∧
      (s.cfg.parBad = [] → t.cch.enabled = false) ∧ t.cfg.regs = s.cfg.regs ∧ t.vlt = s.vlt) ∧
    (∀ (s : State) (pass : Bool) (w : Wake), s.up → s.pwr.wake = some w → w.w4 = false → s.clk.xoOk = true → ∃ t, exec (.cspWake pass) s = .next t ∧
      t.pwr.wake = some { w with w4 := true } ∧ t.csp.sref = false ∧ t.csp.cke = true ∧ (∀ n, n < cspRanks s → .ddrZqcl n 512 ∈ t.out) ∧
      (if pass = true ∧ s.csp.vddqLow = false then t.csp.ready = true ∧ t.csp.errCode = s.csp.errCode ∧ t.err.fCsloss = s.err.fCsloss
       else t.csp.ready = s.csp.ready ∧ t.csp.errCode = (if s.csp.vddqLow then 7 else 5) ∧ t.csp.seq = s.csp.seq + 1 ∧ t.err.fCsloss = true ∧
         (s.cfg.parBad = [] → t.cch.enabled = false)) ∧ t.cfg.regs = s.cfg.regs ∧ t.vlt = s.vlt) ∧
    ∀ s : State, s.undef = none → s.pwr.phase = .sleep → exec .vddqLowInSleep s = .next { s with csp := { s.csp with vddqLow := true } })

/-- A NORMAL store at the head of its queue, with the conditions of R158 met, retires when the lookup pipeline takes it: its bytes merge
into the codeblock's open entry, its requester is a contributor, the queue entry is free, LOCK_WRITE releases its lock, and but for
a durable store it is answered. -/
def Obligations.StoreRetires : Prop :=
  ∀ (s z : State) (n : Nat) (r : Fin 13) (q : Req) (perr : Bool), s.up → (storeQueue s r).head? = some q → q.phase = .queue →
    markMet s q = true → (q.cmd = .write ∨ q.cmd = .writeNt ∨ q.cmd = .lockWrite) → isNormal q = true → brokenFor s q = false →
    storeMayRetire s q perr = true → turn s (.store r) 1 = some (z, n) →
    ∃ t, exec (.storeRetirement r perr) s = .next t ∧
      (let y := retireStore z q perr
       Ext y t ∧
       (∃ e, openEntry y (reqCb q) = some e ∧ e.cb = reqCb q ∧
         e.data &&& spreadBlock (reqMask q) = reqData q &&& spreadBlock (reqMask q) ∧ e.valid &&& reqMask q = reqMask q ∧
         e.contrib.getLsbD q.who = true ∧ (perr = true → e.poison = true) ∧ (q.mark = .durable → e.mark.isSome = true ∨ e.deferred.isSome = true)) ∧
       (∀ x ∈ y.bus.reqs, x.id = q.id → x.queued = false) ∧
       (q.cmd = .lockWrite → lockOf y q.who = none) ∧
       (q.mark ≠ .durable → ∀ x, getReq y q.id = some x → x.who < 12 → responded y x = true)) ∧
      live t cntIcbBpar = live s cntIcbBpar + (if perr then 1 else 0) ∧ t.cfg.regs = s.cfg.regs ∧ t.vlt = s.vlt ∧ t.icb = s.icb

/-- The other entries of a store queue: LOCK_ABORT releases the lock and writes nothing; a WATCH is registered, or answered at once
when a write has landed since the arm; a LOCK_WRITE or LOCK_ABORT after a broken lock is told so once; a register write is performed
with the value its bytes carry; a DEVICE write goes out as the fewest MWr TLPs, answered at once with early OK, else after a flush.
-/
def Obligations.OtherQueueEntriesRetire : Prop :=
  (∀ (s : State) (r : Fin 13) (q : Req), s.up → (storeQueue s r).head? = some q → q.phase = .queue → markMet s q = true →
    q.cmd = .lockAbort → brokenFor s q = false → ∃ t, exec (.storeRetirement r false) s = .next t ∧
      Ext (retireWith (dropLock s q.who) q .ok []) t ∧ lockOf (retireWith (dropLock s q.who) q .ok []) q.who = none ∧
      (retireWith (dropLock s q.who) q .ok []).wrb.entries = s.wrb.entries) ∧
  (∀ (s : State) (r : Fin 13) (q : Req), s.up → (storeQueue s r).head? = some q → q.phase = .queue → markMet s q = true →
    q.cmd = .watch → brokenFor s q = false → lockedByOther s (reqCb q) q.who = false →
    ∃ t, exec (.storeRetirement r false) s = .next t ∧
      Ext (if s.wrb.arms.getD q.who none = some (reqCb q) ∧ s.wrb.armWr.getLsbD q.who = true then retireWith s q .watchWake []
        else if s.tst.busy = true ∨ s.pwr.st = .entering ∨ s.pwr.st = .preparing then retireWith s q .watchNowriter []
        else updReq s q.id fun q => { q with queued := false, phase := .watching }) t) ∧
  (∀ (s : State) (r : Fin 13) (q : Req) (perr : Bool), s.up → (storeQueue s r).head? = some q → q.phase = .queue → markMet s q = true →
    (q.cmd = .lockWrite ∨ q.cmd = .lockAbort) → q.who < 8 → s.wrb.brk.getLsbD q.who = true →
    ∃ t, exec (.storeRetirement r perr) s = .next t ∧ t.wrb.brk = setBit s.wrb.brk q.who false ∧
      (let y := if perr then bufParity s 1 q.who else s
       Ext (retireWith { y with wrb := { y.wrb with brk := setBit y.wrb.brk q.who false } } q .lockBroken []) t)) ∧
  (∀ (s : State) (r : Fin 13) (q : Req) (n : Nat) (attr : Reg32), s.up → (storeQueue s r).head? = some q → q.phase = .queue →
    markMet s q = true → (q.cmd = .write ∨ q.cmd = .writeNt) → q.target = .region n attr → attr.getLsbD 0 = true →
    writeOrderMet s q = true → writesHeld s = false → deviceSlot s q = true → ∃ t, exec (.storeRetirement r false) s = .next t ∧
      Ext (retireDevice s q) t ∧ live t cntMwr = live s cntMwr + BitVec.ofNat 64 (mwrSplit q.mask 16 0).length ∧
      (attr.getLsbD 4 = true → q.mark ≠ .durable → ∀ x, getReq (retireDevice s q) q.id = some x → x.who < 12 →
        responded (retireDevice s q) x = true) ∧
      (attr.getLsbD 4 = false ∨ q.mark = .durable → ∀ x ∈ (retireDevice s q).bus.reqs, x.id = q.id → x.phase = .answerWait ∧ x.own = .needFlush) ∧
      t.cfg.regs = s.cfg.regs ∧ t.vlt = s.vlt) ∧
  ∀ (s : State) (r : Fin 13) (q : Req) (off : Nat), s.up → (storeQueue s r).head? = some q → q.phase = .queue → markMet s q = true →
    q.cmd = .write → q.target = .window off → writeOrderMet s q = true → regWriteRoom s off (q.data.extractLsb' (8 * (off % 64)) 32) = true →
    (isDoorbell off = true → releaseMet s q = true) → ∃ t, exec (.storeRetirement r false) s = .next t ∧
      Ext (retireWith (performRegWrite s q.who off (q.data.extractLsb' (8 * (off % 64)) 32)) q .ok []) t

/-- The performing pass of an ATOMIC or LOCK_READ: a write merges into the open entry; a compare that fails writes nothing and
probes nobody; LOCK_READ sets its lock. Either is answered. ATOMIC's results on the masked lanes: swap, add modulo the width,
compare-swap; it answers with the old bytes in the masked lanes. -/
def Obligations.AtomicAndLockReads : Prop :=
  (∀ (s z : State) (n : Nat) (r : Fin 13) (q : Req) (e : Entry), s.up → (storeQueue s r).head? = some q → q.phase = .fetched →
      turn s (.pass r) 1 = some (z, n) → openEntry s (reqCb q) = some e → passWaits s q = false → passBad s q = none →
      (q.cmd = .lockRead ∨ q.cmd = .atomic) →
      ∃ t, exec (.atomicPerformingPass r) s = .next t ∧
        (let y := performFetch z q e
         Ext y t ∧
         (q.fail = 0 → q.cmd = .atomic → ∀ d, atomicResult q (entrySector e q) = some d → ∃ e', openEntry y (reqCb q) = some e' ∧
           e'.data &&& spreadBlock (reqMask q) = placeSector d (secOf q.pool) &&& spreadBlock (reqMask q) ∧ e'.valid &&& reqMask q = reqMask q) ∧
         (q.fail = 0 → q.cmd = .atomic → atomicResult q (entrySector e q) = none → y.prb.probes = s.prb.probes ∧
           y.wrb.entries.map (fun x => (x.cb, x.data, x.valid)) = s.wrb.entries.map fun x => (x.cb, x.data, x.valid)) ∧
         (q.cmd = .lockRead → (q.who, reqCb q, 0) ∈ y.wrb.locks) ∧
         (∀ x, getReq y q.id = some x → x.who < 12 → responded y x = true) ∧
         (∀ x ∈ y.bus.reqs, x.id = q.id → x.queued = false)) ∧ t.vlt = s.vlt ∧ t.icb = s.icb) ∧
  (∀ (q : Req) (old : Sector), firstBeat q.addr < 8 →
      (q.op = 0 → atomicResult q old = some q.data) ∧
      (q.op = 2 → atomicResult q old =
        if laneVal q (beatOf old (firstBeat q.addr)) = laneVal q q.cmp then some q.data else none) ∧
      (q.op = 1 → atomicMaskOk q.addr q.mask = true → ∃ d, atomicResult q old = some d ∧
        laneVal q (beatOf d (firstBeat q.addr)) =
          (laneVal q (beatOf old (firstBeat q.addr)) + laneVal q (beatOf q.data (firstBeat q.addr))) % 2 ^ (8 * (atomicGroup q).2)) ∧
      ∀ i, i < 64 → (atomicBeat q old).getLsbD i = (q.mask.getLsbD (8 * firstBeat q.addr + i / 8) && old.getLsbD (64 * firstBeat q.addr + i)))

/-- A drain starts for the marked entry that comes first in R166's order: durable, then full in the order they became full, then the
others by age of allocation; the entry moves whole into a slot. A partial drain's completion lookup: from the pool when it is not
looked up or misses a sector, else a read of the cache store. -/
def Obligations.DrainStartsAndLookups : Prop :=
  (∀ (s : State) (e : Entry) (perr : Bool), s.up → s.tst.quiescing = false → drainPick s = some e → drainSlotLeft s = true →
      (e ∈ s.wrb.entries ∧ mayDrain s e = true ∧
        ∀ x ∈ s.wrb.entries, mayDrain s x = true →
          (rankKey (e.mark.getD .other)).1 < (rankKey (x.mark.getD .other)).1 ∨
          ((rankKey (e.mark.getD .other)).1 = (rankKey (x.mark.getD .other)).1 ∧ (rankKey (e.mark.getD .other)).2 ≤ (rankKey (x.mark.getD .other)).2)) ∧
      ∃ t, exec (.drainStart perr) s = .next t ∧ Ext (startDrain s e perr) t ∧ live t cntDrain = live s cntDrain + 1 ∧
        (∀ x ∈ (startDrain s e perr).wrb.entries, x.id ≠ e.id) ∧
        (∃ x, (startDrain s e perr).wrb.slots = s.wrb.slots ++ [x] ∧ x.kind = .drain ∧ x.cb = e.cb ∧ x.data = e.data ∧ x.valid = e.valid ∧
          x.str = e.str ∧ x.contrib = e.contrib ∧ x.poison = (e.poison || perr) ∧
          x.stage = (if e.valid = BitVec.allOnes 512 then .ready else .lookup)) ∧ t.cfg.regs = s.cfg.regs ∧ t.vlt = s.vlt) ∧
  (∀ (s z : State) (i n : Nat) (x : Slot), s.up → getSlot s i = some x → x.kind = .drain → x.stage = .lookup →
      turn s (.completion i) 1 = some (z, n) →
      ∃ t, exec (.completionLookup i) s = .next t ∧ Ext (completionLookup z x) t ∧ t.cfg.regs = s.cfg.regs ∧ t.vlt = s.vlt ∧
        (lookable s x.cacheable x.cb = false → getSlot (completionLookup z x) i = some { x with stage := .poolWait }) ∧
        ∀ w, lookable s x.cacheable x.cb = true → clearingDue s x.cb = false →
          lookup s x.cb ((missingSectors x).foldl (fun m k => setBit m k true) 0) = .hit w →
          secDue s (posOf s (setOf s x.cb) w) ((missingSectors x).foldl (fun m k => setBit m k true) 0) = false → s.csp.ready = true →
          accRoomFor s false (sectorRuns (missingSectors x)).length = true →
          (addRuns s (.completion x.id) (posOf s (setOf s x.cb) w) (missingSectors x) 0 0 false x.cls).csp.accs <+: t.csp.accs)

/-- The drain that the port issues next has its bytes complete, and no read goes before it; it issues two posted writes, the codeblock
and its granule at the entry's strength with the global write sequence count, which advances; the recent-write table takes the
codeblock, and the slot is free. A flush read is issued for every release whose drains are done, on a slot of its own; it is counted
when a durable release waits for it. Its completion meets them. -/
def Obligations.DrainWritesAndFlushReads : Prop :=
  (∀ (s : State) (x : Slot) (r : Round) (perr : Bool), s.up → pickDrain s = some (x, r) →
      (x ∈ s.wrb.slots ∧ drainReady s x = true ∧ ∀ m ∈ readyReads s, m.1.cls ≠ 0 ∧ m.1.cls ≠ roundClass x.cls) ∧
      ∃ t, exec (.drainWrite x.id perr) s = .next t ∧ Ext (drainWrite { s with qtk := { s.qtk with memRound := r } } x perr) t ∧
        .tlp (.mwr (busAddr s (dataEnd s + x.cb * 64))
          ((granuleOf x.data x.str (x.bad || (x.poison || perr)) s.icb.gseq x.cb).setWidth 4096) 64 (BitVec.allOnes 64)) ::
        .tlp (.mwr (busAddr s (x.cb * 512)) x.data 512 (BitVec.allOnes 64)) :: s.out <:+ t.out ∧
        t.icb.gseq = s.icb.gseq + 1 ∧ t.icb.recent = ((x.cb, s.icb.gseq) :: s.icb.recent.filter (·.1 != x.cb)).take 256 ∧
        live t cntMwr = live s cntMwr + 2 ∧
        (∀ y ∈ (drainWrite { s with qtk := { s.qtk with memRound := r } } x perr).wrb.slots, y.id ≠ x.id) ∧ t.cfg.regs = s.cfg.regs ∧ t.vlt = s.vlt) ∧
  ((∀ s : State, s.up → flushWaiting s ≠ [] → slotFree s true = true → ∃ t, exec .flushRead s = .next t ∧ Ext (flushIssue s) t ∧
      s.mem.reads.map (·.owner) ++ [.flush s.wrb.nextSlot] <+: t.mem.reads.map (·.owner) ∧
      live t cntFlush = live s cntFlush + (if s.bus.reqs.any (fun q => (flushWaiting s).contains q.id && q.mark == .durable) then 1 else 0) ∧
      (∀ q ∈ (flushIssue s).bus.reqs, q.dur ≠ .needFlush ∧ q.own ≠ .needFlush) ∧ t.cfg.regs = s.cfg.regs ∧ t.vlt = s.vlt) ∧
    ∀ (s : State) (c : Cpl) (m : MRead) (i : Nat) (x : Slot) (ids : List Nat) (entry : Bool), s.up → s.mem.dlUp = true →
      matching s c = some m → m.owner = .flush i → m.quar = false → getSlot s i = some x → x.kind = .flush ids entry →
      zeroLenOk m c = true → ∃ t, exec (.flushReadDone c) s = .next t ∧ Ext (flushMet (dropRead s c.tag.toNat) i) t ∧
        (∀ q ∈ (flushMet (dropRead s c.tag.toNat) i).bus.reqs, q.id ∈ ids → q.dur ≠ .flushing ∧ q.own ≠ .flushing) ∧
        (∀ y ∈ (flushMet (dropRead s c.tag.toNat) i).wrb.slots, y.id ≠ i) ∧
        (entry = true → t.pwr.entry = s.pwr.entry.map fun e => { e with flushed := true }) ∧ t.cfg.regs = s.cfg.regs ∧ t.vlt = s.vlt)

/-- A completion that matches no read is a violation; one for a quarantined tag is counted late, and frees the tag of a read that timed
out, its last part that of one that ended in error; a part of a read's data is kept until all bytes are there; a completion that
disagrees ends the request with error status. The last part of a demand fill's codeblock and granule: decoded and checked as R248 lists;
good data waits for its install, bad data is counted, reported and logged, with the codeblock's address. -/
def Obligations.PoolReadCompletions : Prop :=
  ((∀ (s : State) (c : Cpl) (perr : Bool), s.up → s.mem.dlUp = true → matching s c = none → ∃ t, exec (.poolReadCompletion c perr) s = .next t ∧
      violated s t 1 c.header ∧ { t with mem := s.mem, cfg := s.cfg, err := s.err } = s ∧ t.mem.reads = s.mem.reads ∧ t.cfg.regs = s.cfg.regs) ∧
    (∀ (s : State) (c : Cpl) (perr : Bool) (m : MRead), s.up → s.mem.dlUp = true → matching s c = some m → m.quar = true →
      ∃ t, exec (.poolReadCompletion c perr) s = .next t ∧ live t cntLate = live s cntLate + 1 ∧ Ext (lateCpl s m c.tag.toNat c) t ∧
        ((m.ended = false ∨ c.status ≠ .sc ∨ m.bytes ≤ m.got.length + c.data.length) →
          ∀ x ∈ (lateCpl s m c.tag.toNat c).mem.reads, x.tag ≠ some c.tag.toNat) ∧ kept s t) ∧
    (∀ (s : State) (c : Cpl) (perr : Bool) (m : MRead), s.up → s.mem.dlUp = true → matching s c = some m → m.quar = false →
      ownerIsFlush m.owner = false → cplCode m c = 0 → m.got.length + c.data.length < m.bytes →
      ∃ t, exec (.poolReadCompletion c perr) s = .next t ∧
        Ext (updRead s c.tag.toNat fun _ => { m with got := m.got ++ c.data }) t ∧ kept s t) ∧
    ∀ (s : State) (c : Cpl) (perr : Bool) (m : MRead), s.up → s.mem.dlUp = true → matching s c = some m → m.quar = false →
      ownerIsFlush m.owner = false → cplCode m c ≠ 0 → ∃ t, exec (.poolReadCompletion c perr) s = .next t ∧
        violated s t (cplCode m c) c.header ∧ Ext (dataCpl s m c.tag.toNat c perr) t ∧ kept s t) ∧
  (∀ (s : State) (c : Cpl) (m : MRead) (i : Nat) (h : Handler) (b : Block), s.up → s.mem.dlUp = true → matching s c = some m →
      m.quar = false → m.owner = .handler i true → cplCode m c = 0 → m.got.length + c.data.length = m.bytes → getHandler s i = some h →
      h.dev = none → h.cbData = some b → h.kind = .demand → ∃ t, exec (.poolReadCompletion c false) s = .next t ∧
      (let d := decodeBlock h.str h.cb h.expect (blankOk s) (seqChk s) b (BitVec.ofNat 512 (ofBytes (m.got ++ c.data)))
       (d.reason = 0 → live t cntIcbUnc = live s cntIcbUnc ∧ t.icb = s.icb ∧
         live t cntIcbBit = live s cntIcbBit + BitVec.ofNat 64 d.fixed ∧
         ∃ h', getHandler (dataCpl s m c.tag.toNat c false) i = some h' ∧ h'.data = some (d.data, 0) ∧ h'.fixed = d.fixed) ∧
       (d.reason ≠ 0 → live t cntIcbUnc = live s cntIcbUnc + 1 ∧ t.icb.log0 = BitVec.ofNat 32 (h.cb * 512) ∧
         t.err.intStatus.getLsbD srcPoolBad = true ∧ live t cntIcbMisdir = live s cntIcbMisdir + (if d.reason = 4 then 1 else 0) ∧
         live t cntIcbStale = live s cntIcbStale + (if d.reason = 6 then 1 else 0))) ∧
      Ext (dataCpl s m c.tag.toNat c false) t ∧ kept s t)

/-- A read that passes T_cpl: counted, reported, its tag quarantined, and then link recovery with cause 1. The steps of link
recovery: training that does not end; the probe read's completion, or none; a retry that a boundary has left due while the pool is
down (a boundary leaves none: log entry 23). -/
def Obligations.TimeoutsAndLinkRecovery : Prop :=
  (∀ (s : State) (tag : BitVec 8) (m : MRead), s.up → s.mem.reads.find? (fun x => x.tag == some tag.toNat && !x.quar) = some m →
      m.owner ≠ .probe → ∃ t, exec (.completionTimeout tag) s = .next t ∧ live t cntCplTmo = live s cntCplTmo + 1 ∧
        t.err.intStatus.getLsbD srcCplTmo = true ∧ recovers s t 1 ∧ Ext (readTimeout s m) t ∧
        (∀ x ∈ (readTimeout s m).mem.reads, x.owner = m.owner → x.quar = true) ∧
        (∀ i, m.owner = .flush i → ∀ x ∈ (readTimeout s m).wrb.slots, x.id = i → x.resend = true) ∧ kept s t) ∧
  ((∀ s : State, s.up → s.mem.recov = .training → s.mem.dlUp = false → ∃ t, exec .linkTrainTimeout s = .next t ∧ t.mem.recov = .idle ∧
      t.err.fPoolDown = true ∧ kept s t) ∧
    (∀ (s : State) (m : MRead), s.up → s.mem.recov = .probing → s.mem.reads.find? (fun x => x.owner == .probe && !x.quar) = some m →
      (∃ t, exec (.probeReadDone none) s = .next t ∧ t.mem.recov = .idle ∧ t.err.fPoolDown = true ∧ kept s t) ∧
      ∀ c : Cpl, c.ridOk = true → m.tag = some c.tag.toNat → s.mem.dlUp = true → ∃ t, exec (.probeReadDone (some c)) s = .next t ∧
        t.mem.recov = .idle ∧ kept s t ∧
        if zeroLenOk m c then t.err.fPoolDown = false ∧ live t cntMemViol = live s cntMemViol
        else t.err.fPoolDown = true ∧ violated s t 5 c.header) ∧
    (∀ s : State, s.up → s.mem.retryDue = true → s.err.fPoolDown = true → s.mem.recov = .idle → linkEn s = true →
      ∃ t, exec .poolDownRetry s = .next t ∧ t.mem.retryDue = false ∧ t.mem.recov = .training ∧
        (s.mem.dlUp = true → .retrain :: s.out <:+ t.out) ∧ live t cntRecov = live s cntRecov ∧ kept s t) ∧
    (∀ s : State, s.up → s.mem.retryDue = true → (s.err.fPoolDown = false ∨ s.mem.recov ≠ .idle) →
      ∃ t, exec .poolDownRetry s = .next t ∧ Ext { s with mem := { s.mem with retryDue := false } } t) ∧
    (∀ s : State, s.up → s.mem.retryDue = false → exec .poolDownRetry s = .next s) ∧
    ∀ (s : State) (c : Cpl) (m : MRead) (i : Nat), s.up → s.mem.dlUp = true → matching s c = some m → m.owner = .flush i → m.quar = false →
      zeroLenOk m c = false → ∃ t, exec (.flushReadDone c) s = .next t ∧ violated s t 5 c.header ∧ recovers s t 4 ∧
        Ext (flushCpl s i c.tag.toNat m c) t ∧ (∀ x ∈ (flushCpl s i c.tag.toNat m c).wrb.slots, x.id = i → x.resend = true) ∧ kept s t)

/-- The data link layer goes down: recovery with cause 3, no tag stays quarantined. It comes up at a rate and width within the limits of
MEM_LINK_CFG, advertising its credits (R288); a recovery that trained then sends its probe read. The link enters L1 when it is idle and
ASPM_L1 allows it. -/
def Obligations.DataLinkLayer : Prop :=
  (∀ s : State, s.up → s.mem.dlUp = true → ∃ t, exec .linkDown s = .next t ∧ t.mem.dlUp = false ∧ recovers s t 3 ∧ Ext (linkLost s) t ∧
    (∀ x ∈ (linkLost s).mem.reads, x.quar = false) ∧ kept s t) ∧
  (∀ (s : State) (speed width : BitVec 4), s.up → s.pwr.st ≠ .offrdy → trainDue s = true → ∃ t, exec (.dlUp speed width) s = .next t ∧
    t.mem.dlUp = true ∧ t.mem.speed = BitVec.ofNat 4 (min (max speed.toNat 1) (maxSpeed s)) ∧
    t.mem.width = BitVec.ofNat 4 (min (widthCode width) (maxWidth s)) ∧ t.mem.retraining = false ∧
    (s.mem.recov ≠ .training → t.mem.recov = s.mem.recov) ∧
    (let up := if s.mem.dlUp then s.out else .initFc advertised :: s.out
     up <:+ t.out ∧ ∀ tag, s.mem.recov = .training → freeTagFor s .probe = some tag → t.mem.recov = .probing ∧
       .tlp (.mrdZero (busAddr s (flushWord s)) tag) :: up <:+ t.out) ∧ kept s t) ∧
  ∀ s : State, s.up → (reg s 0x8010).getLsbD 16 = true → s.mem.reads = [] → s.mem.cfgBusy = false → s.mem.recov = .idle → s.mem.dlUp = true →
    s.mem.pstate = 0 → exec .aspmL1Entry s = .next { s with mem := { s.mem with pstate := 1 } }

/-- MEM_LINK_CTRL. EN and PERST_OFF are stored; clearing either while the link is up takes the data link layer down, and with EN = 0
recovery ends at once and POOL_DOWN sets. RETRAIN and HOTRST act while the link is up. Configuration requests: one per GO, only
while none is outstanding and the data link layer is up, sent at once unless link recovery or the want of a tag holds it; the
completion gives CPLS and the read data. -/
def Obligations.LinkControlAndConfiguration : Prop :=
  ((∀ (s : State) (who : Fin 8) (val : Reg32), s.up → rowReady s who 0x8014 val → val.getLsbD 28 = false → val.getLsbD 29 = false →
      ∃ t, exec (.linkEnable who val) s = .next t ∧ exec (.perstOff who val) s = .next t ∧ reg t 0x8014 = val &&& 0xC0000000 ∧
        (∀ off, off ≠ 0x8014 → reg t off = reg s off) ∧ t.vlt = s.vlt ∧ t.clk = s.clk ∧
        t.mem.dlUp = (s.mem.dlUp && !((reg s 0x8014).getLsbD 31 && !val.getLsbD 31) && !((reg s 0x8014).getLsbD 30 && !val.getLsbD 30)) ∧
        ((reg s 0x8014).getLsbD 31 = true → val.getLsbD 31 = false →
          ((s.mem.dlUp = true ∧ s.mem.recov = .idle) ∨ s.mem.recov = .training) → t.err.fPoolDown = true ∧ t.mem.recov = .idle)) ∧
    (∀ (s : State) (who : Fin 8) (speed width : BitVec 4), s.up → s.sound → rowReady s who 0x8014 (linkAction s 29) → s.mem.dlUp = true →
      ∃ t, exec (.retrain who speed width) s = .next t ∧
      .retrain :: s.out <:+ t.out ∧ t.mem.dlUp = true ∧ t.mem.retraining = false ∧
      t.mem.speed = BitVec.ofNat 4 (min (max speed.toNat 1) (maxSpeed s)) ∧
      t.mem.width = BitVec.ofNat 4 (min (widthCode width) (maxWidth s)) ∧ (∀ off, off ≠ 0x8014 → reg t off = reg s off) ∧ t.vlt = s.vlt) ∧
    ∀ (s : State) (who : Fin 8), s.up → s.sound → rowReady s who 0x8014 (linkAction s 28) → s.mem.dlUp = true → ∃ t, exec (.hotrst who) s = .next t ∧ .hotReset :: s.out <:+ t.out ∧
      t.mem.dlUp = false ∧ (∀ off, off ≠ 0x8014 → reg t off = reg s off) ∧ t.vlt = s.vlt) ∧
  ((∀ (s : State) (who : Fin 8) (val : Reg32), s.up → rowReady s who 0x8024 val → val.getLsbD 31 = true → s.mem.cfgBusy = false →
      s.mem.dlUp = true →
      ∃ t, exec (.configRequest who val) s = .next t ∧ t.mem.cfgBusy = true ∧ t.mem.cfgRead = !val.getLsbD 8 ∧
        reg t 0x8024 = val &&& 0x10F ∧ (∀ off, off ≠ 0x8024 → reg t off = reg s off) ∧ t.vlt = s.vlt ∧
        (s.mem.recov = .idle → (∃ tag ∈ sharedTags, tagUsed s tag = false) → .tlp (if val.getLsbD 8 then .cfgWr ((reg s 0x8020).extractLsb' 12 3) ((reg s 0x8020).extractLsb' 2 10) (val.extractLsb' 0 4) (reg s 0x8028)
          else .cfgRd ((reg s 0x8020).extractLsb' 12 3) ((reg s 0x8020).extractLsb' 2 10) (val.extractLsb' 0 4)) :: s.out <:+ t.out)) ∧
    (∀ (s : State) (who : Fin 8) (val : Reg32), s.up → rowReady s who 0x8024 val → val.getLsbD 31 = true → (s.mem.cfgBusy = true ∨ s.mem.dlUp = false) →
      ∃ t, exec (.configRequest who val) s = .next t ∧ t.mem.cfgBusy = s.mem.cfgBusy ∧ t.mem.cfgRead = s.mem.cfgRead ∧ Ext (regPut s 0x8024 val) t) ∧
    (∀ s : State, s.up → s.mem.cfgBusy = true → exec (.configCompletion none) s =
      .next { s with mem := { s.mem with cfgBusy := false, cfgWait := none, cfgTag := none, cfgCpls := 7 } }) ∧
    ∀ (s : State) (c : CplStatus) (d : Reg32), s.up → s.mem.cfgBusy = true → s.mem.dlUp = true → s.mem.cfgTag.isSome = true →
      ∃ t, exec (.configCompletion (some (c, d))) s = .next t ∧
        t.mem = { s.mem with cfgBusy := false, cfgWait := none, cfgTag := none, cfgCpls := match c with | .sc => 0 | .ur => 1 | .crs => 2 | .ca => 4 } ∧
        (∀ off, reg t off = if c = .sc ∧ s.mem.cfgRead = true ∧ off = 0x8028 then d else reg s off) ∧ { t with mem := s.mem, cfg := s.cfg } = s)

/-- The port's own errors, and the bridge's messages: the bit of MEM_AER_COR or MEM_AER_UNC with its SEQ and the MEM source;
correctable errors are counted; fatal rows start link recovery. BRIDGE_INT follows Assert_INTx and Deassert_INTx. Requests and
malformed TLPs of the bridge: the violation of R307, and a UR completion for the non-posted ones. -/
def Obligations.LinkErrorsAndBridgeRequests : Prop :=
  ((∀ (s : State) (e : LinkErr) (b : Nat), s.up → linkEn s = true → corBit e = some b → ∃ t, exec (.linkError e) s = .next t ∧
      t.mem.aerCor = setBit s.mem.aerCor b true ∧ t.mem.corSeq = s.mem.corSeq + 1 ∧ live t cntCor = live s cntCor + 1 ∧
      t.err.intStatus.getLsbD srcMem = true ∧ t.mem.recov = s.mem.recov ∧ kept s t) ∧
    (∀ (s : State) (e : LinkErr), s.up → linkEn s = true → corBit e = none → ∃ t, exec (.linkError e) s = .next t ∧
      t.mem.aerUnc = setBit s.mem.aerUnc (uncBit e) true ∧ t.mem.uncSeq = s.mem.uncSeq + 1 ∧ t.err.intStatus.getLsbD srcMem = true ∧
      t.mem.dlUp = (s.mem.dlUp && e != .surpriseDown) ∧ recovers s t (if e = .surpriseDown ∧ s.mem.dlUp = true then 3 else 2) ∧ kept s t) ∧
    (∀ (s : State) (header : List Reg32), s.up → s.mem.dlUp = true →
      (∃ t, exec (.bridgeMessage .errCor header) s = .next t ∧ t.mem.aerCor = setBit s.mem.aerCor 5 true ∧ t.mem.corSeq = s.mem.corSeq + 1 ∧
        live t cntCor = live s cntCor ∧ t.err.intStatus.getLsbD srcMem = true ∧ kept s t) ∧
      (∃ t, exec (.bridgeMessage .errFatal header) s = .next t ∧ t.mem.aerUnc = setBit s.mem.aerUnc 4 true ∧
        t.mem.uncSeq = s.mem.uncSeq + 1 ∧ t.err.intStatus.getLsbD srcMem = true ∧ recovers s t 2 ∧ kept s t) ∧
      (∃ t, exec (.bridgeMessage .errNonfatal header) s = .next t ∧ t.mem.aerUnc = setBit s.mem.aerUnc 5 true ∧
        t.mem.uncSeq = s.mem.uncSeq + 1 ∧ t.err.intStatus.getLsbD srcMem = true ∧ t.mem.recov = s.mem.recov ∧ kept s t) ∧
      ∃ t, exec (.bridgeMessage .unsupported header) s = .next t ∧ violated s t 0x0C header ∧ kept s t) ∧
    (∀ s : State, s.up → s.mem.dlUp = true → ∃ t, exec .assertIntx s = .next t ∧ t.mem = { s.mem with bridgeInt := true } ∧
      t.err.intStatus.getLsbD srcMem = true ∧ { t with mem := s.mem, err := s.err } = s) ∧
    ∀ s : State, s.up → s.mem.dlUp = true → exec .deassertIntx s = .next { s with mem := { s.mem with bridgeInt := false } }) ∧
  ((∀ (s : State) (r : BridgeReq) (header : List Reg32), s.up → s.mem.dlUp = true → ∃ t, exec (.bridgeRequest r header) s = .next t ∧
      violated s t (match r with | .mrd => 6 | .mwr => 7 | .otherNonPosted => 8 | .otherPosted => 8 | .malformed => 9) header ∧
      t.out = (match r with | .mrd => .tlp .urCompletion :: s.out | .otherNonPosted => .tlp .urCompletion :: s.out | _ => s.out) ∧
      { t with out := s.out, mem := s.mem, cfg := s.cfg, err := s.err } = s ∧ t.mem.reads = s.mem.reads ∧ t.cfg.regs = s.cfg.regs) ∧
    ∀ s : State, s.undef = none → s.pwr.phase = .sleep → exec .clkreqInSleep s = .next { s with mem := { s.mem with clkreq := true } })

/-- The engine's registers. A doorbell whose release condition holds records the pending tail; an absent ring records nothing and
has a DB_ABSENT event; a doorbell that must wait is queued as the WRITE it stands for (R108), and one of an agent whose port grants
it nothing does not reach the block. EN, ABORT and RESTART; a ring register resets its ring with EN = 0 and breaks R206 with EN = 1;
a HEAD moves only up to the tail; CMD_RSW CLR closes the window once the region has the new strength. -/
def Obligations.EngineRegisters : Prop :=
  (∀ (s : State) (who : Fin 8) (n : Fin 4) (tail : BitVec 12), s.up → s.sound →
    rowReady s who (0x5110 + 4 * n.val) (tail.setWidth 32) → ∃ t, exec (.cmdSqDb who n tail) s = .next t ∧
    (getRing t n).pend = (if ringSize s n = 0 then (getRing s n).pend else tail.toNat) ∧
    (∀ m, m ≠ n.val → (getRing t m).pend = (getRing s m).pend) ∧
    (ringSize s n = 0 → s.eng.eqRuns = true → ∃ e, s.eng.events ++ [e] <+: t.eng.events ∧ e.block = 0 ∧ e.code = 4 ∧ e.tick = tickCnt s) ∧
    kept s t) ∧
  (∀ (s : State) (who : Fin 8) (n : Fin 4) (tail : BitVec 12), s.up →
    (rowOpen s who = true → rowFree s (rowWrite s who (0x5110 + 4 * n.val) (tail.setWidth 32)) = false →
      ∃ t, exec (.cmdSqDb who n tail) s = .next t ∧
      (∀ m, (getRing t m).pend = (getRing s m).pend) ∧ owed t = owed s ∧ t.bus.nextReq = s.bus.nextReq + 1 ∧ kept s t ∧
      Ext (addReq { s with bus := { s.bus with nextReq := s.bus.nextReq + 1 } }
        (rowWrite s who (0x5110 + 4 * n.val) (tail.setWidth 32))) t) ∧
    (rowOpen s who = false → exec (.cmdSqDb who n tail) s = .next s)) ∧
  (∀ (s : State) (who : Fin 8) (val : Reg32), s.up → s.sound → rowReady s who 0x5100 val → ∃ t, exec (.cmdEnable who val) s = .next t ∧
    (let refused : Bool := val.getLsbD 0 && (ringSize s 4 == 0 || ringSize s 5 == 0)
     t.eng.en = (if refused then s.eng.en else val.getLsbD 0) ∧ t.eng.cfgErr = (s.eng.cfgErr || refused) ∧
     t.eng.seq = s.eng.seq + (if refused then 1 else 0) ∧ t.eng.cqErr = (val.getLsbD 0 && s.eng.cqErr)) ∧
    (∀ n, n < 4 → (getRing t n).abort = ((getRing s n).abort || val.getLsbD (8 + n)) ∧ (val.getLsbD (4 + n) = true → (getRing t n).halt = false)) ∧
    kept s t) ∧
  (∀ (s : State) (who : Fin 8) (mask : BitVec 4), s.up → s.sound →
    (rowReady s who 0x5100 (ctrlValue s mask 8) → ∃ t, exec (.abort who mask) s = .next t ∧ t.eng.en = s.eng.en ∧ kept s t ∧
      ∀ n, n < 4 → (getRing t n).abort = ((getRing s n).abort || mask.getLsbD n) ∧ (getRing t n).halt = (getRing s n).halt) ∧
    (rowReady s who 0x5100 (ctrlValue s mask 4) → ∃ t, exec (.restart who mask) s = .next t ∧ t.eng.en = s.eng.en ∧ kept s t ∧
      ∀ n, n < 4 → (getRing t n).halt = ((getRing s n).halt && !mask.getLsbD n) ∧ (getRing t n).abort = (getRing s n).abort)) ∧
  (∀ (s : State) (who : Fin 8) (n k : Nat) (val : Reg32), s.up → s.sound → s.cfg.unlocked = some who.val → n < 6 → k < 3 →
    rowReady s who (0x5000 + 16 * n + 4 * k) val →
    (s.eng.en = false → ∃ t, exec (.cmdRingWrite who (BitVec.ofNat 16 (0x5000 + 16 * n + 4 * k)) val) s = .next t ∧
      reg t (0x5000 + 16 * n + 4 * k) = val &&& (if k = 0 then 0xFFFFFC00 else if k = 1 then 0x0000FFFF else 0x0000000F) ∧
      (∀ off, off ≠ 0x5000 + 16 * n + 4 * k → reg t off = reg s off) ∧ t.cfg.unlocked = none ∧ t.vlt = s.vlt ∧
      (n < 4 → (getRing t n).pend = 0 ∧ (getRing t n).acc = 0 ∧
        ∀ m, m ≠ n → (getRing t m).pend = (getRing s m).pend ∧ (getRing t m).acc = (getRing s m).acc) ∧
      (n = 4 → t.eng.cqHead = 0 ∧ t.eng.cqTail = 0 ∧ t.eng.cqPhase = true) ∧
      (n = 5 → t.eng.eqHead = 0 ∧ t.eng.eqTail = 0 ∧ t.eng.eqPhase = true)) ∧
    (s.eng.en = true → ∃ t, exec (.cmdRingWrite who (BitVec.ofNat 16 (0x5000 + 16 * n + 4 * k)) val) s = .next t ∧ t.undef = some .r206)) ∧
  (∀ (s : State) (who : Fin 8) (val : Reg32), s.up →
    (let h := fld val 11 0
     (rowReady s who 0x5130 val → ∃ t, exec (.ringHeadWrite who false val) s = .next t ∧ kept s t ∧ t.eng.cqTail = s.eng.cqTail ∧ t.eng.eqHead = s.eng.eqHead ∧
       t.eng.cqHead = (if h < ringSize s 4 ∧ (h + ringSize s 4 - s.eng.cqHead) % ringSize s 4 ≤ (s.eng.cqTail + ringSize s 4 - s.eng.cqHead) % ringSize s 4
         then h else s.eng.cqHead)) ∧
     (rowReady s who 0x5138 val → ∃ t, exec (.ringHeadWrite who true val) s = .next t ∧ kept s t ∧ t.eng.eqTail = s.eng.eqTail ∧ t.eng.cqHead = s.eng.cqHead ∧
       t.eng.eqHead = (if h < ringSize s 5 ∧ (h + ringSize s 5 - s.eng.eqHead) % ringSize s 5 ≤ (s.eng.eqTail + ringSize s 5 - s.eng.eqHead) % ringSize s 5
         then h else s.eng.eqHead)))) ∧
  ∀ (s : State) (who : Fin 8), s.up → rowReady s who 0x510C 0x40000000 → ∃ t, exec (.rswClr who) s = .next t ∧ kept s t ∧
    Ext (if s.eng.window.any (fun w => attrStr (rgnAttr s w.region) == w.new) then { s with eng := { s.eng with window := none } } else s) t

/-- Descriptors. One that is due is read at the ring's head as one 64-byte READ, or the ring halts with an ERROR entry of status 0x09
when its address does not decode. One that arrived with good data moves the head on; a failed read halts the ring. Completion and event
entries, which are written until Sleep entry has saved the Vault (15 R361). The oldest completion entry is written at the tail as one
64-byte WRITE while the ring has a free entry; PHASE turns over when the tail wraps; one that does not decode is lost, and every ring
halts. The marker takes the last free entry of the event ring; without two free entries an event is lost and counted, with the interrupt
at the first loss. -/
def Obligations.DescriptorsAndEntries : Prop :=
  ((∀ (s : State) (n : Fin 4), s.up → s.sound → descDue s n = true →
      (∀ x, engDecode s .read (ringBase s n + 64 * (getRing s n).head) = some x → ∃ t, exec (.descriptorRead n) s = .next t ∧ kept s t ∧
        (getRing t n).desc = some s.bus.nextReq ∧ t.bus.nextReq = s.bus.nextReq + 1 ∧ (getRing t n).halt = false) ∧
      (engDecode s .read (ringBase s n + 64 * (getRing s n).head) = none → ∃ t, exec (.descriptorRead n) s = .next t ∧ kept s t ∧
        (getRing t n).halt = true ∧ (getRing t n).desc = none ∧ ∃ e, s.eng.cents ++ [e] <+: t.eng.cents ∧ e.typ = 4 ∧ e.ring = n.val ∧ e.status = 9)) ∧
    ∀ (s : State) (n : Fin 4) (r : Req), s.up → s.sound → descDone s n = some r →
      (r.fail = 0 → ∃ t, exec (.descriptorReadDone n) s = .next t ∧ kept s t ∧ Ext (descArrive s n r) t ∧
        (getRing (descArrive s n r) n).head = ((getRing s n).head + 1) % ringSize s n ∧ (getRing (descArrive s n r) n).held = some r.result ∧
        (getRing t n).desc = none ∧ (getRing t n).halt = (getRing s n).halt) ∧
      (r.fail ≠ 0 → ∃ t, exec (.descriptorReadDone n) s = .next t ∧ kept s t ∧ Ext (descArrive s n r) t ∧ (getRing t n).halt = true ∧
        (getRing t n).desc = none ∧ (getRing (descArrive s n r) n).head = (getRing s n).head ∧
        ∃ e, s.eng.cents ++ [e] <+: t.eng.cents ∧ e.typ = 4 ∧ e.ring = n.val ∧ e.status = (if r.fail = 2 then 7 else 6))) ∧
  ((∀ (s : State) (e : CEntry) (l : List CEntry), s.up → s.sound → s.eng.cents = e :: l → entriesOpen s = true →
      (cqFree s = 0 → ∃ t, exec .completionEntryWrite s = .next t ∧ kept s t ∧ s.eng.cents <+: t.eng.cents ∧ t.eng.cqTail = s.eng.cqTail ∧
        t.eng.cqSaid = true) ∧
      (cqFree s ≠ 0 → probesOwed s e = false → (storeQueue s 12).length < 8 → ∀ x, engDecode s .write (ringBase s 4 + 64 * s.eng.cqTail) = some x →
        ∃ t, exec .completionEntryWrite s = .next t ∧ kept s t ∧ l <+: t.eng.cents ∧ t.eng.cqTail = (s.eng.cqTail + 1) % ringSize s 4 ∧
          t.eng.cqPhase = (if (s.eng.cqTail + 1) % ringSize s 4 = 0 then !s.eng.cqPhase else s.eng.cqPhase) ∧ Ext (cqWrite s e) t ∧
          ∃ q ∈ (cqWrite s e).bus.reqs, q.who = 12 ∧ q.cmd = .write ∧ q.addr.toNat = ringBase s 4 + 64 * s.eng.cqTail ∧ q.data = entryBytes s e ∧
            q.mask = BitVec.allOnes 64 ∧ q.queued = true ∧ q.mark = if e.typ = 3 then (if e.durable then .durable else .release) else .none) ∧
      (cqFree s ≠ 0 → probesOwed s e = false → (storeQueue s 12).length < 8 → engDecode s .write (ringBase s 4 + 64 * s.eng.cqTail) = none →
        ∃ t, exec .completionEntryWrite s = .next t ∧ kept s t ∧ t.eng.cqErr = true ∧ l <+: t.eng.cents ∧ t.eng.cqTail = s.eng.cqTail ∧
          ∀ n, n < 4 → (getRing t n).halt = true)) ∧
    (∀ (s : State) (e : Event) (l : List Event), s.up → s.eng.events = e :: l → entriesOpen s = true → (s.eng.marker = false ∨ eqFree s = 0) → (storeQueue s 12).length < 8 →
      (2 ≤ eqFree s → ∀ x, engDecode s .write (ringBase s 5 + 64 * s.eng.eqTail) = some x → ∃ t, exec .eventEntryWrite s = .next t ∧ kept s t ∧
        l <+: t.eng.events ∧ t.eng.eqTail = (s.eng.eqTail + 1) % ringSize s 5 ∧ t.eng.eqLost = s.eng.eqLost ∧
        t.eng.eqPhase = (if (s.eng.eqTail + 1) % ringSize s 5 = 0 then !s.eng.eqPhase else s.eng.eqPhase)) ∧
      (eqFree s < 2 → ∃ t, exec .eventEntryWrite s = .next t ∧ kept s t ∧ l <+: t.eng.events ∧ t.eng.eqTail = s.eng.eqTail ∧
        t.eng.eqLost = s.eng.eqLost + 1 ∧ (s.eng.eqLost = 0 → t.err.intStatus.getLsbD srcEqOvf = true))) ∧
    ∀ s : State, s.up → entriesOpen s = true → s.eng.marker = true → eqFree s ≠ 0 → (storeQueue s 12).length < 8 →
      ∀ x, engDecode s .write (ringBase s 5 + 64 * s.eng.eqTail) = some x → ∃ t, exec .eventEntryWrite s = .next t ∧ kept s t ∧
        t.eng.marker = false ∧ t.eng.eqLost = 0 ∧ t.eng.eqTail = (s.eng.eqTail + 1) % ringSize s 5)

/-- NOP, INVALIDATE_ALL and REGION_DROP, in states where the lookup pipeline takes their step. NOP ends with a DONE entry.
INVALIDATE_ALL zeroes its next tag entries and no others; its last unit sets INV_DONE unless a keyed change came meanwhile.
REGION_DROP leaves no valid entry of its pool range behind it and counts what it invalidated; the tags outside its units stay. -/
def Obligations.TagWalkCommands : Prop :=
  (∀ (s : State) (n : Fin 4) (x : Running), s.up → s.sound → stepDue s n 0 = some x → ∃ t, exec (.nop n) s = .next t ∧ kept s t ∧
    Ext (finishRun s n x 0) t ∧ ∃ e, s.eng.cents ++ [e] <+: t.eng.cents ∧ e.typ = 3 ∧ e.ring = n.val ∧ e.status = 0 ∧ e.cmdId = x.cmdId ∧
      e.pct = 1024 ∧ e.final = true ∧ e.irq = x.irq) ∧
  (∀ (s z : State) (n : Fin 4) (x : Running) (units c k : Nat), s.up → s.sound → stepDue s n 1 = some x → x.doneN < 32768 →
    turn s (.step n) units = some (z, c) → c ≠ 0 →
    k = min c (32768 - x.doneN) → 64 * x.doneN ≤ s.cch.known → (x.doneN + k = 32768 → probeRoom s (attachedAgents s) = true) →
    ∃ t, exec (.invalidateAll n units) s = .next t ∧ kept s t ∧ Ext (invStep z n c x) t ∧
      (∀ p, 64 * x.doneN ≤ p → p < 64 * (x.doneN + k) → tagBits (invStep z n c x) p = 0) ∧
      (∀ p, p < 64 * x.doneN → tagBits (invStep z n c x) p = tagBits s p) ∧
      (∀ p, 64 * (x.doneN + k) ≤ p → tagBits (invStep z n c x) p = tagBits s p) ∧
      ((getRun (invStep z n c x) n).map (·.doneN)) = some (x.doneN + k) ∧
      (invStep z n c x).cch.invDone = (s.cch.invDone || (x.doneN + k == 32768 && !x.keyed)) ∧
      (x.doneN + k = 32768 → ∀ a, a < 8 → probeable s a false = true →
        ∃ y ∈ t.prb.probes, y.kind = .invAll ∧ y.port = portOf a ∧ y.toSend.getLsbD (pairOf a) = true)) ∧
  ∀ (s z : State) (n : Fin 4) (x : Running) (units c k : Nat), s.up → s.sound → stepDue s n 5 = some x → x.doneN < 32768 →
    turn s (.step n) units = some (z, c) → c ≠ 0 → k = min c (32768 - x.doneN) → 64 * (x.doneN + k) ≤ s.cch.known →
    (walk (if x.begun then z else updRun (dropRecent z (x.addr, x.addr + x.len)) n fun x => { x with begun := true }) (64 * x.doneN)
      (64 * (x.doneN + k)) (fun cb => inPool (x.addr, x.addr + x.len) (cb * 512)) { ring := some n.val }).room = true →
    ∃ t, exec (.regionDrop n units) s = .next t ∧ kept s t ∧ Ext (dropStep z n c x) t ∧
      (∀ p, 64 * x.doneN ≤ p → p < 64 * (x.doneN + k) → valid (tagAt (dropStep z n c x) p) = true →
        inPool (x.addr, x.addr + x.len) (cbAtPos (dropStep z n c x) p * 512) = false) ∧
      (∀ p, (p < 64 * x.doneN ∨ 64 * (x.doneN + k) ≤ p) → tagBits (dropStep z n c x) p = tagBits s p) ∧
      ((getRun (dropStep z n c x) n).map (·.doneN)) = some (x.doneN + k) ∧
      (x.begun = false → ∀ e ∈ (dropStep z n c x).icb.recent, inPool (x.addr, x.addr + x.len) (e.1 * 512) = false)

/-- PRELOAD, LOCK_WAYS and UNLOCK_WAYS, in states where the lookup pipeline takes their next unit. A unit whose codeblock does not
decode stops the command with status 0x04; one that is not looked up is skipped and counted. PRELOAD: a hit takes age 0; a miss starts
a fill, or is skipped where no way may be its victim. LOCK_WAYS sets LOCK within LOCK_MAX locked ways of the set; UNLOCK_WAYS clears
it; a way outside the mask, and a miss, is counted. -/
def Obligations.PreloadAndLockCommands : Prop :=
  (∀ (s z : State) (n : Fin 4) (c : Nat) (x : Running), s.up → s.sound → stepDue s n 2 = some x → reentry s n x = none → x.issued < x.total →
    turn s (.step n) 1 = some (z, c) → ∃ t, exec (.preload n) s = .next t ∧ kept s t ∧ Ext (preloadStep z n x) t ∧
      (unitBlock s x x.issued = none → getRun (preloadStep z n x) n = some { x with stop := some (4, x.issued) }) ∧
      ∀ attr cb, unitBlock s x x.issued = some (attr, cb) →
        (lookable s (attrCacheable attr) cb = false →
          runTally (preloadStep z n x) n = some (x.issued + 1, x.doneN + 1, x.count0 + 1, x.count1, none)) ∧
        (lookable s (attrCacheable attr) cb = true → clearingDue s cb = false →
          (∀ w, lookup s cb 0xFF = .hit w → (x.wmask = false ∨ x.ways.getLsbD w = true) → posOf s (setOf s cb) w < s.cch.known →
            (tagAt (preloadStep z n x) (posOf s (setOf s cb) w)) = { tagAt s (posOf s (setOf s cb) w) with age := 0 } ∧
            runTally (preloadStep z n x) n = some (x.issued + 1, x.doneN + 1, x.count0, x.count1, none)) ∧
          (let y := admitUnit z n x.issued attr
           lookup s cb 0xFF = .miss → fillOf s cb = none → fillRoom y.1 cb false (if x.wmask then some x.ways else none) = true →
            unitHandlers s n < mhMax s → (pickHandler y.1 y.2).isSome = true → s.err.fPoolDown = false →
            (∃ h ∈ (preloadStep z n x).cch.handlers, h.kind = .preload n x.issued ∧ h.cb = cb) ∨
            ((getRun (preloadStep z n x) n).map (·.count0)) = some (x.count0 + 1)))) ∧
  ∀ (s z : State) (n : Fin 4) (c : Nat) (x : Running) (lock : Bool), s.up → s.sound → stepDue s n (if lock then 3 else 4) = some x →
    x.issued < x.total → turn s (.step n) 1 = some (z, c) →
    ∃ t, exec (if lock then .lockWays n else .unlockWays n) s = .next t ∧ kept s t ∧ Ext (lockStep z n x lock) t ∧
      (unitBlock s x x.issued = none → getRun (lockStep z n x lock) n = some { x with stop := some (4, x.issued) }) ∧
      ∀ attr cb, unitBlock s x x.issued = some (attr, cb) →
        (lookable s (attrCacheable attr) cb = false →
          runTally (lockStep z n x lock) n = some (x.issued + 1, x.doneN + 1, x.count0 + 1, x.count1, none) ∧
          (lockStep z n x lock).cch.tags = s.cch.tags) ∧
        (lookable s (attrCacheable attr) cb = true → clearingDue s cb = false →
          (lookup s cb 0 = .miss →
            runTally (lockStep z n x lock) n = some (x.issued + 1, x.doneN + 1, x.count0 + 1, x.count1, none)) ∧
          ∀ w, (lookup s cb 0 = .hit w ∨ lookup s cb 0 = .smiss w) → posOf s (setOf s cb) w < s.cch.known →
            (let p := posOf s (setOf s cb) w
             (x.ways.getLsbD w = false → tagBits (lockStep z n x lock) p = tagBits s p ∧
               runTally (lockStep z n x lock) n = some (x.issued + 1, x.doneN + 1, x.count0 + 1, x.count1, none)) ∧
             (x.ways.getLsbD w = true → lock = false → tagAt (lockStep z n x lock) p = { tagAt s p with lock := false } ∧
               runTally (lockStep z n x lock) n = some (x.issued + 1, x.doneN + 1, x.count0, x.count1, none)) ∧
             (x.ways.getLsbD w = true → lock = true → (tagAt s p).lock = false → lockedWays s (setOf s cb) + 1 ≤ lockMax s →
               tagAt (lockStep z n x lock) p = { tagAt s p with lock := true } ∧
               runTally (lockStep z n x lock) n = some (x.issued + 1, x.doneN + 1, x.count0, x.count1, none)) ∧
             (x.ways.getLsbD w = true → lock = true → (tagAt s p).lock = false → lockMax s < lockedWays s (setOf s cb) + 1 →
               tagBits (lockStep z n x lock) p = tagBits s p ∧
               runTally (lockStep z n x lock) n = some (x.issued + 1, x.doneN + 1, x.count0 + 1, x.count1, none))))

/-- RESTRENGTH and VERIFY, in states where the lookup pipeline takes their next unit. RESTRENGTH takes the next codeblock's open entry,
to drain at the new strength, and marks it busy in the window. VERIFY reads the next codeblock from the pool with a handler of its own.
The codeblock that a VERIFY without REPAIR read is counted: corrected in COUNT0, uncorrectable in COUNT1 with the lowest address in
ERRADDR. -/
def Obligations.RestrengthAndVerify : Prop :=
  (∀ (s z : State) (n : Fin 4) (c : Nat) (x : Running) (w : Window) (attr : Reg32) (cb : Nat), s.up → s.sound → stepDue s n 6 = some x →
    x.issued < x.total → turn s (.step n) 1 = some (z, c) → unitBlock s x x.issued = some (attr, cb) → s.eng.window = some w →
    rewriteRoom s cb (admitUnit z n x.issued attr).2 = true → windowBusy s cb = false →
    ∃ t, exec (.restrength n) s = .next t ∧ kept s t ∧ Ext (restrengthStep z n x) t ∧
      ((restrengthStep z n x).eng.window = some { w with busy := w.busy ++ [cb] }) ∧
      (∃ e, openEntry (restrengthStep z n x) cb = some e ∧ e.rewrite = some (n.val, x.issued) ∧ e.str = w.new ∧ e.fetching = true ∧
        e.contrib.getLsbD 12 = true) ∧
      runTally (restrengthStep z n x) n = some (x.issued + 1, x.doneN, x.count0, x.count1, none)) ∧
  (∀ (s z : State) (n : Fin 4) (c : Nat) (x : Running) (attr : Reg32) (cb : Nat), s.up → s.sound → stepDue s n 7 = some x →
    x.issued < x.total → turn s (.step n) 1 = some (z, c) →
    unitBlock s x x.issued = some (attr, cb) → (∀ y ∈ s.wrb.slots, y.kind = .drain → y.cb ≠ cb) → windowBusy s cb = false →
    unitHandlers s n < mhMax s → (pickHandler (admitUnit z n x.issued attr).1 (admitUnit z n x.issued attr).2).isSome = true →
    ∃ t, exec (.verify n) s = .next t ∧ kept s t ∧ Ext (verifyStep z n x) t ∧
      runTally (verifyStep z n x) n = some (x.issued + 1, x.doneN, x.count0, x.count1, none) ∧
      ∃ h ∈ (verifyStep z n x).cch.handlers, h.kind = .unit n x.issued ∧ h.cb = cb ∧ h.str = strengthFor s cb (attrStr attr)) ∧
  ∀ (s : State) (n : Fin 4) (x : Running) (h : Handler) (u f : Nat) (b : Block), s.up → s.sound → getRun s n = some x → x.opcode = 7 →
    x.repair = false → x.got = [] → (∀ e ∈ s.wrb.entries, e.rewrite ≠ some (n.val, u)) → f ≠ 2 →
    s.cch.handlers.find? (fun g => match g.kind, g.data with | .unit r _, some _ => r == n.val | _, _ => false) = some h →
    h.kind = .unit n u → h.data = some (b, f) → ∃ t, exec (.commandUnitDone n false) s = .next t ∧ kept s t ∧ Ext (unitArrival s n false) t ∧
      getRun (unitArrival s n false) n = some { x with
        doneN := x.doneN + 1, stuckQt := 0
        count0 := x.count0 + (if f = 0 ∧ h.fixed ≠ 0 then 1 else 0), count1 := x.count1 + (if f = 0 then 0 else 1)
        errAddr := if f = 0 then x.errAddr else some (min (x.addr + 512 * u) (x.errAddr.getD (x.addr + 512 * u))) } ∧
      ∀ g ∈ (unitArrival s n false).cch.handlers, g.idx ≠ h.idx

/-- VAULT_SAVE and VAULT_LOAD, unit by unit. A save writes 256 bytes of its image to the slot it picked and no other slot; the
header goes last, with its CRC, and then the slot is valid and the newest is looked up anew. A load's sixteenth Scree unit replaces
the live list. -/
def Obligations.VaultCommands : Prop :=
  (∀ (s : State) (n : Fin 4) (x : Running) (i : Nat) (img : BitVec 65536), s.up → s.sound → stepDue s n 8 = some x → x.req = none →
    (x.param.getLsbD 3 = false ∨ x.len ≤ x.src) → x.image = some (i, img) → i < 8 → x.doneN < x.total → x.total = 32 →
    ∃ t, exec (.vaultSave n) s = .next t ∧ Ext (saveStep s n x) t ∧ t.cfg.regs = s.cfg.regs ∧ t.clk = s.clk ∧
      (∀ j, j ≠ i → slotAt t j = slotAt s j) ∧
      (∀ b, 256 * x.doneN ≤ b → b < 256 * (x.doneN + 1) → 64 ≤ b → slotFld (slotAt t i) b 1 = slotFld img b 1) ∧
      (∀ b, 64 ≤ b → b < 8192 → (b < 256 * x.doneN ∨ 256 * (x.doneN + 1) ≤ b) → slotFld (slotAt t i) b 1 = slotFld (slotAt s i) b 1) ∧
      slotFld (slotAt t i) 0 64 = (if x.doneN = 31 then slotFld img 0 64 else slotFld (slotAt s i) 0 64) ∧
      t.vlt.valid = (if x.doneN = 31 then setBit s.vlt.valid i true else s.vlt.valid) ∧
      (x.doneN < 31 → getRun (saveStep s n x) n = some { x with
        issued := x.issued + 1, doneN := x.doneN + 1, stuckQt := 0, count0 := x.count0 + 256 })) ∧
  (∀ (s : State) (n : Fin 4) (x : Running), s.up → s.sound → stepDue s n 8 = some x → x.req = none → x.param.getLsbD 3 = true → x.src < x.len →
    ∀ z, engDecode s .read (x.addr + x.src) = some z → ∃ t, exec (.vaultSave n) s = .next t ∧ kept s t ∧ Ext (saveStep s n x) t ∧
      t.bus.nextReq = s.bus.nextReq + 1 ∧ getRun (saveStep s n x) n = some { x with req := some s.bus.nextReq }) ∧
  ∀ (s : State) (n : Fin 4) (x : Running) (i j : Nat) (v : BitVec 65536), s.up → s.sound → stepDue s n 9 = some x → x.req = none → x.src = 0 →
    x.param.getLsbD 2 = true → x.image = some (i, v) → x.doneN < x.total → x.doneN < 16 → newestWith s 2 = some j →
    ∃ t, exec (.vaultLoad n) s = .next t ∧ kept s t ∧ Ext (loadStep s n x) t ∧
      getRun (loadStep s n x) n = some { x with issued := x.issued + 1, doneN := x.doneN + 1, stuckQt := 0, count0 := x.count0 + 256 } ∧
      (loadStep s n x).err.scree = if x.doneN = 15 then
        (List.range (slotScreeN (slotAt s j))).map (fun k => slotFld (slotAt s j) (0x400 + 4 * k) 4 % 2 ^ 21) else s.err.scree

/-- WAKE_EPOCH. Its page falls due, to be read in eight parts with a miss handler for each, unless the link is down or the pool is; the
outcome: FULL for a failed read, an invalid page, an epoch behind SEEN or SEEN below the floor, NONE when SEEN has the page's epoch,
else DROP of the entries after SEEN. A good page's run ends with SEEN at its epoch, in MEM_EPOCH_LO and MEM_EPOCH_HI too. -/
def Obligations.WakeEpochSteps : Prop :=
  (∀ (s : State) (n : Fin 4) (u : Nat) (e : Epoch), s.up → s.sound → epochOf s (.ring n) = some e → e.started = false → holds s n false = true →
    ∃ t, exec (.wakeEpoch (.ring n) u) s = .next t ∧ kept s t ∧ Ext (pageDue s (s.mem.dlUp && s.mem.pstate == 0)) t ∧
    (pageDue s (s.mem.dlUp && s.mem.pstate == 0)).eng.epoch = some { e with
      started := true, failed := e.failed || !(s.mem.dlUp && s.mem.pstate == 0) || s.err.fPoolDown }) ∧
  (∀ (s : State) (n i h : Nat) (counted : Bool),
    (pageRead s n i counted h).mem.reads.map (·.owner) = s.mem.reads.map (·.owner) ++ [.handler h false] ∧
    ∃ g ∈ (pageRead s n i counted h).cch.handlers, g.idx = h ∧ g.kind = .page n i ∧ g.dev = some (controlBase s + 512 * i, 512)) ∧
  (∀ (s : State) (run : EpochRun) (u : Nat) (e : Epoch), s.up → s.sound → epochOf s run = some e → e.started = true → e.decided = none →
    pageOver s e = true → ∃ t, exec (.wakeEpoch run u) s = .next t ∧ kept s t ∧ Ext (decideEpoch s e) t ∧
    (let p := pageNum e.page
     let good : Bool := !e.failed && pageValid s p
     let seen := s.mem.seen.toNat
     ((decideEpoch s e).eng.epoch.bind (·.decided)) = some (if good = false then .full else if pageFld p 8 8 = seen then .none
       else if pageFld p 8 8 < seen ∨ seen < pageFld p 16 8 then .full else .drop) ∧
     ((decideEpoch s e).eng.epoch.map (·.failed)) = some (!good) ∧ t.mem.seen = s.mem.seen)) ∧
  ∀ (s : State) (n : Fin 4) (u : Nat) (e : Epoch), s.up → s.sound → epochOf s (.ring n) = some e → e.started = true → e.decided.isSome = true →
    epochOver e = true → (∀ y ∈ s.prb.probes, y.ring ≠ some n.val) → ∃ t, exec (.wakeEpoch (.ring n) u) s = .next t ∧ t.vlt = s.vlt ∧
      (if e.failed then t.mem.seen = s.mem.seen ∧ t.cfg.regs = s.cfg.regs
       else t.mem.seen = e.epochV ∧ reg t 0x8030 = e.epochV.extractLsb' 0 32 ∧ reg t 0x8034 = e.epochV.extractLsb' 32 32 ∧
         ∀ off, off ≠ 0x8030 → off ≠ 0x8034 → reg t off = reg s off) ∧
      ∃ d, s.eng.cents ++ [d] <+: t.eng.cents ∧ d.typ = 3 ∧ d.ring = n.val ∧ d.status = 0

/-- A 64-bit counter occupies two registers, its low half at an offset 8k and its high half at 8k + 4; one READ at 8k returns all of
it. -/
def Obligations.CountersReadWhole : Prop :=
  ∀ (s : State) (c : Nat), isCounter c = true → c % 8 = 0 → regRead s c = (held s c).extractLsb' 0 32 ∧
    regRead s (c + 4) = (held s c).extractLsb' 32 32 ∧ beatRead s c = held s c

/-- What a register READ returns: the stored value of a member, one bit through the alias window, 0 where nothing is; it is answered
with OK and changes no register, and nothing else either while no member's parity is bad. -/
def Obligations.RegisterReads : Prop :=
  (∀ (s : State) (off : Nat), isMember off = true → regRead s off = reg s off) ∧
  (∀ (s : State) (j n : Nat), j < 5 → n < 32 → regRead s (0xF000 + 128 * j + 4 * n) =
    (if (regRead s ([0x7004, 0x2114, 0xA00C, 0xA010, 0x7068].getD j 0)).getLsbD n then 1 else 0)) ∧
  (∀ (s : State) (off : Nat), 0xF280 ≤ off → off < 0x10000 → regRead s off = 0) ∧
  ∀ (s : State) (q : Req) (off : Nat), getReq s q.id = some q → responded s q = false → q.who < 12 → silenced s q.who = false →
    (s.cfg.parBad = [] → s.bus.resps ++
      [{ who := q.who, tag := q.tag, rsp := .ok, beats := [(regRead s (off + 4)).append (regRead s off)], untagged := false
         retry := false, counted := q.counted, req := some q.id, cb := none
         par := [beatPar ((regRead s (off + 4)).append (regRead s off))], kept := false }] <+: (readRegister s q off).bus.resps) ∧
    (∀ o, reg (readRegister s q off) o = reg s o) ∧
    (s.cfg.parBad = [] → { (readRegister s q off) with bus := s.bus } = s)

/-- REGISTER_WRITE. A register without a key stores the written value in its fields, reserved bits as 0; a keyed register does so
for the holder of the key alone, which locks it and is a keyed change; a write refused for want of the key changes no register and
is logged and counted; an offset without a stored field changes none. A write that must wait is queued; of an agent whose port is not
enabled or whose pair cannot be granted none reaches the block. -/
def Obligations.RegisterWrites : Prop :=
  (∀ (s : State) (who : Fin 8) (off : BitVec 16) (val : Reg32), s.up → rowReady s who off.toNat val →
    off.toNat ∈ [0x2114, 0x3000, 0x400C, 0x7004, 0x7060, 0x7064, 0x7068, 0x7074, 0x8020, 0x8028, 0xA00C, 0xA010, 0xE000, 0xE004] →
    ∃ t, exec (.registerWrite who off val) s = .next t ∧ reg t off.toNat = val &&& storedMask off.toNat ∧
      (∀ o, o ≠ off.toNat → reg t o = reg s o) ∧ t.cfg.unlocked = s.cfg.unlocked ∧ t.vlt = s.vlt ∧
      t.clk = { s.clk with lastWin := if off.toNat = 0xA010 then none else s.clk.lastWin } ∧ owed t = owed s ∧
      (∀ c, c ∉ settleCounters → live t c = live s c) ∧ t.pwr = s.pwr ∧ s.out <:+ t.out) ∧
  (∀ (s : State) (who : Fin 8) (off : BitVec 16) (val : Reg32), s.up → rowReady s who off.toNat val → s.cfg.unlocked = some who.val →
    off.toNat ∈ [0x1000, 0x2110, 0x4000, 0x4008, 0x5104, 0x800C, 0x8010, 0xB004] →
    ∃ t, exec (.registerWrite who off val) s = .next t ∧ reg t off.toNat = val &&& storedMask off.toNat ∧
      (∀ o, o ≠ off.toNat → reg t o = reg s o) ∧ t.cfg.unlocked = none ∧ t.cfg.window = true ∧ t.cfg.pass = false ∧
      Ext (performRegWrite s who off.toNat val) t ∧ (performRegWrite s who off.toNat val).cch.invDone = false ∧ t.vlt = s.vlt ∧ t.clk = s.clk ∧ live t cntKeyRef = live s cntKeyRef) ∧
  (∀ (s : State) (who : Fin 8) (off : BitVec 16) (val : Reg32), s.up → rowReady s who off.toNat val → off.toNat % 4 = 0 → isKeyed off.toNat = true →
    s.cfg.unlocked ≠ some who.val → ∃ t, exec (.registerWrite who off val) s = .next t ∧ kept s t ∧ t.cfg.refused = true ∧
      t.cfg.seq = s.cfg.seq + 1 ∧ t.cfg.keyLog = word [(16, who.val), (0, off.toNat)] ∧ live t cntKeyRef = live s cntKeyRef + 1 ∧
      t.cfg.unlocked = s.cfg.unlocked ∧ Ext (keyRefuse s who off.toNat) t) ∧
  (∀ (s : State) (who : Fin 8) (off : BitVec 16) (val : Reg32), s.up → s.sound → off.toNat < 0xF000 → storedRow off.toNat = none →
    ∃ t, exec (.registerWrite who off val) s = .next t ∧ (∀ o, reg t o = reg s o) ∧ t.vlt = s.vlt) ∧
  ∀ (s : State) (who : Fin 8) (off : BitVec 16) (val : Reg32), s.up →
    (rowOpen s who = true → off.toNat % 4 = 0 → (rowFree s (rowWrite s who off.toNat val) = false ∨ regWriteRoom s off.toNat val = false) →
      ∃ t, exec (.registerWrite who off val) s = .next t ∧ kept s t ∧ owed t = owed s ∧
        Ext (addReq { s with bus := { s.bus with nextReq := s.bus.nextReq + 1 } } (rowWrite s who off.toNat val)) t) ∧
    (rowOpen s who = false → exec (.registerWrite who off val) s = .next s)

/-- The key and the committed reference: CFG_KEY_UNLOCK unlocks for its writer with 0x0000C3A5, and locks with KEYBAD for any other
value; CFG_REF stores the reference, arms the comparison and closes the commit window. RESTART of ERR_DMA lets a halted channel go
on only with no tag outstanding. ERR_SCREE_CTRL CLR needs the key, and empties the list and its stamp only while the cache is not
enabled. -/
def Obligations.KeyReferenceAndClears : Prop :=
  ((∀ (s : State) (who : Fin 8), s.up → rowReady s who 0xD000 0x0000C3A5 → ∃ t, exec (.keyUnlock who 0x0000C3A5) s = .next t ∧
      t.cfg.unlocked = some who.val ∧ t.cfg.keyBad = s.cfg.keyBad ∧ t.cfg.seq = s.cfg.seq ∧ kept s t) ∧
    (∀ (s : State) (who : Fin 8) (val : Reg32), s.up → rowReady s who 0xD000 val → val ≠ 0x0000C3A5 → ∃ t, exec (.keyUnlock who val) s = .next t ∧
      t.cfg.unlocked = none ∧ t.cfg.keyBad = true ∧ t.cfg.seq = s.cfg.seq + 1 ∧ kept s t) ∧
    ∀ (s : State) (who : Fin 8) (val : Reg32), s.up → rowReady s who 0xD010 val → ∃ t, exec (.cfgRefWrite who val) s = .next t ∧ reg t 0xD010 = val ∧
      (∀ o, o ≠ 0xD010 → reg t o = reg s o) ∧ t.cfg.armed = true ∧ t.cfg.window = false ∧ t.cfg.pass = false ∧
      t.cfg.unlocked = s.cfg.unlocked ∧ t.vlt = s.vlt ∧ t.clk = s.clk) ∧
  ((∀ (s : State) (who : Fin 8) (mask : BitVec 4), s.up → rowReady s who 0x700C (word [(8, mask.toNat)]) →
      ∃ t, exec (.dmaRestart who mask) s = .next t ∧ kept s t ∧
      Ext (dmaWrite s (word [(8, mask.toNat)])) t ∧ ∀ i, i < 4 → (dmaWrite s (word [(8, mask.toNat)])).err.dmaHalt.getLsbD i =
        (s.err.dmaHalt.getLsbD i && !(mask.getLsbD i && [0, 1, 2, 3].all fun g => !tagBusy s (8 + i) (BitVec.ofNat 2 g)))) ∧
    (∀ (s : State) (who : Fin 8), s.up → rowReady s who 0x7070 0x80000000 → s.cfg.unlocked = some who.val →
      ∃ t, exec (.screeClr who) s = .next t ∧ kept s t ∧
      t.cfg.unlocked = none ∧ (performRegWrite s who 0x7070 0x80000000).cch.invDone = false ∧
      (s.cch.enabled = false → t.err.scree = [] ∧ t.err.screeSize = 0 ∧ t.err.screeWays = 0 ∧ t.err.fScree = false) ∧
      (s.cch.enabled = true → t.err.scree = s.err.scree ∧ t.err.screeSize = s.err.screeSize ∧ t.err.screeWays = s.err.screeWays ∧
        t.err.fScree = s.err.fScree)) ∧
    ∀ (s : State) (who : Fin 8), s.up → rowReady s who 0x7070 0x80000000 → s.cfg.unlocked ≠ some who.val →
      ∃ t, exec (.screeClr who) s = .next t ∧ kept s t ∧ t.err.scree = s.err.scree ∧ t.cfg.refused = true ∧ live t cntKeyRef = live s cntKeyRef + 1)

/-- SNAP copies every live count into its holding copy, and with CLR sets every live count to 0; SNAPSEQ advances. Holding copies
change only so, and at reset. A write-back that matches SEQ clears what its table names (eight of them written out); any other has
no effect. A write of an alias word stores one bit of its target; unassigned slots store nothing. -/
def Obligations.SnapshotsWriteBacksAliases : Prop :=
  ((∀ (s : State) (who : Fin 8), s.up →
      (rowReady s who 0xD00C 0x80000000 → ∃ t, exec (.snap who) s = .next t ∧ (∀ c, held t c = live s c) ∧
        (∀ c, c ∉ settleCounters → live t c = live s c) ∧ t.cfg.snapSeq = s.cfg.snapSeq + 1 ∧ kept s t) ∧
      (rowReady s who 0xD00C 0xC0000000 → ∃ t, exec (.snapClr who) s = .next t ∧ (∀ c, held t c = live s c) ∧
        (∀ c, c ∉ settleCounters → live t c = 0) ∧ t.cfg.snapSeq = s.cfg.snapSeq + 1 ∧ kept s t)) ∧
    ∀ (c : Instr) (s t : State), exec c s = .next t → (∃ k, held t k ≠ held s k) →
      writesRegister c = true ∨ (∃ r p, c = .storeRetirement r p) ∨ c = .porstNAssert ∨ c = .bedrockSupplyLoss ∨ c = .suppliesRemoved) ∧
  ((∀ (s : State) (who : Fin 8) (off : BitVec 16) (val : Reg32), s.up → isRsq off.toNat = true → rowReady s who off.toNat val →
      fld (regRead0 s off.toNat) 31 24 ≠ fld val 31 24 → ∃ t, exec (.seqWriteBack who off val) s = .next t ∧ Ext s t) ∧
    (∀ (s : State) (who : Fin 8) (off : BitVec 16) (val : Reg32), s.up → isRsq off.toNat = true → rowReady s who off.toNat val →
      fld (regRead0 s off.toNat) 31 24 = fld val 31 24 → ∃ t, exec (.seqWriteBack who off val) s = .next t ∧ Ext (rsqClear s off.toNat) t ∧
        t.cfg.regs = s.cfg.regs ∧ t.vlt = s.vlt ∧ (off ≠ 0x7000 → off ≠ 0x7010 → off ≠ 0x7014 → fld (regRead0 t off.toNat) 31 24 = fld (regRead0 s off.toNat) 31 24) ∧
        (off = 0x0014 → t.bus.portA.vcode = 0) ∧ (off = 0x1004 → t.prb.toev = 0) ∧ (off = 0x2108 → t.cch.enFail = 0) ∧
        (off = 0x4004 → t.qtk.early = false ∧ t.qtk.loss = false) ∧ (off = 0x5108 → t.eng.cfgErr = false ∧ t.eng.eqErr = false) ∧
        (off = 0x8050 → t.mem.vCode = 0) ∧ (off = 0xB00C → t.pwr.failRsn = 0) ∧
        (off = 0xD008 → t.cfg.dropPhy = false ∧ t.cfg.dropBr = false ∧ t.cfg.keyBad = false ∧ t.cfg.refused = false)) ∧
    (∀ (s : State) (who : Fin 8) (j n : Nat) (val : Reg32), s.up → j < 5 → n < 32 → rowReady s who (0xF000 + 128 * j + 4 * n) val →
      ∃ t, exec (.bitAliasWrite who (BitVec.ofNat 16 (0xF000 + 128 * j + 4 * n)) val) s = .next t ∧
        (let target := [0x7004, 0x2114, 0xA00C, 0xA010, 0x7068].getD j 0
         reg t target = setBit (reg s target) n (val.getLsbD 0) &&& storedMask target ∧ (∀ o, o ≠ target → reg t o = reg s o)) ∧
        t.vlt = s.vlt ∧ t.clk = { s.clk with lastWin := if j = 3 then none else s.clk.lastWin }) ∧
    ∀ (s : State) (who : Fin 8) (k : Nat) (val : Reg32), s.up → k < 864 → rowReady s who (0xF280 + 4 * k) val →
      ∃ t, exec (.bitAliasWrite who (BitVec.ofNat 16 (0xF280 + 4 * k)) val) s = .next t ∧ Ext s t)

/-- Posted registers. A write updates the core copy and sets BUSY; while BUSY it is discarded, with its DROP bit and SEQ; SEEN is
not written while the cache is enabled. The domain acts on the value only once it has taken it, which clears BUSY. -/
def Obligations.PostedWrites : Prop :=
  (∀ (s : State) (who : Fin 8) (val : Reg32), s.up →
    (s.pwr.busyPhy = false → rowReady s who 0xE010 val → ∃ t, exec (.registerWrite who 0xE010 val) s = .next t ∧ reg t 0xE010 = val &&& 0x33 ∧
      (∀ o, o ≠ 0xE010 → reg t o = reg s o) ∧ t.pwr = { s.pwr with busyPhy := true }) ∧
    (s.pwr.busyPhy = true → rowReady s who 0xE010 val → ∃ t, exec (.registerWrite who 0xE010 val) s = .next t ∧ kept s t ∧ t.pwr = s.pwr ∧
      t.cfg.dropPhy = true ∧ t.cfg.seq = s.cfg.seq + 1) ∧
    (s.pwr.busyBr = false → rowReady s who 0xB008 val → ∃ t, exec (.registerWrite who 0xB008 val) s = .next t ∧ reg t 0xB008 = val &&& 0x8F0F007F ∧
      (∀ o, o ≠ 0xB008 → reg t o = reg s o) ∧ t.pwr = { s.pwr with busyBr := true }) ∧
    ∀ off : BitVec 16, (off = 0xB008 ∨ off = 0x8030 ∨ off = 0x8034) → s.pwr.busyBr = true → rowReady s who off.toNat val →
      ∃ t, exec (.registerWrite who off val) s = .next t ∧
      kept s t ∧ t.pwr = s.pwr ∧ t.mem.seen = s.mem.seen ∧ t.cfg.dropBr = true ∧ t.cfg.seq = s.cfg.seq + 1) ∧
  (∀ (s : State) (who : Fin 8) (off : BitVec 16) (val : Reg32), s.up → (off = 0x8030 ∨ off = 0x8034) → s.pwr.busyBr = false →
    rowReady s who off.toNat val →
    (s.cch.enabled = false → ∃ t, exec (.registerWrite who off val) s = .next t ∧ reg t off.toNat = val ∧
      (∀ o, o ≠ off.toNat → reg t o = reg s o) ∧ t.pwr = { s.pwr with busyBr := true } ∧ t.mem.seen = s.mem.seen) ∧
    (s.cch.enabled = true → ∃ t, exec (.registerWrite who off val) s = .next t ∧ Ext s t)) ∧
  (∀ s : State, s.up → s.pwr.busyBr = true → exec (.postedWriteTaken .bedrock) s = .next { s with
    pwr := { s.pwr with busyBr := false, hbBr := reg s 0xB008 }, mem := { s.mem with seen := (reg s 0x8034).append (reg s 0x8030) } }) ∧
  ∀ s : State, s.up → s.pwr.busyPhy = true → exec (.postedWriteTaken .phy) s =
    .next { s with pwr := { s.pwr with busyPhy := false, lanePhy := reg s 0xE010 } }

/-- Requests for Sleep and Off entry. In Run an edge of SLEEP_REQ arms entry for the next boundary; a SLEEP or OFFPREP write does so
only while the engine is disabled and its rings are quiet, and is refused with FAILRSN 1 otherwise. While entry or wake is in
progress an edge or a SLEEP write is latched. The model's reading, not the spec's words: that a further request before that boundary
asks for nothing more (log entry 86), that OFFPREP then has no effect, and that a refusal is reported as R362's table gives (log
entry 26). -/
def Obligations.SleepAndOffRequests : Prop :=
  (∀ s : State, s.up → s.pwr.st = .run →
    (s.pwr.entry = none → exec .sleepReq s =
      .next { s with pwr := { s.pwr with entry := some { off := false, step := .armed, ticks := 0, flushed := false } } }) ∧
    ∀ e, s.pwr.entry = some e → e.step = .armed → exec .sleepReq s = .next s) ∧
  (∀ s : State, s.up → ((∃ e, s.pwr.entry = some e ∧ e.step ≠ .armed) ∨ s.pwr.st ≠ .run) →
    exec .sleepReq s = .next { s with pwr := { s.pwr with latchSleep := true } }) ∧
  (∀ (s : State) (who : Fin 8), s.up → s.pwr.st = .run → s.eng.en = false → (∀ r ∈ s.eng.rings.take 4, r.run = none ∧ r.pend = r.acc) →
    (s.pwr.entry = none →
      (rowReady s who 0xB000 0x80000000 → ∃ t, exec (.sleep who) s = .next t ∧ kept s t ∧
        t.pwr = { s.pwr with entry := some { off := false, step := .armed, ticks := 0, flushed := false } }) ∧
      (rowReady s who 0xB000 0x40000000 → ∃ t, exec (.offprep who) s = .next t ∧ kept s t ∧
        t.pwr = { s.pwr with entry := some { off := true, step := .armed, ticks := 0, flushed := false } })) ∧
    ∀ e, s.pwr.entry = some e → e.step = .armed →
      (rowReady s who 0xB000 0x80000000 → ∃ t, exec (.sleep who) s = .next t ∧ Ext s t) ∧
      (rowReady s who 0xB000 0x40000000 → ∃ t, exec (.offprep who) s = .next t ∧ Ext s t)) ∧
  (∀ (s : State) (who : Fin 8), s.up → s.pwr.st = .run → (∀ e, s.pwr.entry = some e → e.step = .armed) →
    (s.eng.en = true ∨ ∃ r ∈ s.eng.rings.take 4, r.run ≠ none ∨ r.pend ≠ r.acc) →
    (rowReady s who 0xB000 0x80000000 → ∃ t, exec (.sleep who) s = .next t ∧ kept s t ∧
      t.pwr = { s.pwr with failRsn := 1, seq := s.pwr.seq + 1 } ∧ t.err.intStatus.getLsbD srcPwr = true) ∧
    (rowReady s who 0xB000 0x40000000 → ∃ t, exec (.offprep who) s = .next t ∧ kept s t ∧
      t.pwr = { s.pwr with failRsn := 1, seq := s.pwr.seq + 1 } ∧ t.err.intStatus.getLsbD srcPwr = true)) ∧
  ∀ (s : State) (who : Fin 8), s.up → ((∃ e, s.pwr.entry = some e ∧ e.step ≠ .armed) ∨ s.pwr.st ≠ .run) →
    (rowReady s who 0xB000 0x80000000 → ∃ t, exec (.sleep who) s = .next t ∧ kept s t ∧ t.pwr = { s.pwr with latchWrite := true }) ∧
    (rowReady s who 0xB000 0x40000000 → ∃ t, exec (.offprep who) s = .next t ∧ Ext s t)

/-- Steps E1 to E4 of entry: it begins at a boundary; E2 ends when nothing is owed, queued or locked and the engine's entries are
written, and then every open entry is marked, as are those that open later; E3 waits for the drains and issues the flush read; after it
E4 begins, or with a quarantined tag entry is abandoned with FAILRSN 3. A limit that passes abandons it with FAILRSN 2 or 4. -/
def Obligations.SleepEntrySteps : Prop :=
  (∀ (s : State) (e : EntryRun) (d : BitVec 4), s.ticks → s.qtk.syncIn = false → s.tst.busy = false → s.pwr.entry = some e → e.step = .armed →
    ∃ t, exec (.tickBoundary d) s = .next t ∧ t.pwr.st = (if e.off then .preparing else .entering) ∧
      t.pwr.entry = some { off := e.off, step := .e2, ticks := 0, flushed := false }) ∧
  (∀ (s : State) (e : EntryRun), s.up → s.pwr.entry = some e → e.step = .e2 → quietE2 s = true → entriesOut s = true → ∃ t, exec .sleepEntry s = .next t ∧ kept s t ∧
    t.pwr = { s.pwr with entry := some { e with step := .e3 } } ∧ Ext (setStep (markAll s) .e3) t ∧
    ∀ x ∈ (markAll s).wrb.entries, x.mark.isSome = true ∨ x.deferred.isSome = true) ∧
  (∀ (s : State) (e : EntryRun), s.up → s.pwr.entry = some e → e.step = .e2 →
    (s.bus.reqs ≠ [] ∨ s.bus.resps ≠ [] ∨ s.wrb.locks ≠ []) → ∃ t, exec .sleepEntry s = .next t ∧ Ext s t) ∧
  (∀ (s : State) (e : EntryRun), s.up → s.pwr.entry = some e → e.step = .e3 → (quietE2 s = false ∨ drained s = false) →
    ∃ t, exec .sleepEntry s = .next t ∧ kept s t ∧ t.pwr = s.pwr ∧ Ext (markAll s) t) ∧
  (∀ (s : State) (e : EntryRun), s.up → s.pwr.entry = some e → e.step = .e3 → quietE2 s = true → drained s = true →
    s.csp.accs = [] → slotFree s true = true → ∃ t, exec .sleepEntry s = .next t ∧ kept s t ∧
    t.pwr = { s.pwr with entry := some { e with step := .e3flush } } ∧
    s.mem.reads.map (·.owner) ++ [.flush s.wrb.nextSlot] <+: t.mem.reads.map (·.owner)) ∧
  (∀ (s : State) (e : EntryRun), s.up → s.pwr.entry = some e → e.step = .e3flush → e.flushed = true → e.off = false →
    ((∀ m ∈ s.mem.reads, m.quar = false) → ∃ t, exec .sleepEntry s = .next t ∧ kept s t ∧ t.pwr = { s.pwr with entry := some { e with step := .e4 } }) ∧
    ((∃ m ∈ s.mem.reads, m.quar = true) → ∃ t, exec .sleepEntry s = .next t ∧ kept s t ∧ t.err.intStatus.getLsbD srcPwr = true ∧
      t.pwr = { s.pwr with entry := none, st := .run, latchWake := false, failRsn := 3, seq := s.pwr.seq + 1 })) ∧
  ∀ (s : State) (e : EntryRun), s.up → s.pwr.entry = some e →
    (e.step = .e4 → ∃ t, exec (.sleepEntryTimeout .l12Limit) s = .next t ∧ kept s t ∧ t.err.intStatus.getLsbD srcPwr = true ∧
      t.pwr = { s.pwr with entry := none, st := .run, latchWake := false, failRsn := 4, seq := s.pwr.seq + 1 }) ∧
    (e.step ≠ .armed → e.step ≠ .turnOff → entryTmo s ≤ e.ticks → ∃ t, exec (.sleepEntryTimeout .entryTmo) s = .next t ∧ kept s t ∧
      t.err.intStatus.getLsbD srcPwr = true ∧
      t.pwr = { s.pwr with entry := none, st := .run, latchWake := false, failRsn := 2, seq := s.pwr.seq + 1 })

/-- Sleep, its heartbeat, and the end of Off preparation. With the link in L1.2 the part is in Sleep: the tick stops, posted writes in
flight complete, the cache store is in self-refresh. Off preparation saves the Scree list when it is unsaved, turns the link off, which
PE_PERST_N then takes down (log entry 92), and STATE reads OFFRDY with HEARTBEAT, DDR_CKE and DDR_RESET_N low; a turn-off that no
PME_TO_Ack answers is logged. -/
def Obligations.SleepAndOffReady : Prop :=
  (∀ (s : State) (e : EntryRun), s.up → s.pwr.entry = some e → e.step = .e4 → portIdle s = true → quietE2 s = true → drained s = true →
    s.pwr.latchWake = false → ∃ t, exec .linkL12Reached s = .next t ∧ t.pwr.phase = .sleep ∧ t.pwr.entry = none ∧ t.qtk.running = false ∧ t.pwr.busyBr = false ∧
      t.pwr.busyPhy = false ∧ (s.pwr.busyBr = true → t.pwr.hbBr = reg s 0xB008) ∧ t.csp.sref = (s.csp.ready || s.csp.sref) ∧ t.csp.cke = false ∧
      t.csp.ready = s.csp.ready ∧ (sleepNow s).mem.pstate = 2 ∧ t.cfg.regs = s.cfg.regs ∧ t.vlt = s.vlt ∧
      t.clk = { s.clk with lock := false, relocking := false } ∧ t.csp.ddrLock = false ∧
      (∀ c, c ∉ settleCounters → c ≠ cntRef → live t c = live s c)) ∧
  (∀ s : State, s.undef = none → s.pwr.phase = .sleep → exec .sleepHeartbeatToggle s = .next { s with pwr := { s.pwr with hb := !s.pwr.hb } }) ∧
  (∀ (s : State) (e : EntryRun), s.up → s.pwr.entry = some e → e.step = .e3flush → e.flushed = true → e.off = true →
    ∃ t, exec .sleepEntry s = .next t ∧ t.cfg.regs = s.cfg.regs ∧ t.clk = s.clk ∧
      (screeUnsaved s = false → t.vlt = s.vlt) ∧
      (s.mem.dlUp = true → .tlp .pmeTurnOff :: s.out <:+ t.out ∧ t.pwr = { s.pwr with entry := some { e with step := .turnOff } }) ∧
      (s.mem.dlUp = false → violated s t 0x0B [] ∧ t.pwr = { s.pwr with st := .offrdy, entry := none, hb := false } ∧ t.csp.cke = false ∧ t.csp.resetN = false)) ∧
  ∀ (s : State) (e : EntryRun), s.up → s.pwr.entry = some e → e.step = .turnOff →
    (exec (.pmeToAck true) s = .next { s with
      mem := if s.mem.dlUp then { (linkDown s).mem with pstate := 3 } else s.mem, pwr := { s.pwr with st := .offrdy, entry := none, hb := false }
      csp := { s.csp with cke := false, resetN := false } }) ∧
    ∃ t, exec (.pmeToAck false) s = .next t ∧ violated s t 0x0B [] ∧ kept s t ∧ t.mem.dlUp = false ∧
      (s.mem.dlUp = true → t.mem.pstate = 3) ∧
      t.pwr = { s.pwr with st := .offrdy, entry := none, hb := false } ∧ t.csp = { s.csp with cke := false, resetN := false }

/-- WAKE_REQ wakes from Sleep, is latched during entry, and has no effect in Run. The wake empties what R364 names, relocks by
trigger 2 and starts the port's wake and the L1.2 exit. -/
def Obligations.WakeBegins : Prop :=
  (∀ s : State, s.undef = none → s.pwr.phase = .sleep → ∃ t, exec .wakeReq s = .next t ∧
    t.pwr = { s.pwr with
      phase := .on, st := .waking, c0Rdy := false, fullRdy := false, latchWake := false
      wake := some { w3 := false, w4 := !s.csp.sref, w5 := false, w7 := !(reg s 0xB004).getLsbD 0, outcome := .none } } ∧
    (∀ k, k < 8 → t.wrb.arms.getD k none = none) ∧ t.icb.recent = [] ∧ (∀ d ∈ t.cch.dets, d.valid = false) ∧
    t.wrb.entries = s.wrb.entries ∧ t.cch.tags = s.cch.tags ∧ t.err.dmaHalt = s.err.dmaHalt ∧ t.eng.window = s.eng.window ∧
    t.err.scree = s.err.scree ∧ t.tst.tap = Tap.reset ∧
    t.cch.cands = [] ∧ t.csp.ready = (s.csp.ready && !s.csp.sref) ∧
    t.clk = (if s.clk.xoOk then { s.clk with lock := false, relocking := true, trigger := 2, bw := bwOf s, measBad := true } else s.clk) ∧
    (if s.mem.clkreq then violated s t 0x0A [] ∧ t.mem.clkreq = false else t.mem = s.mem) ∧ t.cfg.regs = s.cfg.regs ∧ t.vlt = s.vlt) ∧
  (∀ s : State, s.up → s.pwr.st = .entering → exec .wakeReq s = .next { s with pwr := { s.pwr with latchWake := true } }) ∧
  ∀ s : State, s.up → s.pwr.st ≠ .entering → exec .wakeReq s = .next s

/-- The wake's later steps: the relock restarts the tick, and ends only with the crystal; the L1.2 exit makes the page read due, and a
link that is not there is lost; class-0-ready needs the relock, the port and the decision; full ready ends the wake's own run, and the
state is Run once both are there. -/
def Obligations.WakeEnds : Prop :=
  (∀ (s : State) (w : Wake), s.up → s.pwr.wake = some w → w.w3 = false → s.clk.relocking = true → s.clk.xoOk = true →
    ∃ t, exec .relockComplete s = .next t ∧ t.pwr.wake.map (·.w3) = some true ∧ t.qtk.running = true ∧
    sameClocks { s with clk := { s.clk with lock := true, relocking := false, lastWin := none } } t ∧ live t cntTick = live s cntTick + 1) ∧
  (∀ (s : State) (w : Wake), s.up → s.sound → s.pwr.wake = some w → w.w5 = false → s.mem.dlUp = true →
    (∃ t, exec (.l12ExitDone true) s = .next t ∧ kept s t ∧ t.pwr = { s.pwr with wake := some { w with w5 := true } } ∧ t.mem.dlUp = true ∧
      (let z := { s with pwr := { s.pwr with wake := some { w with w5 := true } }, mem := { s.mem with pstate := 0 } }
       Ext (if w.w7 then z else pageDue (selfEpoch z) true) t)) ∧
    ∃ t, exec (.l12ExitDone false) s = .next t ∧ kept s t ∧ t.pwr = { s.pwr with wake := some { w with w5 := true } } ∧ t.mem.dlUp = false ∧
      recovers s t 3) ∧
  (∀ (s : State) (w : Wake) (us : BitVec 16), s.up → s.pwr.wake = some w → w.w3 = true → w.w4 = true → w.w7 = true → s.pwr.c0Rdy = false →
    ∃ t, exec (.class0Ready us) s = .next t ∧ kept s t ∧
      t.pwr = (if s.pwr.fullRdy then { s.pwr with c0Rdy := true, st := .run, wake := none } else { s.pwr with c0Rdy := true }) ∧
      (s.eng.eqRuns = true → ∃ l e, s.eng.events ++ l ++ [e] <+: t.eng.events ∧ e.block = 11 ∧ e.code = 2) ∧
      ∀ k, k < 12 → inReset t k = s.bus.rsnsPin.getLsbD k) ∧
  (∀ (s : State) (us : BitVec 16), s.up → s.sound → fullDue s = true → ∃ t, exec (.fullReady us) s = .next t ∧ t.vlt = s.vlt ∧ t.clk = s.clk ∧
    t.pwr = (if s.pwr.c0Rdy then { s.pwr with fullRdy := true, st := .run, wake := none } else { s.pwr with fullRdy := true }) ∧
    t.err.intStatus.getLsbD srcPwr = true ∧ (s.eng.eqRuns = true → ∃ e, s.eng.events ++ [e] <+: t.eng.events ∧ e.block = 11 ∧ e.code = 3) ∧
    (ownEpoch s = none → t.cfg.regs = s.cfg.regs ∧ t.mem.seen = s.mem.seen) ∧
    ∀ e x, ownEpoch s = some e → getRun s 4 = some x →
      (if e.failed then t.mem.seen = s.mem.seen else t.mem.seen = e.epochV ∧ reg t 0x8030 = e.epochV.extractLsb' 0 32 ∧
        reg t 0x8034 = e.epochV.extractLsb' 32 32) ∧
      (s.eng.en = true → ∃ d, s.eng.cents ++ [d] <+: t.eng.cents ∧ d.typ = 3 ∧ d.ring = 4 ∧ d.status = 0 ∧ d.cmdId = x.cmdId)) ∧
  ∀ s : State, s.up → s.pwr.wake = none → (∀ us, exec (.class0Ready us) s = .next s) ∧ ∀ us, exec (.fullReady us) s = .next s

/-- The TAP. TRST_N brings Test-Logic-Reset with IDCODE. A row is a run of TCK at whose end its instruction is in force (log entry 68).
An instruction scan shows the captured bits of R412 and applies its opcode, a pin-control one making the behaviour undefined, and the
TAP alone goes on. A data scan shows the identification of R415; the bypass register's captured 0 before the bits that entered; the
captured cells, after which the output and control cells are the bits shifted in. In Sleep the TAP is unpowered. -/
def Obligations.TapInstructions : Prop :=
  ((∀ s : State, (s.undef = none ∨ s.undef = some .r414) → tapOn s = true →
      exec .tapReset s = .next { s with tst := { s.tst with
        tap := { s.tst.tap with st := .testLogicReset, instr := .idcode, flip := false } } } ∧
      ∀ (i : TapInstr) (x : TapRun), (inForce i (tapRun s x) = true → exec (tapCommandOf i x) s = .next (tapRun s x)) ∧
        (inForce i (tapRun s x) = false → exec (tapCommandOf i x) s = .next s)) ∧
    ∀ (c : Instr) (s : State), tapCommand c = true → s.undef = none → (s.pwr.phase = .sleep ∨ s.pwr.phase = .off) → exec c s = .next s) ∧
  ((∀ (s : State) (pins : BitVec 1112) (op : BitVec 8), s.tst.tap.st = .runTestIdle →
      tckOnly s pins (irScan op) = { s with
        undef := if pinControl (tapOpcode op) then some .r414 else s.undef
        out := tdoBits (scanBits (irCapture s)) ++ s.out
        tst := { s.tst with tap := { s.tst.tap with
          ir := op, instr := tapOpcode op, flip := tapOpcode op == .pulse || tapOpcode op == .train } } }) ∧
    ([0x00, 0x01, 0x02, 0x03, 0x04, 0x05, 0x06, 0x20] : List (BitVec 8)).map tapOpcode =
      [.extest, .sample, .idcode, .highz, .clamp, .pulse, .train, .mbist] ∧
    (∀ op, op ∉ ([0x00, 0x01, 0x02, 0x03, 0x04, 0x05, 0x06, 0x20] : List (BitVec 8)) → tapOpcode op = .bypass) ∧
    ∀ s : State, tapActs s = if s.tst.tap.instr = .mbist ∧ (reg s 0xE000).getLsbD 0 = true then .bypass else s.tst.tap.instr) ∧
  (∀ (s : State) (pins : BitVec 1112), s.tst.tap.st = .runTestIdle →
    (∀ v : BitVec 32, tapActs s = .idcode → tckOnly s pins (drScan (scanBits v)) = { s with
      out := tdoBits (scanBits (0x281409AB : BitVec 32)) ++ s.out, tst := { s.tst with tap := { s.tst.tap with dr := v, flip := false } } }) ∧
    (∀ (l : List Bool) (b : Bool), tapReg (tapActs s) = .bypass → tckOnly s pins (drScan (l ++ [b])) = { s with
      out := tdoBits (false :: l) ++ s.out
      tst := { s.tst with tap := { s.tst.tap with byp := BitVec.ofBool b, flip := false } } }) ∧
    ∀ v : BitVec 1112, tapReg (tapActs s) = .boundary → tckOnly s pins (drScan (scanBits v)) = { s with
      out := tdoBits (scanBits (cellCapture s pins)) ++ s.out
      tst := { s.tst with tap := { s.tst.tap with
        cells := v, update := v &&& driveCells, flip := s.tst.tap.instr == .pulse || s.tst.tap.instr == .train } } })

/-- MBIST. A start, by register or by the TAP, is ignored while BUSY, refused with RSN 1 to 3, or begins the quiet; the run ends
with the failing targets and, of its targets, the tags undefined and the tables of bit 8 empty; watch arms are cleared, registers
and the Scree list stay. -/
def Obligations.MbistRuns : Prop :=
  (∀ (s : State) (c : Instr) (sel : BitVec 9), s.up →
    ((∃ who : Fin 8, c = .mbistStart who ∧ rowReady s who 0xE008 0x80000000 ∧ sel = (reg s 0xE004).extractLsb' 0 9) ∨
     (∃ (pins : BitVec 1112) (v : BitVec 32), c = .mbist { swings := [], pins := pins, ticks := drScan (scanBits v) } ∧
       s.tst.tap.st = .runTestIdle ∧ tapActs s = .mbist ∧ v.getLsbD 31 = true ∧ sel = v.extractLsb' 0 9)) →
    ∃ t, exec c s = .next t ∧ kept s t ∧
      (let runs : Bool := (s.eng.rings.take 4).any fun r => r.run.isSome
       { t.tst with tap := s.tst.tap } = (if s.tst.busy then s.tst else if s.cch.enabled || invRun s then { s.tst with rsn := 1 }
         else if s.eng.en || runs then { s.tst with rsn := 2 } else if sel = 0 then { s.tst with rsn := 3 }
         else { s.tst with busy := true, rsn := 0, fail := 0, tested := sel, quiescing := true })) ∧
      (∀ who, c = .mbistStart who → t.tst.tap = s.tst.tap) ∧
      (∀ x, c = .mbist x → t.tst.tap.st = .runTestIdle ∧ t.tst.tap.instr = .mbist ∧ tdoBits (scanBits (regRead0 s 0xE00C)) ++ s.out <:+ t.out)) ∧
  (∀ (s : State) (fail : BitVec 9), s.up → s.tst.busy = true → quietE2 s = true → drained s = true → ∃ t, exec (.mbistDone fail) s = .next t ∧
    t.tst = { s.tst with busy := false, quiescing := false, done := true, fail := fail &&& s.tst.tested } ∧ kept s t ∧ t.err.scree = s.err.scree ∧
    (s.tst.tested.getLsbD 0 = true → t.cch.known = 0 ∧ t.cch.epoch = s.cch.epoch + 1 ∧ (mbistEnd s fail).cch.invDone = false) ∧
    (s.tst.tested.getLsbD 0 = false → t.cch.known = s.cch.known ∧ (mbistEnd s fail).cch.tags = s.cch.tags) ∧
    (s.tst.tested.getLsbD 8 = true → (mbistEnd s fail).err.suspects = [] ∧ t.icb.recent = []) ∧
    (s.tst.tested.getLsbD 8 = false → t.icb = s.icb) ∧ Ext (mbistEnd s fail) t ∧
    ∀ k, k < 8 → (mbistEnd s fail).wrb.arms.getD k none = none) ∧
  ∀ (s : State) (fail : BitVec 9), s.up → s.tst.busy = false → exec (.mbistDone fail) s = .next s
end

