-- ==== Sys2Proof/Laws/Maps.lean ====
section
/-! SUPPORT. Canonical maps: what a read after a write gives, and that a write keeps the canonical form. -/

namespace Sys2Proof.Machine

theorem mget_minsert {α : Type} (d : Nat → α) (m : List (Nat × α)) (k : Nat) (v : α) (j : Nat) :
    mget d (minsert k v m) j = if k = j then v else mget d m j := by
  induction m with
  | nil => rfl
  | cons e m ih =>
    obtain ⟨i, w⟩ := e
    simp only [minsert]
    split
    · simp only [mget]
    · split
      · next h => subst h; simp only [mget]; split <;> rfl
      · next h1 h2 =>
        simp only [mget, ih]
        split
        · next h => subst h; rw [if_neg (Ne.symm h2)]
        · rfl

theorem mget_merase {α : Type} (d : Nat → α) (m : List (Nat × α)) (k j : Nat) :
    mget d (merase k m) j = if k = j then d j else mget d m j := by
  induction m with
  | nil => simp [merase, mget]
  | cons e m ih =>
    obtain ⟨i, w⟩ := e
    by_cases h : i = k
    · subst h
      have : merase i ((i, w) :: m) = merase i m := by simp [merase]
      rw [this, ih]; simp only [mget]; split <;> rfl
    · have : merase k ((i, w) :: m) = (i, w) :: merase k m := by simp [merase, h]
      rw [this]; simp only [mget, ih]
      split
      · next h2 => subst h2; rw [if_neg (Ne.symm h)]
      · rfl

/-- A read after a write. -/
theorem mget_mset {α : Type} [DecidableEq α] (d : Nat → α) (m : List (Nat × α)) (k : Nat) (v : α) (j : Nat) :
    mget d (mset d m k v) j = if k = j then v else mget d m j := by
  unfold mset
  split
  · next h => rw [mget_merase]; split <;> simp_all
  · exact mget_minsert d m k v j

theorem mem_minsert {α : Type} (k : Nat) (v : α) (m : List (Nat × α)) (e : Nat × α) (h : e ∈ minsert k v m) :
    e = (k, v) ∨ e ∈ m := by
  induction m with
  | nil => simpa [minsert] using h
  | cons x m ih =>
    obtain ⟨i, w⟩ := x
    simp only [minsert] at h
    split at h
    · simpa using h
    · split at h
      · rcases List.mem_cons.1 h with h | h
        · exact .inl h
        · exact .inr (List.mem_cons_of_mem _ h)
      · rcases List.mem_cons.1 h with h | h
        · exact .inr (h ▸ List.mem_cons_self ..)
        · exact (ih h).imp id (List.mem_cons_of_mem _)

theorem mwf_filter {α : Type} [DecidableEq α] (d : Nat → α) (m : List (Nat × α)) (p : Nat × α → Bool) (h : mwf d m = true) :
    mwf d (m.filter p) = true := by
  simp only [mwf, Bool.and_eq_true, decide_eq_true_eq, List.all_eq_true] at h ⊢
  exact ⟨h.1.filter _, fun e he => h.2 e (List.mem_of_mem_filter he)⟩

theorem mwf_merase {α : Type} [DecidableEq α] (d : Nat → α) (m : List (Nat × α)) (k : Nat) (h : mwf d m = true) :
    mwf d (merase k m) = true := mwf_filter d m _ h

theorem mwf_minsert {α : Type} [DecidableEq α] (d : Nat → α) (m : List (Nat × α)) (k : Nat) (v : α) (hv : v ≠ d k)
    (h : mwf d m = true) : mwf d (minsert k v m) = true := by
  simp only [mwf, Bool.and_eq_true, decide_eq_true_eq, List.all_eq_true] at h ⊢
  refine ⟨?_, fun e he => ?_⟩
  · obtain ⟨h, -⟩ := h
    induction m with
    | nil => simp [minsert]
    | cons x m ih =>
      obtain ⟨i, w⟩ := x
      have hx := List.pairwise_cons.1 h
      simp only [minsert]
      split
      · next hk => exact List.pairwise_cons.2 ⟨fun e he => by
          rcases List.mem_cons.1 he with rfl | he
          · exact hk
          · exact Nat.lt_trans hk (hx.1 e he), h⟩
      · split
        · next _ hk => subst hk; exact List.pairwise_cons.2 ⟨hx.1, hx.2⟩
        · next h1 h2 => exact List.pairwise_cons.2 ⟨fun e he => by
            rcases mem_minsert k v m e he with rfl | he
            · show i < k; omega
            · exact hx.1 e he, ih hx.2⟩
  · rcases mem_minsert k v m e he with rfl | he
    · exact hv
    · exact h.2 e he

/-- A write keeps the canonical form. -/
theorem mem_mset {α : Type} [DecidableEq α] (d : Nat → α) (m : List (Nat × α)) (k : Nat) (v : α) (e : Nat × α)
    (h : e ∈ mset d m k v) : e = (k, v) ∨ e ∈ m := by
  unfold mset at h
  split at h
  · exact .inr (List.mem_of_mem_filter h)
  · exact mem_minsert k v m e h

theorem mwf_mset {α : Type} [DecidableEq α] (d : Nat → α) (m : List (Nat × α)) (k : Nat) (v : α) (h : mwf d m = true) :
    mwf d (mset d m k v) = true := by
  unfold mset
  split
  · exact mwf_merase d m k h
  · next hv => exact mwf_minsert d m k v hv h

end Sys2Proof.Machine
end

