-- ==== Sys2Proof/Laws/Settle.lean ====
section
/-! SUPPORT. What `settle` can do, said once: `Ext a s` holds of the state `s` that waiting work may make of `a`, and every
operation of `settle` keeps it. -/

namespace Sys2Proof.Machine

theorem Ext.refl (a : State) : Ext a a :=
  ⟨rfl, rfl, List.suffix_refl _, List.prefix_refl _, List.prefix_refl _, List.prefix_refl _, List.prefix_refl _, List.prefix_refl _,
   List.prefix_refl _, List.prefix_refl _, fun _ h => h, fun _ h => h, fun h => h, fun _ _ => rfl, fun _ => rfl, fun h => h⟩

/-! ### Base updates -/

@[simp] theorem countN_ext {a s : State} {c : Nat} (n : Nat) (hc : c ∈ settleCounters) (h : Ext a s) : Ext a (countN s c n) :=
  { h with
    counts := fun c' hc' => by
      rw [← h.counts c' hc']
      show mget _ (mset _ _ _ _) _ = _
      rw [mget_mset, if_neg (by rintro rfl; exact hc' hc)]; rfl
    sound := fun ha => let ⟨⟨x, y, z, w⟩, q⟩ := h.sound ha; ⟨⟨x, y, mwf_mset _ _ _ _ z, w⟩, q⟩ }

@[simp] theorem count_ext {a s : State} {c : Nat} (hc : c ∈ settleCounters) (h : Ext a s) : Ext a (count s c) := countN_ext 1 hc h

theorem getLsbD_setBit {w : Nat} (x : BitVec w) (i j : Nat) (h : x.getLsbD j = true) : (setBit x i true).getLsbD j = true := by
  simp [setBit, h]

@[simp] theorem raiseInt_ext {a s : State} (n : Nat) (h : Ext a s) : Ext a (raiseInt s n) :=
  { h with ints := fun i hi => getLsbD_setBit _ _ _ (h.ints i hi) }

@[simp] theorem event_ext {a s : State} (b c : Nat) (p : BitVec 384) (h : Ext a s) : Ext a (event s b c p) := by
  unfold event
  split
  · exact { h with events := h.events.trans (List.prefix_append ..) }
  · exact h

@[simp] theorem emit_ext {a s : State} (o : Out) (h : Ext a s) : Ext a (emit s o) :=
  { h with out := h.out.trans (List.suffix_cons ..) }

@[simp] theorem tagPutBits_ext {a s : State} (p : Nat) (v : BitVec 40) (h : Ext a s) : Ext a (tagPutBits s p v) := by
  unfold tagPutBits
  split
  · exact { h with sound := fun ha => let ⟨⟨x, y, z, w⟩, q⟩ := h.sound ha; ⟨⟨mwf_mset _ _ _ _ x, y, z, w⟩, q⟩ }
  · exact h

theorem map_updAt {α β : Type} (l : List α) (i : Nat) (f : α → α) (g : α → β) (h : ∀ x, g (f x) = g x) :
    (updAt l i f).map g = l.map g := by
  unfold updAt
  induction l generalizing i with
  | nil => cases i <;> rfl
  | cons x l ih =>
    cases i with
    | zero => simp [h]
    | succ i => simpa using ih i

@[simp] theorem length_updAt {α : Type} (l : List α) (i : Nat) (f : α → α) : (updAt l i f).length = l.length := by
  simp [updAt]

theorem map_updIf {α β : Type} (l : List α) (p : α → Bool) (f : α → α) (g : α → β) (h : ∀ x, p x = true → g (f x) = g x) :
    (updIf l p f).map g = l.map g := by
  simp only [updIf, List.map_map]
  apply List.map_congr_left
  intro x _
  simp only [Function.comp]
  split
  · next hp => exact h x hp
  · rfl

theorem filterMap_updIf {α β : Type} (l : List α) (p : α → Bool) (f : α → α) (q : α → Bool) (g : α → β)
    (hq : ∀ x, p x = true → q (f x) = q x) (h : ∀ x, p x = true → g (f x) = g x) :
    ((updIf l p f).filter q).map g = (l.filter q).map g := by
  induction l with
  | nil => rfl
  | cons x l ih =>
    simp only [updIf, List.map_cons] at ih ⊢
    by_cases hp : p x = true
    · simp only [hp, if_true, List.filter_cons, hq x hp]
      split <;> simp [ih, h x hp]
    · simp only [Bool.not_eq_true] at hp
      simp only [hp, Bool.false_eq_true, if_false, List.filter_cons]
      split <;> simp [ih]

/-- A change of the bus alone keeps a state sound if it keeps the numbering. -/
theorem sound_bus {s : State} {x : Bus} (hn : s.numbered → ({ s with bus := x } : State).numbered) (hs : s.sound) :
    ({ s with bus := x } : State).sound := by
  obtain ⟨h1, h2, a, b, c, d, e, f, g⟩ := hs
  exact ⟨h1, h2, a, b, c, d, e, f, hn g⟩

theorem numbered_updIf {l : List Req} {n : Nat} (p : Req → Bool) (f : Req → Req) (hf : ∀ r, (f r).id = r.id)
    (h : ∀ r ∈ l, r.id < n) : ∀ r ∈ updIf l p f, r.id < n := by
  intro r hr
  obtain ⟨q, hq, rfl⟩ := List.mem_map.mp hr
  show (if p q then f q else q).id < n
  split
  · rw [hf q]; exact h q hq
  · exact h q hq

/-- The number of a request that a state holds. -/
theorem getReq_mem {s : State} {id : Nat} {r : Req} (h : getReq s id = some r) : r ∈ s.bus.reqs ∧ r.id = id :=
  ⟨List.mem_of_find?_eq_some h, by simpa using List.find?_some h⟩

/-- An update of requests that keeps what was admitted and does not answer one that is owed an answer. -/
@[simp] theorem updReq_ext {a s : State} (id : Nat) (f : Req → Req) (hk : ∀ r, admitted (f r) = admitted r)
    (ha : ∀ r, (f r).answered = r.answered) (h : Ext a s) : Ext a (updReq s id f) :=
  { h with
    owed := by
      rw [← h.owed]
      refine filterMap_updIf s.bus.reqs _ f _ _ (fun r _ => ?_) (fun r _ => hk r)
      have hw : (f r).who = r.who := show (admitted (f r)).who = (admitted r).who by rw [hk r]
      show (decide ((f r).who < 12) && !(f r).answered && !silenced s (f r).who) = (decide (r.who < 12) && !r.answered && !silenced s r.who)
      rw [hw, ha r]
    sound := fun hs => sound_bus (s := s)
      (fun n => ⟨numbered_updIf _ f (fun r => show (admitted (f r)).id = (admitted r).id by rw [hk r]) n.1, n.2⟩) (h.sound hs) }

/-- More responses wait behind those that did. -/
theorem answersOf_append (s : State) (l : List Resp) (h : BitVec 4) :
    answersOf s h <+: answersOf { s with bus := { s.bus with resps := s.bus.resps ++ l } } h := by
  show _ <+: List.filter _ (_ ++ _)
  rw [List.filter_append]
  exact List.prefix_append ..

@[simp] theorem respond_ext {a s : State} (id : Nat) (rsp : Rsp) (b : List Beat64) (cb : Option Nat) (h : Ext a s) :
    Ext a (respond s id rsp b cb) := by
  unfold respond
  split
  · exact h
  · next r hr =>
    split
    · exact h
    · split
      · exact h
      · split
        · next hs =>
          refine { h with owed := ?_, sound := fun x => sound_bus (s := s) (fun n => ⟨numbered_updIf _ _ (fun q => ?_) n.1, n.2⟩) (h.sound x) }
          rotate_left
          · split <;> rfl
          rw [← h.owed]
          refine filterMap_updIf s.bus.reqs _ _ _ _ (fun q _ => ?_) (fun q _ => ?_)
          · show (decide _ && !(if _ then _ else _ : Req).answered && !silenced s _) = _
            by_cases hq : silenced s q.who = true
            · rw [if_pos hq]
              show (_ && !true && _) = (_ && _ && !silenced s q.who)
              rw [hq]; simp
            · rw [if_neg hq]; rfl
          · by_cases hq : silenced s q.who = true
            · rw [if_pos hq]; rfl
            · rw [if_neg hq]
        · exact { h with
            resps := h.resps.trans (answersOf_append s _ _)
            sound := fun x => sound_bus (s := s) (fun n => ⟨n.1, fun q hq i hi => by
              rcases List.mem_append.mp hq with hq | hq
              · exact n.2 q hq i hi
              · obtain rfl := List.mem_singleton.mp hq
                obtain ⟨hm, he⟩ := getReq_mem hr
                obtain rfl : id = i := by simpa using hi
                rw [← he]; exact n.1 r hm⟩) (h.sound x) }

theorem ite_ext {a x y : State} {c : Prop} [Decidable c] (hx : Ext a x) (hy : Ext a y) : Ext a (if c then x else y) := by
  split <;> assumption

theorem foldl_ext {β : Type} {a s : State} (l : List β) (f : State → β → State) (hf : ∀ s b, Ext a s → Ext a (f s b)) (h : Ext a s) :
    Ext a (l.foldl f s) := by
  induction l generalizing s with
  | nil => exact h
  | cons b l ih => exact ih (hf s b h)

@[simp] theorem mem_cntHit : cntHit ∈ settleCounters := by decide
@[simp] theorem mem_cntSmiss : cntSmiss ∈ settleCounters := by decide
@[simp] theorem mem_cntMiss : cntMiss ∈ settleCounters := by decide
@[simp] theorem mem_cntSpan : cntSpan ∈ settleCounters := by decide
@[simp] theorem mem_cntMhWait : cntMhWait ∈ settleCounters := by decide
@[simp] theorem mem_cntNoAlloc : cntNoAlloc ∈ settleCounters := by decide
@[simp] theorem mem_cntPfDrop : cntPfDrop ∈ settleCounters := by decide
@[simp] theorem mem_cntSpecRef : cntSpecRef ∈ settleCounters := by decide
@[simp] theorem mem_cntFetch : cntFetch ∈ settleCounters := by decide
@[simp] theorem mem_cntPoolFail : cntPoolFail ∈ settleCounters := by decide
@[simp] theorem mem_cntDmaHalt : cntDmaHalt ∈ settleCounters := by decide
@[simp] theorem mem_cntSuspEvict : cntSuspEvict ∈ settleCounters := by decide
@[simp] theorem mem_cntBypass : cntBypass ∈ settleCounters := by decide
@[simp] theorem mem_cntMrd : cntMrd ∈ settleCounters := by decide

@[simp] theorem mem_cntC0 : cntC0 ∈ settleCounters := by decide
@[simp] theorem mem_cntDemote : cntDemote ∈ settleCounters := by decide

@[simp] theorem bucketEvent_ext {a s : State} (n : Nat) (h : Ext a s) : Ext a (bucketEvent s n) := by
  have hl : ∀ f : Bucket → Bucket, a.sound → ({ s with err := { s.err with buckets := updAt s.err.buckets n f } } : State).sound :=
    fun f ha => let ⟨x, y, z, z', w⟩ := h.sound ha; ⟨x, y, z, (length_updAt ..).trans z', w⟩
  unfold bucketEvent
  dsimp only
  split
  · exact { h with sound := hl _ }
  · exact raiseInt_ext _ (event_ext _ _ _ { h with sound := hl _ })

@[simp] theorem suspectEvent_ext {a s : State} (p w c : Nat) (h : Ext a s) : Ext a (suspectEvent s p w c) := by
  unfold suspectEvent
  extract_lets x1 x2 x3 s1
  have h2 : Ext a x2 := by
    unfold x2
    refine ite_ext h ?_
    split
    · exact count_ext mem_cntSuspEvict { h with }
    · exact h
  have h1 : Ext a s1 := by
    unfold s1
    split
    · exact { h with }
    · exact { h2 with }
  clear_value s1
  split
  · exact ite_ext { h1 with retire := h1.retire.trans (List.prefix_append ..) } h1
  · exact h1

@[simp] theorem tagPut_ext {a s : State} (pos : Nat) (t : TagEntry) (h : Ext a s) : Ext a (tagPut s pos t) := by
  unfold tagPut
  simp [h]

@[simp] theorem tagParity_ext {a s : State} (i : Nat) (b : BitVec 16) (h : Ext a s) : Ext a (tagParity s i b) := by
  unfold tagParity
  split
  · exact h
  · refine foldl_ext _ _ (fun s w h => suspectEvent_ext _ _ _ h) ?_
    exact bucketEvent_ext _ (event_ext _ _ _ { h with })

@[simp] theorem updHandler_ext {a s : State} (i : Nat) (f : Handler → Handler) (h : Ext a s) : Ext a (updHandler s i f) := by
  unfold updHandler
  exact { h with }

@[simp] theorem cancelFills_ext {a s : State} (p : Handler → Bool) (h : Ext a s) : Ext a (cancelFills s p) := by
  unfold cancelFills
  dsimp only
  split
  · exact { h with }
  · exact countN_ext _ mem_cntPfDrop { h with }

@[simp] theorem queueOn_ext {a s : State} (k : ProbeKind) (m : BitVec 8) (f : ProbeFor) (p : PortId) (h : Ext a s) :
    Ext a (queueOn s k m f p) := by
  unfold queueOn
  dsimp only
  split
  · exact h
  · exact { h with probes := h.probes.trans (List.prefix_append ..) }

@[simp] theorem queueProbe_ext {a s : State} (kind : ProbeKind) (agents : BitVec 8) (f : ProbeFor) (h : Ext a s) : Ext a (queueProbe s kind agents f) := by
  unfold queueProbe
  simp [h]

@[simp] theorem clearPres_ext {a s : State} (pos : Nat) (agents : BitVec 8) (h : Ext a s) : Ext a (clearPres s pos agents) := by
  unfold clearPres
  dsimp only
  split <;> simp [h]

@[simp] theorem invalPos_ext {a s : State} (p : Nat) (f : ProbeFor) (h : Ext a s) : Ext a (invalPos s p f) := by
  unfold invalPos
  extract_lets t s1 s2
  have h1 : Ext a s1 := by
    show Ext a (if _ then _ else _)
    split
    · exact queueProbe_ext _ _ _ h
    · exact h
  have h2 : Ext a s2 := cancelFills_ext _ h1
  clear_value s2
  split
  · exact h2
  · exact tagPutBits_ext _ _ h2

theorem updRing_ext {a s : State} (n : Nat) (f : Ring → Ring) (hf : ∀ r, ringFixed (f r) = ringFixed r) (h : Ext a s) :
    Ext a (updRing s n f) :=
  { h with
    fixed := by
      rw [← h.fixed]
      show settleFixed { s with eng := { s.eng with rings := _ } } = _
      simp only [settleFixed, map_updAt _ _ _ _ hf]
    sound := fun ha => let ⟨x, y, z, w⟩ := h.sound ha; ⟨x, y, (length_updAt ..).trans z, w⟩ }

@[simp] theorem updRun_ext {a s : State} (n : Nat) (f : Running → Running) (h : Ext a s) : Ext a (updRun s n f) :=
  updRing_ext n _ (fun _ => rfl) h

@[simp] theorem dropFiltered_ext {a s : State} (cb : Nat) (f : ProbeFor) (h : Ext a s) : Ext a (dropFiltered s cb f) := by
  unfold dropFiltered
  extract_lets ps s1
  have h1 : Ext a s1 := foldl_ext _ _ (fun s p h => invalPos_ext _ _ h) h
  clear_value s1
  split
  · exact updRun_ext _ _ h1
  · exact h1

theorem filter_map_same {α : Type} (l : List α) (f : α → α) (p : α → Bool) (h : ∀ x, p (f x) = p x) (g : ∀ x, p x = true → f x = x) :
    (l.map f).filter p = l.filter p := by
  induction l with
  | nil => rfl
  | cons x l ih =>
    simp only [List.map_cons, List.filter_cons, h x, ih]
    split
    · next hx => rw [g x hx]
    · rfl

/-- Fewer responses are looked at when another channel halts. -/
theorem answersOf_halt (s : State) (h k : BitVec 4) (hk : ∀ i, h.getLsbD i = true → k.getLsbD i = true) :
    answersOf s k = (answersOf s h).filter fun r => !(decide (8 ≤ r.who) && k.getLsbD (r.who - 8)) := by
  unfold answersOf
  rw [List.filter_filter]
  refine List.filter_congr fun r _ => ?_
  by_cases h1 : h.getLsbD (r.who - 8) = true
  · simp [h1, hk _ h1, Bool.and_comm]
  · simp only [Bool.not_eq_true] at h1
    simp [h1, Bool.and_comm]

theorem getLsbD_setBit_self {w : Nat} (x : BitVec w) (i : Nat) (h : i < w) : (setBit x i true).getLsbD i = true := by
  have : (BitVec.ofNat w (1 <<< i)).getLsbD i = true := by
    rw [BitVec.getLsbD_ofNat, Nat.one_shiftLeft, Nat.testBit_two_pow_self]; simp [h]
  simp [setBit, bit, this]

/-- The reads of a channel that halts are answered CHANNEL_HALTED. -/
theorem haltResps_ext {a s : State} {ch : Nat} (hc : isChannel ch = true) (h : Ext a s) :
    Ext a { s with bus := { s.bus with resps := s.bus.resps.map (haltResp s ch) }
                   err := { s.err with dmaHalt := setBit s.err.dmaHalt (ch - 8) true } } := by
  have hw : ∀ r : Resp, (haltResp s ch r).who = r.who := fun r => by unfold haltResp; split <;> rfl
  refine { h with halts := fun i hi => getLsbD_setBit _ _ _ (h.halts i hi), resps := ?_, sound := fun x => ?_ }
  · have hm : ∀ i, s.err.dmaHalt.getLsbD i = true → (setBit s.err.dmaHalt (ch - 8) true).getLsbD i = true := fun i hi => getLsbD_setBit _ _ _ hi
    show answersOf a (setBit s.err.dmaHalt (ch - 8) true) <+: List.filter (fun r => portEn s (portOf r.who) && _) (List.map _ _)
    rw [answersOf_halt a _ _ hm, filter_map_same]
    · refine (h.resps.filter _).trans ?_
      rw [← answersOf_halt s _ _ hm]; exact List.prefix_refl _
    · intro r; rw [hw r]
    · intro r hr
      have hn : r.who ≠ ch := by
        rintro rfl
        unfold isChannel at hc
        rw [decide_eq_true_eq] at hc
        rw [getLsbD_setBit_self _ _ (by omega)] at hr
        simp [hc.1] at hr
      simp [haltResp, hn]
  · refine sound_bus (s := { s with err := { s.err with dmaHalt := setBit s.err.dmaHalt (ch - 8) true } })
      (fun n => ⟨n.1, fun q hq i hi => ?_⟩) (h.sound x)
    obtain ⟨r, hr, rfl⟩ := List.mem_map.mp hq
    refine n.2 r hr i ?_
    rw [← hi]; unfold haltResp; split <;> rfl

@[simp] theorem haltDma_ext {a s : State} (ch p c : Nat) (h : Ext a s) : Ext a (haltDma s ch p c) := by
  unfold haltDma
  dsimp only
  split
  · exact h
  · next hc =>
    refine foldl_ext _ _ (fun s r h => ?_) (raiseInt_ext _ (event_ext _ _ _ (count_ext mem_cntDmaHalt
      (haltResps_ext (by simp at hc; exact hc.1) h))))
    split <;> try split
    all_goals first
      | exact h
      | exact respond_ext _ _ _ _ h
      | exact updReq_ext _ _ (fun _ => rfl) (fun _ => rfl) (respond_ext _ _ _ _ h)

@[simp] theorem putArm_ext {a s : State} (w : Nat) (x : Arm) (h : Ext a s) : Ext a (putArm s w x) :=
  { h with sound := fun ha => let ⟨x, y, z, z', t, w⟩ := h.sound ha; ⟨x, y, z, z', (length_updAt ..).trans t, w⟩ }

@[simp] theorem armWatch_ext {a s : State} (r : Req) (h : Ext a s) : Ext a (armWatch s r) := by
  unfold armWatch
  split
  · exact putArm_ext _ _ h
  · exact h

@[simp] theorem armHit_ext {a s : State} (r : Req) (h : Ext a s) : Ext a (armHit s r) := by
  unfold armHit
  split
  · exact updReq_ext _ _ (fun _ => rfl) (fun _ => rfl) (putArm_ext _ _ h)
  · exact h

/-- A change of every request that keeps what was admitted, and whether it is answered. -/
theorem mapReqs_ext {a s : State} (f : Req → Req) (hk : ∀ r, admitted (f r) = admitted r) (ha : ∀ r, (f r).answered = r.answered)
    (h : Ext a s) : Ext a { s with bus := { s.bus with reqs := s.bus.reqs.map f } } := by
  have e : s.bus.reqs.map f = updIf s.bus.reqs (fun _ => true) f := by simp [updIf]
  rw [e]
  exact { h with
    owed := by
      rw [← h.owed]
      refine filterMap_updIf s.bus.reqs _ f _ _ (fun r _ => ?_) (fun r _ => hk r)
      have hw : (f r).who = r.who := show (admitted (f r)).who = (admitted r).who by rw [hk r]
      show (decide ((f r).who < 12) && !(f r).answered && !silenced s (f r).who) = (decide (r.who < 12) && !r.answered && !silenced s r.who)
      rw [hw, ha r]
    sound := fun hs => sound_bus (s := s)
      (fun n => ⟨numbered_updIf _ f (fun r => show (admitted (f r)).id = (admitted r).id by rw [hk r]) n.1, n.2⟩) (h.sound hs) }

@[simp] theorem disarm_ext {a s : State} (r : Req) (h : Ext a s) : Ext a (disarm s r) := by
  unfold disarm
  split
  · exact h
  · extract_lets s1 mine
    have h1 : Ext a s1 := ite_ext (putArm_ext _ _ h) h
    exact mapReqs_ext _ (fun _ => rfl) (fun _ => rfl) h1

@[simp] theorem failReq_ext {a s : State} (r : Req) (x : Sector) (c : Nat) (h : Ext a s) : Ext a (failReq s r x c) := by
  unfold failReq
  extract_lets said s1 beats s2
  have h1 : Ext a s1 := updReq_ext _ _ (fun _ => rfl) (fun _ => rfl) (disarm_ext _ h)
  have h2 : Ext a s2 := count_ext mem_cntPoolFail h1
  clear_value s1 s2
  split
  · exact h1
  · split
    · exact respond_ext _ _ _ _ h2
    · split
      · exact haltDma_ext _ _ _ (respond_ext _ _ _ _ h2)
      · exact respond_ext _ _ _ _ h2

@[simp] theorem sendTlp_ext {a s : State} (t : Tlp) (h : Ext a s) : Ext a (sendTlp s t) := by
  unfold sendTlp
  split
  · exact emit_ext _ { h with }
  · exact h

@[simp] theorem captureWseq_ext {a s : State} (o : ReadOwner) (h : Ext a s) : Ext a (captureWseq s o) := by
  unfold captureWseq
  repeat' split
  all_goals first | exact h | exact { h with }

@[simp] theorem sendRead_ext {a s : State} (m : MRead) (t : Nat) (h : Ext a s) : Ext a (sendRead s m t) := by
  unfold sendRead
  refine sendTlp_ext _ (captureWseq_ext _ (countN_ext _ mem_cntMrd { h with reads := ?_ }))
  show _ <+: (updIf _ _ _).map _
  rw [map_updIf]
  · exact h.reads
  · intros; rfl

@[simp] theorem sendReads_ext {a s : State} (n : Nat) (h : Ext a s) : Ext a (sendReads n s) := by
  induction n generalizing s with
  | zero => exact h
  | succ n ih =>
    unfold sendReads
    split
    · exact h
    · split
      · exact h
      · exact ih (sendRead_ext _ _ { h with })

@[simp] theorem askRead_ext {a s : State} (o : ReadOwner) (ad b c : Nat) (h : Ext a s) : Ext a (askRead s o ad b c) := by
  unfold askRead
  refine sendReads_ext _ { h with reads := h.reads.trans ?_ }
  show _ <+: List.map _ (_ ++ _)
  rw [List.map_append]
  exact List.prefix_append ..

@[simp] theorem askBlock_ext {a s : State} (o : Bool → ReadOwner) (cb : Nat) (cls : Nat) (h : Ext a s) : Ext a (askBlock s o cb cls) := by
  unfold askBlock
  simp [h]

@[simp] theorem pumpCfg_ext {a s : State} (h : Ext a s) : Ext a (pumpCfg s) := by
  unfold pumpCfg
  split
  · exact ite_ext (sendTlp_ext _ { h with }) h
  · exact h

@[simp] theorem addAcc_ext {a s : State} (k : AccKind) (p : Nat) (l : List Nat) (d : Block) (m : BlockMask) (c : Bool) (n : Nat)
    (h : Ext a s) : Ext a (addAcc s k p l d m c n) :=
  { h with accs := h.accs.trans (List.prefix_append ..) }

@[simp] theorem addRuns_ext {a s : State} (k : AccKind) (p : Nat) (l : List Nat) (d : Block) (m : BlockMask) (c : Bool) (n : Nat)
    (h : Ext a s) : Ext a (addRuns s k p l d m c n) := by
  unfold addRuns
  exact foldl_ext _ _ (fun s l h => addAcc_ext _ _ _ _ _ _ _ h) h

@[simp] theorem storeHit_ext {a s : State} (pos : Nat) (data : Block) (mask : BlockMask) (counted : Bool) (cls : Nat) (h : Ext a s) : Ext a (storeHit s pos data mask counted cls) :=
  addRuns_ext _ _ _ _ _ _ _ h

@[simp] theorem ageRounds_ext {a s : State} (i : Nat) (e : List Nat) (n : Nat) (h : Ext a s) : Ext a (ageRounds s i e n).1 := by
  induction n generalizing s with
  | zero => exact h
  | succ n ih =>
    unfold ageRounds
    split
    · exact h
    · exact ih (foldl_ext _ _ (fun s w h => tagPut_ext _ _ h) h)

@[simp] theorem victim_ext {a s : State} (i : Nat) (p : Bool) (m : Option (BitVec 16)) (h : Ext a s) : Ext a (victim s i p m).1 := by
  unfold victim
  dsimp only
  split
  · exact h
  · split
    · exact h
    · exact ageRounds_ext _ _ _ h

@[simp] theorem addHandler_ext {a s : State} (x : Handler) (h : Ext a s) : Ext a (addHandler s x) := { h with }

@[simp] theorem readFor_ext {a s : State} (x : Handler) (h : Ext a s) : Ext a (readFor s x) :=
  ite_ext (addHandler_ext _ h) (askBlock_ext _ _ _ (addHandler_ext _ h))

@[simp] theorem pumpFills_ext {a s : State} (h : Ext a s) : Ext a (pumpFills s) := by
  unfold pumpFills
  exact foldl_ext _ _ (fun s x h => askBlock_ext _ _ _ (updHandler_ext _ _ h)) h

theorem fillStart_ext {a s : State} (x : Handler) (m : Option (BitVec 16)) (h : Ext a s) (t : State)
    (ht : fillStart s x m = some t) : Ext a t := by
  unfold fillStart at ht
  dsimp only at ht
  split at ht
  · cases ht
  · next s' w hv =>
    have h' : Ext a s' := by
      rw [← show (_ : State × Option Nat).1 = s' from congrArg Prod.fst hv]
      exact victim_ext _ _ _ h
    cases ht
    refine readFor_ext _ (tagPut_ext _ _ ?_)
    split
    · exact queueProbe_ext _ _ _ h'
    · exact h'

@[simp] theorem trainOn_ext {a s : State} (r : Req) (h : Ext a s) : Ext a (trainOn s r) := by
  unfold trainOn
  dsimp only
  split
  · exact { h with sound := fun ha => let ⟨x, y, z, z', t, t', w⟩ := h.sound ha; ⟨x, y, z, z', t, (length_updAt ..).trans t', w⟩ }
  · exact h

@[simp] theorem firstLook_ext {a s : State} (r : Req) (c : Nat) (hc : c ∈ settleCounters) (h : Ext a s) : Ext a (firstLook s r c) :=
  updReq_ext _ _ (fun _ => rfl) (fun _ => rfl) (ite_ext h (trainOn_ext _ (count_ext hc h)))

@[simp] theorem markLooked_ext {a s : State} (i : Nat) (h : Ext a s) : Ext a (markLooked s i) :=
  updReq_ext _ _ (fun _ => rfl) (fun _ => rfl) h

@[simp] theorem specRefuse_ext {a s : State} (r : Req) (h : Ext a s) : Ext a (specRefuse s r) :=
  respond_ext _ _ _ _ (updReq_ext _ _ (fun _ => rfl) (fun _ => rfl) (count_ext mem_cntSpecRef h))

@[simp] theorem due2_ext {a s : State} (k : Rank2) (h : Ext a s) : Ext a (due2 s k) := { h with }

@[simp] theorem dropEntry_ext {a s : State} (p c : Nat) (h : Ext a s) : Ext a (dropEntry s p c) :=
  ite_ext (ite_ext (invalPos_ext _ _ h) (due2_ext _ { h with })) h

theorem withHandler_ext {a s : State} (r : Req) (o : Option Nat) (go : State → Nat → State)
    (hg : ∀ s i, Ext a s → Ext a (go s i)) (h : Ext a s) : Ext a (withHandler s r o go) := by
  have hu : ∀ (s : State) (i : Nat) (f : Req → Req), (∀ r, admitted (f r) = admitted r) → (∀ r, (f r).answered = r.answered) →
      Ext a s → Ext a (updReq s i f) := fun s i f hk ha h => updReq_ext i f hk ha h
  unfold withHandler
  refine ite_ext (specRefuse_ext _ h) (ite_ext (hu _ _ _ (fun _ => rfl) (fun _ => rfl) h) ?_)
  split
  · exact hg _ _ (hu _ _ _ (fun _ => rfl) (fun _ => rfl) h)
  · exact hu _ _ _ (fun _ => rfl) (fun _ => rfl) (ite_ext h (count_ext mem_cntMhWait h))

@[simp] theorem poolDownRead_ext {a s : State} (r : Req) (h : Ext a s) : Ext a (poolDownRead s r) := by
  unfold poolDownRead
  exact failReq_ext _ _ _ h

@[simp] theorem readUncached_ext {a s : State} (r : Req) (o : Option Nat) (h : Ext a s) : Ext a (readUncached s r o) := by
  unfold readUncached
  refine withHandler_ext _ _ _ (fun s i h => ?_) h
  split
  · exact poolDownRead_ext _ h
  · exact readFor_ext _ h

@[simp] theorem joinFill_ext {a s : State} (r : Req) (x : Handler) (h : Ext a s) : Ext a (joinFill s r x) := by
  unfold joinFill
  dsimp only
  split
  · exact specRefuse_ext _ h
  · split
    · exact updReq_ext _ _ (fun _ => rfl) (fun _ => rfl) h
    · exact updReq_ext _ _ (fun _ => rfl) (fun _ => rfl) (updHandler_ext _ _ h)

@[simp] theorem readNormal_ext {a s : State} (r : Req) (o : Option Nat) (h : Ext a s) : Ext a (readNormal s r o) := by
  unfold readNormal
  dsimp only
  refine ite_ext (readUncached_ext _ _ (markLooked_ext _ (ite_ext (count_ext mem_cntSpan h) h))) (ite_ext h ?_)
  have h1 : ∀ c, c ∈ settleCounters → Ext a (firstLook s r c) := fun c hc => firstLook_ext r c hc h
  split
  · exact tagParity_ext _ _ (h1 _ mem_cntMiss)
  · exact ite_ext h (ite_ext (specRefuse_ext _ (h1 _ mem_cntMiss)) (readUncached_ext _ _ (dropFiltered_ext _ _ (h1 _ mem_cntMiss))))
  · exact ite_ext h (ite_ext (readUncached_ext _ _ (markLooked_ext _ h)) (ite_ext h (armHit_ext _
      (updReq_ext _ _ (fun _ => rfl) (fun _ => rfl) (addAcc_ext _ _ _ _ _ _ _ (tagPut_ext _ _ (h1 _ mem_cntHit)))))))
  · split
    · exact joinFill_ext _ _ (h1 _ mem_cntSmiss)
    · exact ite_ext (h1 _ mem_cntSmiss) (withHandler_ext _ _ _ (fun s i h => ite_ext (dropEntry_ext _ _ (poolDownRead_ext _ h)) (readFor_ext _ h))
        (h1 _ mem_cntSmiss))
  · split
    · exact joinFill_ext _ _ (h1 _ mem_cntMiss)
    · refine ite_ext (h1 _ mem_cntMiss) (withHandler_ext _ _ _ (fun s i h => ite_ext (poolDownRead_ext _ h) ?_) (h1 _ mem_cntMiss))
      split
      · next hf => exact fillStart_ext _ _ h _ hf
      · exact readFor_ext _ (count_ext mem_cntNoAlloc h)

theorem disableCache_ext {a s : State} (hp : a.cfg.parBad ≠ []) (h : Ext a s) : Ext a (disableCache s) := by
  unfold disableCache
  split
  · exact cancelFills_ext _ { h with enab := fun e => absurd e hp }
  · exact h

theorem bypassCause_ext {a s : State} (c o : Nat) (hp : a.cfg.parBad ≠ []) (h : Ext a s) : Ext a (bypassCause s c o) := by
  unfold bypassCause
  extract_lets s1 x1 x2 s2 s3
  have h2 : Ext a s2 := by
    show Ext a (if _ then _ else _)
    split
    · exact h
    · have h1 : Ext a s1 := disableCache_ext hp h
      exact { h1 with bypass := fun _ => rfl }
  have h3 : Ext a s3 := raiseInt_ext _ (event_ext _ _ _ (count_ext mem_cntBypass h2))
  exact { h3 with }

@[simp] theorem useReg_ext {a s : State} (o : Nat) (h : Ext a s) : Ext a (useReg s o) := by
  unfold useReg
  split
  · next hc =>
    refine bypassCause_ext _ _ (fun e => ?_) { h with }
    have : s.cfg.parBad = a.cfg.parBad := congrArg (fun x => x.cfg.parBad) h.fixed
    simp [this, e] at hc
  · exact h

@[simp] theorem updEntry_ext {a s : State} (id : Nat) (f : Entry → Entry) (h : Ext a s) : Ext a (updEntry s id f) := by
  unfold updEntry
  exact { h with }

@[simp] theorem markEntry_ext {a s : State} (id : Nat) (r : DrainRank) (h : Ext a s) : Ext a (markEntry s id r) := by
  unfold markEntry
  exact { h with }

@[simp] theorem markIfFull_ext {a s : State} (id : Nat) (h : Ext a s) : Ext a (markIfFull s id) := by
  unfold markIfFull
  dsimp only
  repeat' split
  all_goals first | exact h | exact { h with }

@[simp] theorem endFetch_ext {a s : State} (id : Nat) (h : Ext a s) : Ext a (endFetch s id) := by
  unfold endFetch
  exact { h with }

@[simp] theorem pressure_ext {a s : State} (n : Nat) (h : Ext a s) : Ext a (pressure n s) := by
  induction n generalizing s with
  | zero => exact h
  | succ n ih =>
    unfold pressure
    dsimp only
    split
    · split
      · exact ih (markEntry_ext _ _ h)
      · exact h
    · exact h

@[simp] theorem allocEntry_ext {a s : State} (nt : Bool) (cb : Nat) (str : BitVec 3) (cls : Nat) (cacheable : Bool) (h : Ext a s) : Ext a (allocEntry s nt cb str cls cacheable).1 := by
  unfold allocEntry
  split
  · exact h
  · exact { h with }

@[simp] theorem mergeInto_ext {a s : State} (id : Nat) (data : Block) (mask : BlockMask) (who : Nat) (poison : Bool) (h : Ext a s) : Ext a (mergeInto s id data mask who poison) := by
  unfold mergeInto
  simp [h]

@[simp] theorem fillInvalid_ext {a s : State} (id : Nat) (data : Block) (mask : BlockMask) (h : Ext a s) : Ext a (fillInvalid s id data mask) := by
  unfold fillInvalid
  simp [h]

@[simp] theorem entryFor_ext {a s : State} (r : Req) (h : Ext a s) : Ext a (entryFor s r).1 := by
  unfold entryFor
  simp [h]

@[simp] theorem updSlot_ext {a s : State} (id : Nat) (f : Slot → Slot) (h : Ext a s) : Ext a (updSlot s id f) := by
  unfold updSlot
  exact { h with }

@[simp] theorem startCompletion_ext {a s : State} (t : Slot) (h : Ext a s) : Ext a (startCompletion s t) := by
  unfold startCompletion
  split <;> simp [h]

@[simp] theorem pumpSlots_ext {a s : State} (h : Ext a s) : Ext a (pumpSlots s) := by
  unfold pumpSlots
  refine foldl_ext _ _ (fun s t h => ?_) h
  split
  · split
    · exact startCompletion_ext _ h
    · exact h
  · exact h

@[simp] theorem durRecord_ext {a s : State} (w : Nat) (h : Ext a s) : Ext a (durRecord s w).1 := by
  unfold durRecord
  exact foldl_ext _ _ (fun s i h => markEntry_ext _ _ h) h

@[simp] theorem wakeWatches_ext {a s : State} (cb : Nat) (h : Ext a s) : Ext a (wakeWatches s cb) := by
  unfold wakeWatches
  exact foldl_ext _ _ (fun s r h => respond_ext _ _ _ _ (updReq_ext _ _ (fun _ => rfl) (fun _ => rfl) h))
    (mapReqs_ext _ (fun _ => rfl) (fun _ => rfl) (s := { s with wrb := _ }) { h with })

@[simp] theorem writeThrough_ext {a s : State} (r : Req) (d : Block) (m : BlockMask) (all p : Bool) (h : Ext a s) :
    Ext a (writeThrough s r d m all p) := by
  unfold writeThrough
  extract_lets cb f s1
  have h1 : Ext a s1 := by
    unfold s1
    split
    · exact queueProbe_ext _ _ _ h
    · exact dropFiltered_ext _ _ h
    · exact ite_ext (invalPos_ext _ _ h) (storeHit_ext _ _ _ _ _ (clearPres_ext _ _ (queueProbe_ext _ _ _ h)))
    · exact tagParity_ext _ _ h
    · exact h
  clear_value s1
  exact wakeWatches_ext _ (mergeInto_ext _ _ _ _ _ (entryFor_ext _ h1))

@[simp] theorem useWord_ext {a s : State} (off : Nat) (h : Ext a s) : Ext a (useWord s off) := by
  unfold useWord
  split <;> simp [h]

@[simp] theorem beatUse_ext {a s : State} (off : Nat) (h : Ext a s) : Ext a (beatUse s off) := by
  unfold beatUse
  simp [h]

@[simp] theorem queueEntry_ext {a s : State} (e : CEntry) (h : Ext a s) : Ext a (queueEntry s e) := by
  unfold queueEntry
  split
  · split
    · exact h
    · exact { h with }
  · exact { h with cents := h.cents.trans (List.prefix_append ..) }

@[simp] theorem dropStale_ext {a s : State} (n : Nat) (x : Running) (h : Ext a s) : Ext a (dropStale s n x) :=
  ite_ext { h with } h

@[simp] theorem finishRun_ext {a s : State} (n : Nat) (x : Running) (st : Nat) (h : Ext a s) : Ext a (finishRun s n x st) := by
  unfold finishRun
  extract_lets e s1 s2
  have h1 : Ext a s1 := queueEntry_ext _ h
  have h2 : Ext a s2 := ite_ext (updRing_ext _ _ (fun _ => rfl) h1) (updRun_ext _ _ h1)
  clear_value s2
  split
  · exact ite_ext { h2 with } h2
  · exact h2

@[simp] theorem unitDone_ext {a s : State} (n : Nat) (h : Ext a s) : Ext a (unitDone s n) := by
  unfold unitDone
  exact updRun_ext _ _ h

@[simp] theorem openWindow_ext {a s : State} (x : Running) (h : Ext a s) : Ext a (openWindow s x) := by
  unfold openWindow
  repeat' split
  all_goals exact { h with }

@[simp] theorem admitClass_ext {a s : State} (c : Nat) (h : Ext a s) : Ext a (admitClass s c).1 := by
  unfold admitClass
  split
  · exact h
  · split
    · exact count_ext mem_cntC0 { h with }
    · exact count_ext mem_cntDemote h

@[simp] theorem admitUnit_ext {a s : State} (n u : Nat) (r : Reg32) (h : Ext a s) : Ext a (admitUnit s n u r).1 := by
  unfold admitUnit
  split
  · exact h
  · split
    · exact h
    · split
      · exact h
      · exact updRun_ext _ _ (admitClass_ext _ h)

@[simp] theorem startCommand_ext {a s : State} (n : Nat) (d : BitVec 512) (h : Ext a s) : Ext a (startCommand s n d) := by
  unfold startCommand
  split
  extract_lets x s1 s2 s3
  have h1 : Ext a s1 := updRing_ext _ _ (fun _ => rfl) h
  have h2 : Ext a s2 := ite_ext (admitClass_ext _ h1) h1
  have h3 : Ext a s3 := ite_ext (openWindow_ext _ h2) h2
  clear_value s2 s3
  exact ite_ext (finishRun_ext _ _ _ h2) (ite_ext { h3 with } h3)

@[simp] theorem startHeld_ext {a s : State} (n : Nat) (h : Ext a s) : Ext a (startHeld s n) := by
  unfold startHeld
  dsimp only
  repeat' split
  all_goals simp [h]

@[simp] theorem unitWait_ext {a s : State} (n u : Nat) (r : Reg32) (cb : Nat) (b c : Bool) (h : Ext a s) : Ext a (unitWait s n u r cb b c) :=
  updRun_ext _ _ (ite_ext (count_ext mem_cntMhWait h) h)

/-- What a unit does with a handler, or its wait for one. -/
theorem withUnit_ext {a s : State} {n u : Nat} {r : Reg32} {cb : Nat} {b c : Bool} {o : Option Nat} {go : State → Nat → State} {t : State}
    (ht : withUnit s n u r cb b c o go = some t) (hg : ∀ s i, Ext a s → Ext a (go s i)) (h : Ext a s) : Ext a t := by
  unfold withUnit at ht
  split at ht
  · cases ht; exact hg _ _ h
  · split at ht
    · cases ht
    · split at ht <;> cases ht
      · exact hg _ _ h
      · exact unitWait_ext _ _ _ _ _ _ h

@[simp] theorem unitRead_ext {a s : State} (n u cb : Nat) (str : BitVec 3) (cls : Nat) (b : Bool) (i : Nat) (h : Ext a s) :
    Ext a (unitRead s n u cb str cls b i) :=
  ite_ext (addHandler_ext _ h) (readFor_ext _ h)

@[simp] theorem rewriteFed_ext {a s : State} (e : Entry) (b : Block) (bad : Bool) (h : Ext a s) : Ext a (rewriteFed s e b bad) :=
  markEntry_ext _ _ (endFetch_ext _ (ite_ext (updEntry_ext _ _ (fillInvalid_ext _ _ _ h)) (fillInvalid_ext _ _ _ h)))

@[simp] theorem rewriteRead_ext {a s : State} (e : Entry) (n u : Nat) (o : Option Nat) (h : Ext a s) : Ext a (rewriteRead s e n u o) := by
  unfold rewriteRead
  split
  · exact h
  · generalize hw : withUnit s n u 0 e.cb (e.rcls == 0) false o _ = w
    cases w with
    | none => exact h
    | some t => exact withUnit_ext hw (fun s i h => unitRead_ext _ _ _ _ _ _ _ h) h

@[simp] theorem feedRewrite_ext {a s : State} (e : Entry) (o : Option Nat) (h : Ext a s) : Ext a (feedRewrite s e o) := by
  have hr : ∀ n u, Ext a (rewriteRead s e n u o) := fun n u => rewriteRead_ext _ _ _ _ h
  unfold feedRewrite
  split
  · exact h
  refine ite_ext h (ite_ext (rewriteFed_ext _ _ _ h) (ite_ext (hr _ _) (ite_ext h ?_)))
  generalize lookup s e.cb 0xFF = l
  cases l with
  | parErr bad => exact tagParity_ext _ _ h
  | filtered => exact ite_ext (rewriteRead_ext _ _ _ _ (dropFiltered_ext _ _ h)) h
  | hit w => exact ite_ext h (ite_ext (hr _ _) (ite_ext (addAcc_ext _ _ _ _ _ _ _ h) h))
  | smiss w => exact hr _ _
  | miss => exact hr _ _

@[simp] theorem convertDone_ext {a s : State} (cb : Nat) (h : Ext a s) : Ext a (convertDone s cb) := by
  unfold convertDone
  split
  · exact h
  · next w _ =>
    extract_lets o cs
    have h1 : Ext a { s with eng := { s.eng with window := some { w with busy := w.busy.filter (· != cb), converted := cs } } } :=
      { h with }
    refine ite_ext h ?_
    split
    · exact unitDone_ext _ h1
    · exact h1

@[simp] theorem finalWritten_ext {a s : State} (n : Nat) (h : Ext a s) : Ext a (finalWritten s n) := by
  unfold finalWritten
  split
  · exact h
  · exact updRing_ext _ _ (fun r => by split <;> rfl) (dropStale_ext _ _ h)

@[simp] theorem entryWritten_ext {a s : State} (w : EngWrite) (h : Ext a s) : Ext a (entryWritten s w) := by
  unfold entryWritten
  extract_lets s1 s2 s3
  have h1 : Ext a s1 := ite_ext (raiseInt_ext _ h) h
  have h2 : Ext a s2 := ite_ext (raiseInt_ext _ h1) h1
  have h3 : Ext a s3 := ite_ext (updRing_ext _ _ (fun _ => rfl) h2) h2
  exact ite_ext (finalWritten_ext _ h3) h3

@[simp] theorem entriesWritten_ext {a s : State} (h : Ext a s) : Ext a (entriesWritten s) := by
  unfold entriesWritten
  exact foldl_ext _ _ (fun s w h => entryWritten_ext _ h) { h with }

@[simp] theorem endRun_ext {a s : State} (n : Nat) (h : Ext a s) : Ext a (endRun s n) := by
  unfold endRun
  repeat' split
  all_goals simp [h]

@[simp] theorem updEpoch_ext {a s : State} (f : Epoch → Epoch) (h : Ext a s) : Ext a (updEpoch s f) := { h with }

@[simp] theorem pageRead_ext {a s : State} (n i : Nat) (c : Bool) (k : Nat) (h : Ext a s) : Ext a (pageRead s n i c k) :=
  askRead_ext _ _ _ _ (addHandler_ext _ h)

@[simp] theorem pumpPages_ext {a s : State} (k : Nat) (h : Ext a s) : Ext a (pumpPages k s) := by
  induction k generalizing s with
  | zero => exact h
  | succ k ih =>
    unfold pumpPages
    split
    · exact h
    · next e _ =>
      extract_lets stopped
      refine ite_ext h (ite_ext (updEpoch_ext _ h) ?_)
      have h1 := admitUnit_ext e.ring e.asked 0 h
      split
      next s' c hs =>
      rw [hs] at h1
      split
      · next hw => exact ih (updEpoch_ext _ (withUnit_ext hw (fun s i h => pageRead_ext _ _ _ _ h) h1))
      · exact h

@[simp] theorem engineSettle_ext {a s : State} (h : Ext a s) : Ext a (engineSettle s) := by
  unfold engineSettle
  refine foldl_ext _ _ (fun s n h => startHeld_ext _ h) (foldl_ext _ _ (fun s n h => endRun_ext _ h)
    (foldl_ext _ _ (fun s cb h => convertDone_ext _ h) (pumpPages_ext _ (foldl_ext _ _ (fun s e h => ?_) (entriesWritten_ext h)))))
  split
  · exact feedRewrite_ext _ _ h
  · exact h

@[simp] theorem durAdvance_ext {a s : State} (i : Nat) (h : Ext a s) : Ext a (durAdvance s i) := by
  unfold durAdvance
  split
  · exact h
  · refine updReq_ext _ _ (fun _ => rfl) (fun _ => rfl) (ite_ext ?_ h)
    exact updReq_ext _ _ (fun _ => rfl) (fun _ => rfl) (durRecord_ext _ h)

@[simp] theorem readDevice_ext {a s : State} (r : Req) (o : Option Nat) (h : Ext a s) : Ext a (readDevice s r o) := by
  unfold readDevice
  exact withHandler_ext _ _ _ (fun s i h => ite_ext (failReq_ext _ _ _ h) (askRead_ext _ _ _ _ (addHandler_ext _ h))) h

@[simp] theorem readRegister_ext {a s : State} (r : Req) (o : Nat) (h : Ext a s) : Ext a (readRegister s r o) :=
  updReq_ext _ _ (fun _ => rfl) (fun _ => rfl) (respond_ext _ _ _ _ (beatUse_ext _ h))

@[simp] theorem fetchOver_ext {a s : State} (r : Req) (e : Entry) (h : Ext a s) : Ext a (fetchOver s r e) := by
  unfold fetchOver
  dsimp only
  split
  · exact { h with }
  · exact h

@[simp] theorem setLock_ext {a s : State} (r : Req) (h : Ext a s) : Ext a (setLock s r) := by
  unfold setLock
  exact { h with }

@[simp] theorem performFetch_ext {a s : State} (r : Req) (e : Entry) (h : Ext a s) : Ext a (performFetch s r e) := by
  unfold performFetch
  split
  · exact h
  split
  · exact tagParity_ext _ _ h
  extract_lets bad old s1 s2 s3 s4
  have h1 : Ext a s1 := by
    refine ite_ext h ?_
    split
    · exact writeThrough_ext _ _ _ _ _ h
    · exact ite_ext (writeThrough_ext _ _ _ _ _ h) h
  have h2 : Ext a s2 := fetchOver_ext _ _ h1
  have h3 : Ext a s3 := ite_ext h2 (setLock_ext _ h2)
  have h4 : Ext a s4 := updReq_ext _ _ (fun _ => rfl) (fun _ => rfl) h3
  exact ite_ext (respond_ext _ _ _ _ (count_ext mem_cntPoolFail h4)) (ite_ext (respond_ext _ _ _ _ h4)
    (armWatch_ext _ (respond_ext _ _ _ _ h4)))

@[simp] theorem fetchEnd_ext {a s : State} (i : Nat) (b : Block) (m : BlockMask) (f : Nat) (h : Ext a s) :
    Ext a (fetchEnd s i b m f) := by
  unfold fetchEnd
  split
  · exact h
  · split
    · exact h
    · exact updReq_ext _ _ (fun _ => rfl) (fun _ => rfl) (ite_ext (fillInvalid_ext _ _ _ h) h)

@[simp] theorem fetchEntry_ext {a s : State} (r : Req) (h : Ext a s) : Ext a (fetchEntry s r) := by
  unfold fetchEntry
  exact updReq_ext _ _ (fun _ => rfl) (fun _ => rfl) (updEntry_ext _ _ (entryFor_ext _ (ite_ext h (count_ext mem_cntFetch h))))

@[simp] theorem fetchPool_ext {a s : State} (r : Req) (o : Option Nat) (h : Ext a s) : Ext a (fetchPool s r o) := by
  unfold fetchPool
  refine withHandler_ext _ _ _ (fun s i h => ?_) h
  have h1 : Ext a (updReq (fetchEntry s r) r.id fun r => { r with phase := .fetching }) :=
    updReq_ext _ _ (fun _ => rfl) (fun _ => rfl) (fetchEntry_ext _ h)
  exact ite_ext (fetchEnd_ext _ _ _ _ h1) (readFor_ext _ h1)

@[simp] theorem fetchPass_ext {a s : State} (r : Req) (o : Option Nat) (h : Ext a s) : Ext a (fetchPass s r o) := by
  have hp : Ext a (fetchPool s r o) := fetchPool_ext _ _ h
  unfold fetchPass
  extract_lets cb set need
  refine ite_ext h ?_
  generalize Option.filter _ _ = oe
  cases oe with
  | some e => exact performFetch_ext _ _ h
  | none =>
    refine ite_ext h (ite_ext hp (ite_ext h ?_))
    generalize lookup s cb need = l
    cases l with
    | parErr bad => exact tagParity_ext _ _ h
    | filtered => exact ite_ext (fetchPool_ext _ _ (dropFiltered_ext _ _ h)) h
    | hit w => exact ite_ext h (ite_ext hp (ite_ext h (addAcc_ext _ _ _ _ _ _ _
        (updReq_ext _ _ (fun _ => rfl) (fun _ => rfl) (fetchEntry_ext _ h)))))
    | smiss w => exact hp
    | miss => exact hp

@[simp] theorem goRead_ext {a s : State} (r : Req) (o : Option Nat) (h : Ext a s) : Ext a (goRead s r o) := by
  unfold goRead
  split
  · exact updReq_ext _ _ (fun _ => rfl) (fun _ => rfl) (respond_ext _ _ _ _ h)
  · exact readRegister_ext _ _ h
  · exact ite_ext (readDevice_ext _ _ h) (readNormal_ext _ _ h)
  · exact h

@[simp] theorem enterQueue_ext {a s : State} (r : Req) (h : Ext a s) : Ext a (enterQueue s r) := by
  have h1 : Ext a (updReq s r.id fun r => { r with phase := .queue }) := updReq_ext _ _ (fun _ => rfl) (fun _ => rfl) h
  exact ite_ext (respond_ext _ _ _ _ h1) h1

@[simp] theorem advance_ext {a s : State} (i : Nat) (h : Ext a s) : Ext a (advance s i) := by
  unfold advance
  dsimp only
  have h1 := durAdvance_ext i h
  split
  · exact h1
  · split
    · exact ite_ext h1 (ite_ext (enterQueue_ext _ h1) (ite_ext (goRead_ext _ _ h1) h1))
    · exact ite_ext h1 (ite_ext (fetchPass_ext _ _ h1) (goRead_ext _ _ h1))
    · exact ite_ext (updReq_ext _ _ (fun _ => rfl) (fun _ => rfl) (respond_ext _ _ _ _ h1)) h1
    · exact h1

/-- Responses of requesters that cannot be answered are dropped. -/
theorem discardResps_ext {a s : State} (p : Resp → Bool) (hp : ∀ r, p r = true → portEn s (portOf r.who) = false) (h : Ext a s) :
    Ext a (discardResps s p) := by
  unfold discardResps
  have h1 : Ext a { s with bus := { s.bus with resps := s.bus.resps.filter fun r => !p r } } := by
    refine { h with resps := ?_, sound := fun x => sound_bus (s := s) (fun n => ⟨n.1, fun q (hq : q ∈ s.bus.resps.filter _) => n.2 q (List.mem_of_mem_filter hq)⟩) (h.sound x) }
    refine h.resps.trans ?_
    show List.filter _ _ <+: List.filter _ (List.filter _ _)
    rw [List.filter_filter, List.filter_congr (q := fun r => (portEn s (portOf r.who) && !(decide (8 ≤ r.who) && s.err.dmaHalt.getLsbD (r.who - 8))) && !p r)]
    · exact List.prefix_refl _
    · intro r _
      cases hr : p r with
      | false => simp
      | true => simp [hp r hr]
  have hs : ∀ t : State, Ext a t → ∀ w, silenced t w = silenced s w := fun t ht w => by
    have e := ht.fixed.trans h.fixed.symm
    have e1 : t.bus.rsns = s.bus.rsns := congrArg (fun x => x.bus.rsns) e
    have e2 : t.cfg.regs = s.cfg.regs := congrArg (fun x => x.cfg.regs) e
    simp [silenced, inReset, portEn, reg, e1, e2]
  have hl : ∀ r ∈ s.bus.resps.filter p, portEn s (portOf r.who) = false := fun r hr => hp r (List.mem_filter.mp hr).2
  revert h1 hl
  dsimp only
  generalize s.bus.resps.filter p = l
  generalize ({ s with bus := _ } : State) = s1
  intro h1 hl
  induction l generalizing s1 with
  | nil => exact h1
  | cons r l ih =>
    refine ih _ ?_ fun q hq => hl q (List.mem_cons_of_mem _ hq)
    dsimp only
    split
    · next id _ =>
      refine { h1 with owed := ?_, sound := fun x => sound_bus (s := s1) (fun n => ⟨numbered_updIf _ _ (fun q => by split <;> rfl) n.1, n.2⟩) (h1.sound x) }
      rw [← h1.owed]
      have hw : silenced s1 r.who = true := by rw [hs s1 h1]; simp [silenced, hl r (List.mem_cons_self ..)]
      refine filterMap_updIf s1.bus.reqs _ _ _ _ (fun q _ => ?_) (fun q _ => by split <;> rfl)
      show (decide _ && !(if _ then _ else _ : Req).answered && !silenced s1 _) = _
      by_cases hq : q.who = r.who
      · rw [if_pos hq]
        show (_ && !true && _) = (_ && _ && !silenced s1 q.who)
        rw [hq, hw]; simp
      · rw [if_neg hq]; rfl
    · exact h1

@[simp] theorem dropSilent_ext {a s : State} (h : Ext a s) : Ext a (dropSilent s) :=
  discardResps_ext _ (fun r hr => by simp at hr; exact hr.1.1) h

@[simp] theorem tookLookup_ext {a s : State} (r : Req) (d : Round) (h : Ext a s) : Ext a (tookLookup s r d) :=
  ite_ext h { h with }

@[simp] theorem advanceAll_ext {a s : State} (n : Nat) (l : List Nat) (h : Ext a s) : Ext a (advanceAll n l s) := by
  induction n generalizing l s with
  | zero => exact h
  | succ n ih =>
    unfold advanceAll
    split
    · exact h
    · exact ite_ext (ih _ (advance_ext _ h)) (ih _ (tookLookup_ext _ _ (advance_ext _ h)))

@[simp] theorem sweep_ext {a s : State} (h : Ext a s) : Ext a (sweep s) := by
  refine { h with owed := ?_, sound := fun x => sound_bus (s := s) (fun n => ⟨fun r (hr : r ∈ s.bus.reqs.filter _) => n.1 r (List.mem_of_mem_filter hr), n.2⟩) (h.sound x) }
  rw [← h.owed]
  show (List.filter _ (List.filter _ _)).map _ = _
  rw [List.filter_filter]
  refine congrArg _ (List.filter_congr fun r _ => ?_)
  show (_ && !r.answered && !silenced s r.who && _) = (_ && !r.answered && !silenced s r.who)
  cases r.answered
  · by_cases hw : r.who < 12
    · simp [hw, Nat.ne_of_lt hw]
    · simp [hw]
  · simp

/-- Everything `settle` can do. -/
@[simp] theorem settle_ext {a s : State} (h : Ext a s) : Ext a (settle s) := by
  unfold settle
  exact ite_ext h (engineSettle_ext (sweep_ext (dropSilent_ext (advanceAll_ext _ _
    (pressure_ext _ (sendReads_ext _ (pumpFills_ext (pumpSlots_ext (pumpCfg_ext h)))))))))

end Sys2Proof.Machine
end

