-- ==== Sys2Proof/Laws/Calm.lean ====
section
/-! SUPPORT. What every operation keeps, said once for each: `Calm K a s`. An operation that may change one of the parts of `Part`
asks that `K` leave that part out. -/

namespace Sys2Proof.Machine
set_option Elab.async false

/-- Parts of the state that few operations change. -/
inductive Part where
  /-- the power phase -/
  | phase
  /-- the Vault slots -/
  | slots
  /-- the TAP -/
  | tap
  /-- the stored registers -/
  | regs
  /-- the tick count -/
  | tick
  /-- the clocks and their monitors -/
  | clk
  /-- whether the tick runs, and what its status register reports -/
  | sync
  /-- period and direction of the tick -/
  | rate
  /-- whether the behaviour is undefined -/
  | undef

/-- Status of the tick. -/
def syncOf (q : Qtk) : Bool × Bool × Bool × Bool × BitVec 8 := (q.running, q.syncOk, q.early, q.loss, q.seq)

/-- Period and direction of the tick. -/
def rateOf (q : Qtk) : Nat × Bool × Bool := (q.n, q.syncIn, q.syncOut)

/-- `s` has the queue of `a`, its outputs or more, is sound if `a` is, and agrees with it in the parts `K`. -/
structure Calm (K : Part → Prop) (a s : State) : Prop where
  pending : s.pending = a.pending
  out     : a.out <:+ s.out
  sound   : a.sound → s.sound
  phase   : K .phase → s.pwr.phase = a.pwr.phase
  slots   : K .slots → s.vlt.slots = a.vlt.slots
  tap     : K .tap → s.tst.tap = a.tst.tap
  regs    : K .regs → s.cfg.regs = a.cfg.regs
  tick    : K .tick → live s cntTick = live a cntTick
  clk     : K .clk → s.clk = a.clk
  sync    : K .sync → syncOf s.qtk = syncOf a.qtk
  rate    : K .rate → rateOf s.qtk = rateOf a.qtk
  undef   : K .undef → s.undef = a.undef

variable {K : Part → Prop}

theorem Calm.refl (a : State) : Calm K a a :=
  ⟨rfl, List.suffix_refl _, fun h => h, fun _ => rfl, fun _ => rfl, fun _ => rfl, fun _ => rfl, fun _ => rfl, fun _ => rfl, fun _ => rfl,
   fun _ => rfl, fun _ => rfl⟩

theorem Calm.trans {a b c : State} (h : Calm K a b) (g : Calm K b c) : Calm K a c :=
  ⟨g.pending.trans h.pending, h.out.trans g.out, fun x => g.sound (h.sound x), fun k => (g.phase k).trans (h.phase k),
   fun k => (g.slots k).trans (h.slots k), fun k => (g.tap k).trans (h.tap k), fun k => (g.regs k).trans (h.regs k),
   fun k => (g.tick k).trans (h.tick k), fun k => (g.clk k).trans (h.clk k), fun k => (g.sync k).trans (h.sync k),
   fun k => (g.rate k).trans (h.rate k), fun k => (g.undef k).trans (h.undef k)⟩

theorem Ext.calm {a s : State} (h : Ext a s) : Calm K a s :=
  { pending := congrArg (fun x => x.pending) h.fixed
    out := h.out
    sound := h.sound
    phase := fun _ => congrArg (fun x => x.pwr.phase) h.fixed
    slots := fun _ => congrArg (fun x => x.vlt.slots) h.fixed
    tap := fun _ => congrArg (fun x => x.tst.tap) h.fixed
    regs := fun _ => congrArg (fun x => x.cfg.regs) h.fixed
    tick := fun _ => h.counts _ (by decide)
    clk := fun _ => congrArg (fun x => x.clk) h.fixed
    sync := fun _ => congrArg (fun x => syncOf x.qtk) h.fixed
    rate := fun _ => congrArg (fun x => rateOf x.qtk) h.fixed
    undef := fun _ => congrArg (fun x => x.undef) h.fixed }

/-- A record update, with what it keeps. -/
theorem Calm.upd {a x : State} {u f b pr c w q e i er m cs ck pw v cf t} (h : Calm K a x)
    (hpw : K .phase → pw.phase = x.pwr.phase := by first | exact fun _ => rfl | exact fun k => absurd k ‹_›)
    (hv : K .slots → v.slots = x.vlt.slots := by first | exact fun _ => rfl | exact fun k => absurd k ‹_›)
    (ht : K .tap → t.tap = x.tst.tap := by first | exact fun _ => rfl | exact fun k => absurd k ‹_›)
    (hck : K .clk → ck = x.clk := by first | exact fun _ => rfl | exact fun k => absurd k ‹_›)
    (hsy : K .sync → syncOf q = syncOf x.qtk := by first | exact fun _ => rfl | exact fun k => absurd k ‹_›)
    (hra : K .rate → rateOf q = rateOf x.qtk := by first | exact fun _ => rfl | exact fun k => absurd k ‹_›)
    (hu : K .undef → u = x.undef := by first | exact fun _ => rfl | exact fun k => absurd k ‹_›)
    (hr : cf.regs = x.cfg.regs := by rfl) (hl : cf.live = x.cfg.live := by rfl) (hh : cf.hold = x.cfg.hold := by rfl)
    (hc : mwf (fun _ => 0) x.cch.tags = true → mwf (fun _ => 0) c.tags = true := by first | exact fun y => y | exact fun _ => rfl)
    (hd : x.cch.dets.length = 12 → c.dets.length = 12 := by first | exact fun y => y | exact fun _ => rfl)
    (he : x.eng.rings.length = 5 → e.rings.length = 5 := by exact fun y => y)
    (hk : x.err.buckets.length = 6 → er.buckets.length = 6 := by
      first | exact fun y => y | exact fun y => (length_updAt ..).trans y)
    (ha : x.wrb.arms.length = 8 → w.arms.length = 8 := by first | exact fun y => y | exact fun _ => rfl)
    (hs : x.vlt.slots.length = 8 → v.slots.length = 8 := by first | exact fun y => y | exact fun y => (length_updAt ..).trans y)
    (hm : x.mem.vHdr.length = 4 → m.vHdr.length = 4 := by first | exact fun y => y | (intro; simp))
    (hn : (∀ r ∈ x.bus.reqs, r.id < x.bus.nextReq) → (∀ r ∈ x.bus.resps, ∀ i, r.req = some i → i < x.bus.nextReq) →
      (∀ r ∈ b.reqs, r.id < b.nextReq) ∧ ∀ r ∈ b.resps, ∀ i, r.req = some i → i < b.nextReq := by exact fun y z => ⟨y, z⟩) :
    Calm K a (State.mk x.pending u f x.out b pr c w q e i er m cs ck pw v cf t) := by
  refine ⟨h.pending, h.out, ?_, fun k => (hpw k).trans (h.phase k), fun k => (hv k).trans (h.slots k), fun k => (ht k).trans (h.tap k),
    fun k => hr.trans (h.regs k), fun k => ?_, fun k => (hck k).trans (h.clk k), fun k => (hsy k).trans (h.sync k),
    fun k => (hra k).trans (h.rate k), fun k => (hu k).trans (h.undef k)⟩
  · intro y
    obtain ⟨⟨y1, y2, y3, y4⟩, y5, y6, y7, y8, y9, y10, y11, y12, y13⟩ := h.sound y
    refine ⟨⟨hc y1, ?_, ?_, ?_⟩, ?_, he y6, hk y7, ha y8, hd y9, hs y10, hm y11, hn y12 y13⟩
    · show mwf _ cf.regs = true; rw [hr]; exact y2
    · show mwf _ cf.live = true; rw [hl]; exact y3
    · show mwf _ cf.hold = true; rw [hh]; exact y4
    · show ∀ e ∈ cf.regs, _; rw [hr]; exact y5
  · rw [← h.tick k]; show mget _ cf.live _ = mget _ x.cfg.live _; rw [hl]

theorem ite_calm {a x y : State} {c : Prop} [Decidable c] (hx : Calm K a x) (hy : Calm K a y) : Calm K a (if c then x else y) := by
  split <;> assumption

theorem foldl_calm {β : Type} {a s : State} (l : List β) (f : State → β → State) (hf : ∀ s b, Calm K a s → Calm K a (f s b))
    (h : Calm K a s) : Calm K a (l.foldl f s) := by
  induction l generalizing s with
  | nil => exact h
  | cons b l ih => exact ih (hf s b h)

theorem when_calm {a s : State} (c : Bool) (f : State → State) (hf : Calm K a s → Calm K a (f s)) (h : Calm K a s) :
    Calm K a (when s c f) := ite_calm (hf h) h

/-! ### Counters other than the tick count -/

@[simp] theorem cntDecode_ne : cntDecode ≠ cntTick := by decide
@[simp] theorem cntHit_ne : cntHit ≠ cntTick := by decide
@[simp] theorem cntSmiss_ne : cntSmiss ≠ cntTick := by decide
@[simp] theorem cntMiss_ne : cntMiss ≠ cntTick := by decide
@[simp] theorem cntSpan_ne : cntSpan ≠ cntTick := by decide
@[simp] theorem cntMhWait_ne : cntMhWait ≠ cntTick := by decide
@[simp] theorem cntNoAlloc_ne : cntNoAlloc ≠ cntTick := by decide
@[simp] theorem cntPfIssue_ne : cntPfIssue ≠ cntTick := by decide
@[simp] theorem cntPfDrop_ne : cntPfDrop ≠ cntTick := by decide
@[simp] theorem cntSpecRef_ne : cntSpecRef ≠ cntTick := by decide
@[simp] theorem cntDrain_ne : cntDrain ≠ cntTick := by decide
@[simp] theorem cntCplCache_ne : cntCplCache ≠ cntTick := by decide
@[simp] theorem cntCplPool_ne : cntCplPool ≠ cntTick := by decide
@[simp] theorem cntFetch_ne : cntFetch ≠ cntTick := by decide
@[simp] theorem cntFlush_ne : cntFlush ≠ cntTick := by decide
@[simp] theorem cntC0_ne : cntC0 ≠ cntTick := by decide
@[simp] theorem cntDemote_ne : cntDemote ≠ cntTick := by decide
@[simp] theorem cntSyncEarly_ne : cntSyncEarly ≠ cntTick := by decide
@[simp] theorem cntSyncLoss_ne : cntSyncLoss ≠ cntTick := by decide
@[simp] theorem cntIcbCorr_ne : cntIcbCorr ≠ cntTick := by decide
@[simp] theorem cntIcbBit_ne : cntIcbBit ≠ cntTick := by decide
@[simp] theorem cntIcbUnc_ne : cntIcbUnc ≠ cntTick := by decide
@[simp] theorem cntIcbMisdir_ne : cntIcbMisdir ≠ cntTick := by decide
@[simp] theorem cntIcbStale_ne : cntIcbStale ≠ cntTick := by decide
@[simp] theorem cntIcbBlank_ne : cntIcbBlank ≠ cntTick := by decide
@[simp] theorem cntIcbSec_ne : cntIcbSec ≠ cntTick := by decide
@[simp] theorem cntIcbDed_ne : cntIcbDed ≠ cntTick := by decide
@[simp] theorem cntIcbBpar_ne : cntIcbBpar ≠ cntTick := by decide
@[simp] theorem cntPoolFail_ne : cntPoolFail ≠ cntTick := by decide
@[simp] theorem cntCplTmo_ne : cntCplTmo ≠ cntTick := by decide
@[simp] theorem cntDmaHalt_ne : cntDmaHalt ≠ cntTick := by decide
@[simp] theorem cntCsRec_ne : cntCsRec ≠ cntTick := by decide
@[simp] theorem cntTagRec_ne : cntTagRec ≠ cntTick := by decide
@[simp] theorem cntSuspEvict_ne : cntSuspEvict ≠ cntTick := by decide
@[simp] theorem cntRetire_ne : cntRetire ≠ cntTick := by decide
@[simp] theorem cntLockBrk_ne : cntLockBrk ≠ cntTick := by decide
@[simp] theorem cntDlk_ne : cntDlk ≠ cntTick := by decide
@[simp] theorem cntBypass_ne : cntBypass ≠ cntTick := by decide
@[simp] theorem cntMrd_ne : cntMrd ≠ cntTick := by decide
@[simp] theorem cntMwr_ne : cntMwr ≠ cntTick := by decide
@[simp] theorem cntCor_ne : cntCor ≠ cntTick := by decide
@[simp] theorem cntMemViol_ne : cntMemViol ≠ cntTick := by decide
@[simp] theorem cntLate_ne : cntLate ≠ cntTick := by decide
@[simp] theorem cntRecov_ne : cntRecov ≠ cntTick := by decide
@[simp] theorem cntRef_ne : cntRef ≠ cntTick := by decide
@[simp] theorem cntZq_ne : cntZq ≠ cntTick := by decide
@[simp] theorem cntRmw_ne : cntRmw ≠ cntTick := by decide
@[simp] theorem cntYield_ne : cntYield ≠ cntTick := by decide
@[simp] theorem cntAlert_ne : cntAlert ≠ cntTick := by decide
@[simp] theorem cntRelock_ne : cntRelock ≠ cntTick := by decide
@[simp] theorem cntLol_ne : cntLol ≠ cntTick := by decide
@[simp] theorem cntWarnWin_ne : cntWarnWin ≠ cntTick := by decide
@[simp] theorem cntKeyRef_ne : cntKeyRef ≠ cntTick := by decide
@[simp] theorem cntPass_ne : cntPass ≠ cntTick := by decide
@[simp] theorem cntAgpPar_ne (p : PortId) : cntAgpPar p ≠ cntTick := by cases p <;> decide
@[simp] theorem cntAgpFmt_ne (p : PortId) : cntAgpFmt p ≠ cntTick := by cases p <;> decide
@[simp] theorem cntAgpSeq_ne (p : PortId) : cntAgpSeq p ≠ cntTick := by cases p <;> decide
@[simp] theorem cntPrbProbe_ne (p : PortId) : cntPrbProbe p ≠ cntTick := by cases p <;> decide
@[simp] theorem cntPrbViol_ne (p : PortId) : cntPrbViol p ≠ cntTick := by cases p <;> decide
@[simp] theorem cntPrbTmo_ne (p : PortId) : cntPrbTmo p ≠ cntTick := by cases p <;> decide
@[simp] theorem cntPrbLate_ne (p : PortId) : cntPrbLate p ≠ cntTick := by cases p <;> decide
@[simp] theorem codeCounter_ne (p : PortId) (n : Nat) : codeCounter p n ≠ cntTick := by
  unfold codeCounter
  split
  · simp
  · split <;> simp

/-! ### Shared operations -/

theorem countN_calm {a s : State} {c : Nat} (n : Nat) (h : Calm K a s)
    (hc : K .tick → c ≠ cntTick := by first | (intro; simp; done) | exact fun k => absurd k ‹_›) : Calm K a (countN s c n) :=
  { h with
    tick := fun k => by
      rw [← h.tick k]
      show mget _ (mset _ _ _ _) _ = _
      rw [mget_mset, if_neg (hc k)]; rfl
    sound := fun ha => let ⟨⟨x, y, z, w⟩, q⟩ := h.sound ha; ⟨⟨x, y, mwf_mset _ _ _ _ z, w⟩, q⟩ }

theorem count_calm {a s : State} {c : Nat} (h : Calm K a s)
    (hc : K .tick → c ≠ cntTick := by first | (intro; simp; done) | exact fun k => absurd k ‹_›) : Calm K a (count s c) :=
  countN_calm 1 h hc

theorem updReq_calm {a s : State} (id : Nat) (f : Req → Req) (h : Calm K a s)
    (hf : ∀ r, (f r).id = r.id := by intro _; first | rfl | (dsimp only; split <;> rfl)) : Calm K a (updReq s id f) :=
  { h with sound := fun x => sound_bus (s := s) (fun n => ⟨numbered_updIf _ f hf n.1, n.2⟩) (h.sound x) }

theorem updRing_calm {a s : State} (n : Nat) (f : Ring → Ring) (h : Calm K a s) : Calm K a (updRing s n f) :=
  { h with sound := fun ha => let ⟨x, y, z, w⟩ := h.sound ha; ⟨x, y, (length_updAt ..).trans z, w⟩ }

theorem regPut_calm {a s : State} (off : Nat) (v : Reg32) (h : Calm K a s) (nregs : ¬ K .regs := by assumption) :
    Calm K a (regPut s off v) :=
  { h with
    regs := fun k => absurd k nregs
    sound := fun ha => by
      obtain ⟨⟨x, y, z, w⟩, q, r⟩ := h.sound ha
      refine ⟨⟨x, mwf_mset _ _ _ _ y, z, w⟩, fun e he => ?_, r⟩
      rcases mem_mset _ _ _ _ _ he with rfl | he
      · show (v &&& storedMask off) &&& ~~~(storedMask off) = 0
        rw [BitVec.and_assoc]; simp
      · exact q e he }

theorem snapAll_calm {a s : State} (clr : Bool) (h : Calm K a s) (ntick : ¬ K .tick := by assumption) : Calm K a (snapAll s clr) :=
  { h with
    tick := fun k => absurd k ntick
    sound := fun ha => by
      obtain ⟨⟨x, y, z, w⟩, q⟩ := h.sound ha
      refine ⟨⟨x, y, ?_, z⟩, q⟩
      show mwf _ (if clr = true then [] else s.cfg.live) = true
      split
      · rfl
      · exact z }

theorem wakeAll_calm {a s : State} (h : Calm K a s) : Calm K a (wakeAll s).1 := by
  have (l : List Req) (m : BitVec 8) : ∀ s : State, Calm K a s → Calm K a (l.foldl (fun a r =>
      (respond (updReq a.1 r.id fun r => { r with phase := .done }) r.id .watchNowriter [] none, setBit a.2 r.who true)) (s, m)).1 := by
    induction l generalizing m with
    | nil => exact fun s h => h
    | cons r l ih => exact fun s h => ih _ _ ((updReq_calm _ _ h).trans (respond_ext _ _ _ _ (Ext.refl _)).calm)
  exact this _ _ s h

theorem fillStart_calm {a s : State} (x : Handler) (m : Option (BitVec 16)) (h : Calm K a s) (t : State)
    (ht : fillStart s x m = some t) : Calm K a t := h.trans (fillStart_ext x m (Ext.refl s) t ht).calm

theorem raiseInt_calm {a s : State} (n : Nat) (h : Calm K a s) :
    Calm K a (raiseInt s n) := h.trans (raiseInt_ext n (Ext.refl s)).calm

theorem event_calm {a s : State} (b c : Nat) (p : BitVec 384) (h : Calm K a s) :
    Calm K a (event s b c p) := h.trans (event_ext b c p (Ext.refl s)).calm

theorem emit_calm {a s : State} (o : Out) (h : Calm K a s) :
    Calm K a (emit s o) := h.trans (emit_ext o (Ext.refl s)).calm

theorem tagPutBits_calm {a s : State} (p : Nat) (v : BitVec 40) (h : Calm K a s) :
    Calm K a (tagPutBits s p v) := h.trans (tagPutBits_ext p v (Ext.refl s)).calm

theorem respond_calm {a s : State} (id : Nat) (rsp : Rsp) (b : List Beat64) (cb : Option Nat) (h : Calm K a s) :
    Calm K a (respond s id rsp b cb) := h.trans (respond_ext id rsp b cb (Ext.refl s)).calm

theorem bucketEvent_calm {a s : State} (n : Nat) (h : Calm K a s) :
    Calm K a (bucketEvent s n) := h.trans (bucketEvent_ext n (Ext.refl s)).calm

theorem suspectEvent_calm {a s : State} (p w c : Nat) (h : Calm K a s) :
    Calm K a (suspectEvent s p w c) := h.trans (suspectEvent_ext p w c (Ext.refl s)).calm

theorem tagPut_calm {a s : State} (pos : Nat) (t : TagEntry) (h : Calm K a s) :
    Calm K a (tagPut s pos t) := h.trans (tagPut_ext pos t (Ext.refl s)).calm

theorem tagParity_calm {a s : State} (i : Nat) (b : BitVec 16) (h : Calm K a s) :
    Calm K a (tagParity s i b) := h.trans (tagParity_ext i b (Ext.refl s)).calm

theorem updHandler_calm {a s : State} (i : Nat) (f : Handler → Handler) (h : Calm K a s) :
    Calm K a (updHandler s i f) := h.trans (updHandler_ext i f (Ext.refl s)).calm

theorem cancelFills_calm {a s : State} (p : Handler → Bool) (h : Calm K a s) :
    Calm K a (cancelFills s p) := h.trans (cancelFills_ext p (Ext.refl s)).calm

theorem queueProbe_calm {a s : State} (kind : ProbeKind) (agents : BitVec 8) (f : ProbeFor) (h : Calm K a s) :
    Calm K a (queueProbe s kind agents f) := h.trans (queueProbe_ext kind agents f (Ext.refl s)).calm

theorem invalPos_calm {a s : State} (p : Nat) (f : ProbeFor) (h : Calm K a s) :
    Calm K a (invalPos s p f) := h.trans (invalPos_ext p f (Ext.refl s)).calm

theorem updRun_calm {a s : State} (n : Nat) (f : Running → Running) (h : Calm K a s) :
    Calm K a (updRun s n f) := h.trans (updRun_ext n f (Ext.refl s)).calm

theorem dropFiltered_calm {a s : State} (cb : Nat) (f : ProbeFor) (h : Calm K a s) :
    Calm K a (dropFiltered s cb f) := h.trans (dropFiltered_ext cb f (Ext.refl s)).calm

theorem armWatch_calm {a s : State} (r : Req) (h : Calm K a s) :
    Calm K a (armWatch s r) := h.trans (armWatch_ext r (Ext.refl s)).calm

theorem haltDma_calm {a s : State} (ch p c : Nat) (h : Calm K a s) :
    Calm K a (haltDma s ch p c) := h.trans (haltDma_ext ch p c (Ext.refl s)).calm

theorem failReq_calm {a s : State} (r : Req) (x : Sector) (c : Nat) (h : Calm K a s) :
    Calm K a (failReq s r x c) := h.trans (failReq_ext r x c (Ext.refl s)).calm

theorem sendTlp_calm {a s : State} (t : Tlp) (h : Calm K a s) :
    Calm K a (sendTlp s t) := h.trans (sendTlp_ext t (Ext.refl s)).calm

theorem sendRead_calm {a s : State} (m : MRead) (t : Nat) (h : Calm K a s) :
    Calm K a (sendRead s m t) := h.trans (sendRead_ext m t (Ext.refl s)).calm

theorem askRead_calm {a s : State} (o : ReadOwner) (ad b c : Nat) (h : Calm K a s) :
    Calm K a (askRead s o ad b c) := h.trans (askRead_ext o ad b c (Ext.refl s)).calm

theorem askBlock_calm {a s : State} (o : Bool → ReadOwner) (cb : Nat) (cls : Nat) (h : Calm K a s) :
    Calm K a (askBlock s o cb cls) := h.trans (askBlock_ext o cb cls (Ext.refl s)).calm

theorem addAcc_calm {a s : State} (k : AccKind) (p : Nat) (l : List Nat) (d : Block) (m : BlockMask) (c : Bool) (n : Nat)
    (h : Calm K a s) :
    Calm K a (addAcc s k p l d m c n) := h.trans (addAcc_ext k p l d m c n (Ext.refl s)).calm

theorem readFor_calm {a s : State} (x : Handler) (h : Calm K a s) :
    Calm K a (readFor s x) := h.trans (readFor_ext x (Ext.refl s)).calm

theorem useReg_calm {a s : State} (o : Nat) (h : Calm K a s) :
    Calm K a (useReg s o) := h.trans (useReg_ext o (Ext.refl s)).calm

theorem updEntry_calm {a s : State} (id : Nat) (f : Entry → Entry) (h : Calm K a s) :
    Calm K a (updEntry s id f) := h.trans (updEntry_ext id f (Ext.refl s)).calm

theorem markEntry_calm {a s : State} (id : Nat) (r : DrainRank) (h : Calm K a s) :
    Calm K a (markEntry s id r) := h.trans (markEntry_ext id r (Ext.refl s)).calm

theorem endFetch_calm {a s : State} (id : Nat) (h : Calm K a s) :
    Calm K a (endFetch s id) := h.trans (endFetch_ext id (Ext.refl s)).calm

theorem allocEntry_calm {a s : State} (nt : Bool) (cb : Nat) (str : BitVec 3) (cls : Nat) (cacheable : Bool) (h : Calm K a s) :
    Calm K a (allocEntry s nt cb str cls cacheable).1 := h.trans (allocEntry_ext nt cb str cls cacheable (Ext.refl s)).calm

theorem fillInvalid_calm {a s : State} (id : Nat) (data : Block) (mask : BlockMask) (h : Calm K a s) :
    Calm K a (fillInvalid s id data mask) := h.trans (fillInvalid_ext id data mask (Ext.refl s)).calm

theorem updSlot_calm {a s : State} (id : Nat) (f : Slot → Slot) (h : Calm K a s) :
    Calm K a (updSlot s id f) := h.trans (updSlot_ext id f (Ext.refl s)).calm

theorem writeThrough_calm {a s : State} (r : Req) (d : Block) (m : BlockMask) (all p : Bool) (h : Calm K a s) :
    Calm K a (writeThrough s r d m all p) := h.trans (writeThrough_ext r d m all p (Ext.refl s)).calm

theorem queueEntry_calm {a s : State} (e : CEntry) (h : Calm K a s) :
    Calm K a (queueEntry s e) := h.trans (queueEntry_ext e (Ext.refl s)).calm

theorem finishRun_calm {a s : State} (n : Nat) (x : Running) (st : Nat) (h : Calm K a s) :
    Calm K a (finishRun s n x st) := h.trans (finishRun_ext n x st (Ext.refl s)).calm

theorem unitDone_calm {a s : State} (n : Nat) (h : Calm K a s) :
    Calm K a (unitDone s n) := h.trans (unitDone_ext n (Ext.refl s)).calm

theorem unitRead_calm {a s : State} (n u cb : Nat) (str : BitVec 3) (cls : Nat) (c : Bool) (i : Nat) (h : Calm K a s) :
    Calm K a (unitRead s n u cb str cls c i) := h.trans (unitRead_ext n u cb str cls c i (Ext.refl s)).calm

theorem withUnit_calm {a s : State} {n u : Nat} {r : Reg32} {cb : Nat} {b c : Bool} {o : Option Nat} {go : State → Nat → State} {t : State}
    (ht : withUnit s n u r cb b c o go = some t) (hg : ∀ s i, Calm K a s → Calm K a (go s i)) (h : Calm K a s) : Calm K a t := by
  unfold withUnit at ht
  split at ht
  · cases ht; exact hg _ _ h
  · split at ht
    · cases ht
    · split at ht <;> cases ht
      · exact hg _ _ h
      · exact h.trans (unitWait_ext _ _ _ _ _ _ (Ext.refl s)).calm

theorem admitClass_calm {a s : State} (c : Nat) (h : Calm K a s) : Calm K a (admitClass s c).1 := h.trans (admitClass_ext c (Ext.refl s)).calm

theorem admitUnit_calm {a s : State} (n u : Nat) (r : Reg32) (h : Calm K a s) : Calm K a (admitUnit s n u r).1 :=
  h.trans (admitUnit_ext n u r (Ext.refl s)).calm

theorem updEpoch_calm {a s : State} (f : Epoch → Epoch) (h : Calm K a s) : Calm K a (updEpoch s f) := h.trans (updEpoch_ext f (Ext.refl s)).calm

theorem due2_calm {a s : State} (o : Rank2) (h : Calm K a s) : Calm K a (due2 s o) := Calm.upd h

theorem over2_calm {a s : State} (o : Rank2) (h : Calm K a s) : Calm K a (over2 s o) := Calm.upd h

theorem dropEntry_calm {a s : State} (p c : Nat) (h : Calm K a s) : Calm K a (dropEntry s p c) := h.trans (dropEntry_ext p c (Ext.refl s)).calm

theorem addRuns_calm {a s : State} (k : AccKind) (p : Nat) (l : List Nat) (d : Block) (m : BlockMask) (c : Bool) (n : Nat)
    (h : Calm K a s) : Calm K a (addRuns s k p l d m c n) := h.trans (addRuns_ext k p l d m c n (Ext.refl s)).calm

theorem feedRewrite_calm {a s : State} (e : Entry) (o : Option Nat) (h : Calm K a s) : Calm K a (feedRewrite s e o) :=
  h.trans (feedRewrite_ext e o (Ext.refl s)).calm

theorem disarm_calm {a s : State} (r : Req) (h : Calm K a s) : Calm K a (disarm s r) := h.trans (disarm_ext r (Ext.refl s)).calm

theorem rewriteFed_calm {a s : State} (e : Entry) (b : Block) (bad : Bool) (h : Calm K a s) : Calm K a (rewriteFed s e b bad) :=
  h.trans (rewriteFed_ext e b bad (Ext.refl s)).calm

theorem rewriteRead_calm {a s : State} (e : Entry) (n u : Nat) (o : Option Nat) (h : Calm K a s) : Calm K a (rewriteRead s e n u o) :=
  h.trans (rewriteRead_ext e n u o (Ext.refl s)).calm

theorem fetchOver_calm {a s : State} (r : Req) (e : Entry) (h : Calm K a s) :
    Calm K a (fetchOver s r e) := h.trans (fetchOver_ext r e (Ext.refl s)).calm

theorem performFetch_calm {a s : State} (r : Req) (e : Entry) (h : Calm K a s) :
    Calm K a (performFetch s r e) := h.trans (performFetch_ext r e (Ext.refl s)).calm

theorem fetchEnd_calm {a s : State} (i : Nat) (b : Block) (m : BlockMask) (f : Nat) (h : Calm K a s) :
    Calm K a (fetchEnd s i b m f) := h.trans (fetchEnd_ext i b m f (Ext.refl s)).calm

theorem fetchPass_calm {a s : State} (r : Req) (o : Option Nat) (h : Calm K a s) :
    Calm K a (fetchPass s r o) := h.trans (fetchPass_ext r o (Ext.refl s)).calm

theorem goRead_calm {a s : State} (r : Req) (o : Option Nat) (h : Calm K a s) :
    Calm K a (goRead s r o) := h.trans (goRead_ext r o (Ext.refl s)).calm

theorem settle_calm {a s : State} (h : Calm K a s) :
    Calm K a (settle s) := h.trans (settle_ext (Ext.refl s)).calm

theorem disableCache_calm {z s : State}  (hz : Calm K z s) : Calm K z (disableCache s) :=
  ite_calm (cancelFills_calm _ (Calm.upd hz)) hz

theorem bypassCause_calm {z s : State} (cause : Nat) (off : Nat) (hz : Calm K z s) : Calm K z (bypassCause s cause off) := by
  unfold bypassCause
  extract_lets s0 x1 x2 s3 s4 x5 x6
  have h7 : Calm K z s0 := disableCache_calm hz
  clear_value s0
  have h8 : Calm K z s3 := ite_calm hz (Calm.upd h7)
  clear_value s3
  have h9 : Calm K z s4 := raiseInt_calm _ (event_calm _ _ _ (count_calm h8))
  clear_value s4
  exact Calm.upd h9

theorem setPort_calm {z s : State} (p : PortId) (f : Port → Port) (hz : Calm K z s) : Calm K z (setPort s p f) := by
  unfold setPort
  split
  · exact Calm.upd hz
  · exact Calm.upd hz

theorem logViolation_calm {z s : State} (p : PortId) (who : Nat) (v : VSeen) (code : Nat) (hz : Calm K z s) :
    Calm K z (logViolation s p who v code) := by
  unfold logViolation
  extract_lets s0
  have h1 : Calm K z s0 := setPort_calm _ _ hz
  clear_value s0
  exact raiseInt_calm _ h1

theorem logProbeViol_calm {z s : State} (p : PortId) (agent : Nat) (code : Nat) (hz : Calm K z s) :
    Calm K z (logProbeViol s p agent code) := by
  unfold logProbeViol
  extract_lets s0
  have h1 : Calm K z s0 := setPort_calm _ _ hz
  clear_value s0
  exact raiseInt_calm _ (count_calm h1)

theorem logMemViol_calm {z s : State} (code : Nat) (hdr : List Reg32) (hz : Calm K z s) :
    Calm K z (logMemViol s code hdr) := by
  unfold logMemViol
  extract_lets x0 s1
  have h2 : Calm K z s1 := Calm.upd hz
  clear_value s1
  exact raiseInt_calm _ (count_calm h2)

theorem nextFree_calm {z s : State}  (hz : Calm K z s) : Calm K z (nextFree s).2 := by
  unfold nextFree
  dsimp only
  exact Calm.upd hz

theorem breach_calm {z s : State} (c : UndefCause) (hz : Calm K z s) (nundef : ¬ K .undef := by assumption) :
    Calm K z (breach s c) :=
  Calm.upd hz

theorem bufParity_calm {z s : State} (k : Nat) (who : Nat) (hz : Calm K z s) : Calm K z (bufParity s k who) :=
  bucketEvent_calm _ (event_calm _ _ _ (count_calm hz))

theorem dropHandler_calm {z s : State} (i : Nat) (hz : Calm K z s) : Calm K z (dropHandler s i) := Calm.upd hz

theorem prune_calm {z s : State}  (hz : Calm K z s) : Calm K z (prune s) := Calm.upd hz

theorem ackAll_calm {z s : State} (k : Nat) (queued : Bool) (p : Probe → Bool) (hz : Calm K z s) :
    Calm K z (ackAll s k queued p) :=
  prune_calm (Calm.upd hz)

/-- A request takes the next number. -/
theorem addReq_calm {z s : State} (r : Req) (hz : Calm K z s) (hr : r.id = s.bus.nextReq := by rfl) :
    Calm K z (addReq { s with bus := { s.bus with nextReq := s.bus.nextReq + 1 } } r) :=
  { hz with
    sound := fun x => sound_bus (s := s) (fun n => ⟨fun q hq => by
      rcases List.mem_append.mp hq with hq | hq
      · exact Nat.lt_succ_of_lt (n.1 q hq)
      · obtain rfl := List.mem_singleton.mp hq
        exact hr ▸ Nat.lt_succ_self _, fun q hq i hi => Nat.lt_succ_of_lt (n.2 q hq i hi)⟩) (hz.sound x) }

theorem recentPut_calm {z s : State} (cb : Nat) (w : BitVec 16) (hz : Calm K z s) : Calm K z (recentPut s cb w) :=
  Calm.upd hz

theorem resetDetectors_calm {z s : State}  (hz : Calm K z s) : Calm K z (resetDetectors s) := Calm.upd hz

theorem answerRead_calm {z s : State} (r : Req) (x : Sector) (hz : Calm K z s) : Calm K z (answerRead s r x) := by
  unfold answerRead
  extract_lets x0 x1 s2
  have h3 : Calm K z s2 := updReq_calm _ _ hz
  clear_value s2
  exact armWatch_calm _ (respond_calm _ _ _ _ h3)

theorem handTo_calm {z s : State} (b : Block) (fail : Nat) (id : Nat) (hz : Calm K z s) : Calm K z (handTo b fail s id) := by
  unfold handTo
  split
  · exact hz
  · extract_lets x0 x1
    exact ite_calm (answerRead_calm _ _ hz) (failReq_calm _ _ _ hz)

theorem dropAccess_calm {z s : State} (a : Acc) (hz : Calm K z s) : Calm K z (dropAccess s a) := by
  unfold dropAccess
  extract_lets x0 s1 x2
  have h3 : Calm K z s1 := Calm.upd hz
  clear_value s1
  split
  · exact updReq_calm _ _ h3
  · exact Calm.upd h3
  · exact updReq_calm _ _ h3
  · exact h3
  · exact h3
  · exact h3

theorem cacheLoss_calm {z s : State}  (hz : Calm K z s) : Calm K z (cacheLoss s) := by
  unfold cacheLoss
  extract_lets s0 x1 s2
  have h3 : Calm K z s0 := disableCache_calm hz
  clear_value s0
  have h4 : Calm K z s2 := event_calm _ _ _ (Calm.upd h3)
  clear_value s2
  exact foldl_calm _ _ (fun s5 b6 h7 => dropAccess_calm _ h7) h4

theorem ntPressure_calm {z s : State}  (hz : Calm K z s) : Calm K z (ntPressure s) := by
  unfold ntPressure
  split
  · exact markEntry_calm _ _ hz
  · exact hz

theorem dropSlot_calm {z s : State} (id : Nat) (hz : Calm K z s) : Calm K z (dropSlot s id) := Calm.upd hz

theorem addSlot_calm {z s : State} (t : Slot) (hz : Calm K z s) : Calm K z (addSlot s t) := Calm.upd hz

theorem startDrain_calm {z s : State} (e : Entry) (perr : Bool) (hz : Calm K z s) : Calm K z (startDrain s e perr) := by
  unfold startDrain
  extract_lets s0 s1 x2 x3 x4
  have h5 : Calm K z s0 := ite_calm (bufParity_calm _ _ hz) hz
  clear_value s0
  have h6 : Calm K z s1 := count_calm h5
  clear_value s1
  exact addSlot_calm _ (Calm.upd h6)

theorem completeSlot_calm {z s : State} (id : Nat) (data : Block) (bad : Bool) (hz : Calm K z s) :
    Calm K z (completeSlot s id data bad) :=
  updSlot_calm _ _ hz

theorem dropLock_calm {z s : State} (who : Nat) (hz : Calm K z s) : Calm K z (dropLock s who) := Calm.upd hz

theorem breakLock_calm {z s : State} (who : Nat) (cb : Nat) (cause : Nat) (hz : Calm K z s) :
    Calm K z (breakLock s who cb cause) := by
  unfold breakLock
  extract_lets s0 x1 s2
  have h3 : Calm K z s0 := dropLock_calm _ hz
  clear_value s0
  have h4 : Calm K z s2 := Calm.upd h3
  clear_value s2
  exact raiseInt_calm _ (event_calm _ _ _ (count_calm h4))

theorem haltRing_calm {z s : State} (n : Nat) (status : Nat) (hz : Calm K z s) : Calm K z (haltRing s n status) := by
  unfold haltRing
  extract_lets s0 x1 s2
  have h3 : Calm K z s0 := updRing_calm _ _ hz
  clear_value s0
  have h4 : Calm K z s2 := queueEntry_calm _ h3
  clear_value s2
  exact event_calm _ _ _ h4

theorem stopRun_calm {z s : State} (n : Nat) (status : Nat) (unit : Nat) (hz : Calm K z s) :
    Calm K z (stopRun s n status unit) :=
  updRun_calm _ _ hz

theorem addCount0_calm {z s : State} (n : Nat) (k : Nat) (hz : Calm K z s) : Calm K z (addCount0 s n k) :=
  updRun_calm _ _ hz

theorem addCount1_calm {z s : State} (n : Nat) (k : Nat) (hz : Calm K z s) : Calm K z (addCount1 s n k) :=
  updRun_calm _ _ hz

theorem noteErr_calm {z s : State} (n : Nat) (unit : Nat) (hz : Calm K z s) : Calm K z (noteErr s n unit) :=
  updRun_calm _ _ hz

theorem engAccess_calm {z s : State} (n : Nat) (c : ReqCmd) (mark : Mark) (a : Nat) (data : Sector) (t : Nat × Reg32 × Nat)
    (hz : Calm K z s) : Calm K z (engAccess s n c mark a data t).1 :=
  addReq_calm _ (admitClass_calm _ (Calm.upd hz))

theorem beginRewrite_calm {z s : State} (n : Nat) (unit : Nat) (cb : Nat) (str : BitVec 3) (cls : Nat) (cacheable : Bool) (hz : Calm K z s) :
    Calm K z (beginRewrite s n unit cb str cls cacheable) := by
  unfold beginRewrite
  split
  rename_i s0 x4 e2
  have h3 : Calm K z s0 := by
    rw [← show (_ : State × _).1 = s0 from congrArg Prod.fst e2]
    exact allocEntry_calm _ _ _ _ _ hz
  exact updEntry_calm _ _ h3

theorem unitDrop_calm {z s : State} (n : Nat) (unit : Nat) (hz : Calm K z s) : Calm K z (unitDrop s n unit) := by
  unfold unitDrop
  split
  · exact hz
  · extract_lets x0 s1 x2
    have h3 : Calm K z s1 := Calm.upd hz
    clear_value s1
    exact ite_calm (Calm.upd h3) (endFetch_calm _ (updEntry_calm _ _ h3))

theorem poolBad_calm {z s : State} (cb : Nat) (reason : Nat) (who : Option Nat) (found : BitVec 16) (expect : BitVec 16) (hz : Calm K z s) :
    Calm K z (poolBad s cb reason who found expect) := by
  unfold poolBad
  extract_lets x0 x1 s2 s3 s4
  have h5 : Calm K z s2 := Calm.upd hz
  clear_value s2
  have h6 : Calm K z s3 := count_calm h5
  clear_value s3
  have h7 : Calm K z s4 := ite_calm (count_calm h6) (ite_calm (count_calm h6) h6)
  clear_value s4
  exact raiseInt_calm _ (event_calm _ _ _ h7)

theorem readBlock_calm {z s : State} (str : BitVec 3) (cb : Nat) (expect : Option (BitVec 16)) (who : Option Nat) (b : Block) (g : Granule) (hz : Calm K z s) :
    Calm K z (readBlock s str cb expect who b g).1 := by
  unfold readBlock
  extract_lets x0 s1
  have h2 : Calm K z s1 := ite_calm (count_calm hz) hz
  clear_value s1
  split
  · dsimp only
    exact poolBad_calm _ _ _ _ _ h2
  · split
    · dsimp only
      exact h2
    · dsimp only
      exact bucketEvent_calm _ (countN_calm _ (count_calm h2))

theorem unitEnd_calm {z s : State} (fail : Nat) (u : Nat × Nat) (hz : Calm K z s) : Calm K z (unitEnd fail s u) := by
  unfold unitEnd
  refine ite_calm ?_ ?_
  · exact unitDone_calm _ hz
  · exact ite_calm (stopRun_calm _ _ _ hz) (unitDone_calm _ (addCount1_calm _ _ hz))

theorem fillUnits_calm {z s : State} (h : Handler) (fail : Nat) (hz : Calm K z s) : Calm K z (fillUnits s h fail) := by
  unfold fillUnits
  extract_lets x0
  exact foldl_calm _ _ (fun s1 b2 h3 => unitEnd_calm _ _ h3) hz

theorem overlaid_calm {z s : State} (h : Handler) (b : Block) (fail : Nat) (hz : Calm K z s) :
    Calm K z (overlaid s h b fail).1 := by
  unfold overlaid
  split
  split
  · dsimp only
    exact poolBad_calm _ _ _ _ _ hz
  · dsimp only
    exact hz

theorem handAll_calm {z s : State} (h : Handler) (b : Block) (fail : Nat) (hz : Calm K z s) :
    Calm K z (handAll s h b fail) :=
  foldl_calm _ _ (fun _ _ h2 => handTo_calm _ _ _ h2) (dropHandler_calm _ hz)

theorem unitTimeout_calm {z s : State} (n : Nat) (u : Nat) (hz : Calm K z s) : Calm K z (unitTimeout s n u) :=
  unitDrop_calm _ _ (stopRun_calm _ _ _ hz)

theorem pageArrive_calm {z s : State} (n i : Nat) (b : Block) (fail : Nat) (hz : Calm K z s) : Calm K z (pageArrive s n i b fail) :=
  ite_calm (unitDone_calm _ (updRun_calm _ _ (updEpoch_calm _ hz))) (updEpoch_calm _ hz)

theorem readEnd_calm {z s : State} (h : Handler) (b : Block) (fail : Nat) (fixed : Nat) (hz : Calm K z s) :
    Calm K z (readEnd s h b fail fixed) := by
  unfold readEnd
  split
  · exact handAll_calm _ _ _ hz
  · exact pageArrive_calm _ _ _ _ (dropHandler_calm _ hz)
  · exact ite_calm (unitTimeout_calm _ _ (dropHandler_calm _ hz)) (updHandler_calm _ _ hz)
  · split
    rename_i s0 x4 x5 e2
    have h3 : Calm K z s0 := by
      rw [← show (_ : State × _).1 = s0 from congrArg Prod.fst e2]
      exact overlaid_calm _ _ _ hz
    exact foldl_calm _ _ (fun s6 b7 h8 => fetchEnd_calm _ _ _ _ h8) (dropHandler_calm _ h3)
  · split
    rename_i s9 x13 x14 e11
    have h12 : Calm K z s9 := by
      rw [← show (_ : State × _).1 = s9 from congrArg Prod.fst e11]
      exact overlaid_calm _ _ _ hz
    exact handAll_calm _ _ _ h12
  · refine ite_calm ?_ ?_
    · exact due2_calm _ (over2_calm _ (updHandler_calm _ _ hz))
    · split
      extract_lets s15 s16
      have h17 : Calm K z s15 := fillUnits_calm _ _ (handAll_calm _ _ _ hz)
      clear_value s15
      have h18 : Calm K z s16 := ite_calm (count_calm h17) h17
      clear_value s16
      split
      · exact ite_calm h18 (dropEntry_calm _ _ h18)
      · exact h18

theorem handlerArrived_calm {z s : State} (h : Handler) (b : Block) (g : Granule) (perr : Bool) (hz : Calm K z s) :
    Calm K z (handlerArrived s h b g perr) := by
  unfold handlerArrived
  extract_lets s0 s1
  have h2 : Calm K z s0 := ite_calm (bufParity_calm _ _ hz) hz
  clear_value s0
  have h3 : Calm K z s1 := updHandler_calm _ _ h2
  clear_value s1
  refine ite_calm ?_ ?_
  · exact ite_calm (readEnd_calm _ _ _ _ h2) (askBlock_calm _ _ _ h3)
  · split
    rename_i s4 x8 e6
    have h7 : Calm K z s4 := by
      rw [← show (_ : State × _).1 = s4 from congrArg Prod.fst e6]
      exact readBlock_calm _ _ _ _ _ _ h2
    exact ite_calm (readEnd_calm _ _ _ _ (poolBad_calm _ _ _ _ _ h7)) (readEnd_calm _ _ _ _ h7)

theorem endParts_calm {z s : State} (o : ReadOwner) (e : Bool) (hz : Calm K z s) : Calm K z (endParts s o e) := by
  unfold endParts
  extract_lets x0 x1 x2
  exact Calm.upd hz

theorem dropRead_calm {z s : State} (tag : Nat) (hz : Calm K z s) : Calm K z (dropRead s tag) := Calm.upd hz

theorem updRead_calm {z s : State} (tag : Nat) (f : MRead → MRead) (hz : Calm K z s) : Calm K z (updRead s tag f) :=
  Calm.upd hz

theorem flushMet_calm {z s : State} (i : Nat) (hz : Calm K z s) : Calm K z (flushMet s i) := by
  unfold flushMet
  split
  · split
    · extract_lets s0 x1 s2
      have h3 : Calm K z s0 := foldl_calm _ _ (fun s4 b5 h6 => updReq_calm _ _ h6) hz
      clear_value s0
      have h7 : Calm K z s2 := ite_calm (Calm.upd h3) h3
      clear_value s2
      exact dropSlot_calm _ h7
    · exact hz
  · exact hz

theorem noData_calm {z s : State} (o : ReadOwner) (fail : Nat) (hz : Calm K z s) : Calm K z (noData s o fail) := by
  unfold noData
  split
  · split
    · exact readEnd_calm _ _ _ _ hz
    · exact hz
  · exact completeSlot_calm _ _ _ hz
  · exact updSlot_calm _ _ hz
  · exact hz

theorem failUnsent_calm {z s : State}  (hz : Calm K z s) : Calm K z (failUnsent s) := by
  unfold failUnsent
  extract_lets x0 x1 s2 s3
  have h2 : Calm K z s2 := Calm.upd hz
  have h3 : Calm K z s3 := foldl_calm _ _ (fun s h hs => noData_calm _ _ hs) h2
  clear_value s2 s3
  refine foldl_calm _ _ (fun s4 b5 h6 => ?_) h3
  split
  · split
    · exact ite_calm (noData_calm _ _ (endParts_calm _ _ h6)) h6
    · exact h6
  · exact endParts_calm _ _ (updSlot_calm _ _ h6)
  · exact noData_calm _ _ h6

theorem probeFailed_calm {z s : State}  (hz : Calm K z s) : Calm K z (probeFailed s) := by
  unfold probeFailed
  extract_lets x0 s1 x2 x3 s4
  have h5 : Calm K z s1 := Calm.upd hz
  clear_value s1
  have h6 : Calm K z s4 := Calm.upd h5
  clear_value s4
  exact ite_calm h5 (failUnsent_calm (event_calm _ _ _ h6))

theorem probeMet_calm {z s : State}  (hz : Calm K z s) : Calm K z (probeMet s) := by
  unfold probeMet
  extract_lets x0 s1 x2 s3
  have h4 : Calm K z s1 := Calm.upd hz
  clear_value s1
  have h5 : Calm K z s3 := ite_calm (event_calm _ _ _ (Calm.upd h4)) h4
  clear_value s3
  exact foldl_calm _ _ (fun s6 b7 h8 => askRead_calm _ _ _ _ (updSlot_calm _ _ h8)) h5

theorem recoveryProbe_calm {z s : State}  (hz : Calm K z s) : Calm K z (recoveryProbe s) := by
  unfold recoveryProbe
  split
  · exact probeFailed_calm hz
  · extract_lets x0 x1
    exact sendRead_calm _ _ (Calm.upd hz)

theorem recoveryTrain_calm {z s : State}  (hz : Calm K z s) : Calm K z (recoveryTrain s) := by
  unfold recoveryTrain
  extract_lets x0 s1
  have h2 : Calm K z s1 := Calm.upd hz
  clear_value s1
  exact ite_calm (ite_calm (emit_calm _ h2) h2) (recoveryProbe_calm h2)

theorem startRecovery_calm {z s : State} (cause : Nat) (hz : Calm K z s) : Calm K z (startRecovery s cause) :=
  ite_calm hz (recoveryTrain_calm (count_calm (Calm.upd hz)))

theorem linkDown_calm {z s : State} (hz : Calm K z s) : Calm K z (linkDown s) := Calm.upd hz

theorem linkLost_calm {z s : State}  (hz : Calm K z s) : Calm K z (linkLost s) :=
  ite_calm hz (ite_calm (recoveryProbe_calm (linkDown_calm hz)) (startRecovery_calm _ (linkDown_calm hz)))

theorem trained_calm {z s : State} (speed : BitVec 4) (width : BitVec 4) (hz : Calm K z s) :
    Calm K z (trained s speed width) := by
  unfold trained
  extract_lets x0 x1 x2 s3
  have h4 : Calm K z s3 := Calm.upd hz
  clear_value s3
  exact ite_calm (event_calm _ _ _ h4) h4

theorem linkUp_calm {z s : State} (speed : BitVec 4) (width : BitVec 4) (hz : Calm K z s) :
    Calm K z (linkUp s speed width) := by
  unfold linkUp
  extract_lets s1 s2 s3
  have h1 : Calm K z s1 := ite_calm hz (emit_calm _ hz)
  clear_value s1
  have h3 : Calm K z s3 := trained_calm _ _ (Calm.upd h1)
  clear_value s3
  exact ite_calm (recoveryProbe_calm h3) h3

theorem aerEvent_calm {z s : State}  (hz : Calm K z s) : Calm K z (aerEvent s) := event_calm _ _ _ (raiseInt_calm _ hz)

theorem aerCorSet_calm {z s : State} (b : Nat) (hz : Calm K z s) : Calm K z (aerCorSet s b) :=
  aerEvent_calm (bucketEvent_calm _ (Calm.upd hz))

theorem aerUncSet_calm {z s : State} (b : Nat) (hz : Calm K z s) : Calm K z (aerUncSet s b) :=
  aerEvent_calm (Calm.upd hz)

theorem bytesArrived_calm {z s : State} (h : Handler) (a n : Nat) (perr : Bool) (hz : Calm K z s) : Calm K z (bytesArrived s h a n perr) := by
  unfold bytesArrived
  dsimp only
  split
  · refine ite_calm (readEnd_calm _ _ _ _ hz) ?_
    have h1 : Calm K z (bufParity s 6 12) := bufParity_calm _ _ hz
    split
    · exact ite_calm (readEnd_calm _ _ _ _ h1) (askRead_calm _ _ _ _ (updEpoch_calm _ h1))
    · exact readEnd_calm _ _ _ _ h1
  · exact readEnd_calm _ _ _ _ hz

theorem partArrived_calm {z s : State} (m : MRead) (perr : Bool) (hz : Calm K z s) : Calm K z (partArrived s m perr) := by
  unfold partArrived
  extract_lets x0 x1
  split
  · split
    · exact hz
    · split
      · exact bytesArrived_calm _ _ _ _ hz
      · extract_lets x2 s3
        have h4 : Calm K z s3 := updHandler_calm _ _ hz
        clear_value s3
        split
        · exact handlerArrived_calm _ _ _ _ h4
        · exact h4
  · split
    · exact hz
    · extract_lets x5 s6
      have h7 : Calm K z s6 := updSlot_calm _ _ hz
      clear_value s6
      split
      · exact completeSlot_calm _ _ _ (count_calm (readBlock_calm _ _ _ _ _ _ h7))
      · exact h7
  · exact flushMet_calm _ hz
  · exact hz

theorem dataCpl_calm {z s : State} (m : MRead) (tag : Nat) (c : Cpl) (perr : Bool) (hz : Calm K z s) :
    Calm K z (dataCpl s m tag c perr) := by
  unfold dataCpl
  split
  · extract_lets x0
    exact ite_calm (partArrived_calm _ _ (dropRead_calm _ hz)) (updRead_calm _ _ hz)
  · extract_lets s1 x2 s3
    have h4 : Calm K z s1 := logMemViol_calm _ _ hz
    clear_value s1
    have h5 : Calm K z s3 := ite_calm (dropRead_calm _ h4) (updRead_calm _ _ h4)
    clear_value s3
    exact noData_calm _ _ (endParts_calm _ _ h5)

theorem lateCpl_calm {z s : State} (m : MRead) (tag : Nat) (c : Cpl) (hz : Calm K z s) : Calm K z (lateCpl s m tag c) := by
  unfold lateCpl
  extract_lets s0 x1
  have h2 : Calm K z s0 := count_calm hz
  clear_value s0
  exact ite_calm (dropRead_calm _ h2) (updRead_calm _ _ h2)

theorem flushCpl_calm {z s : State} (i : Nat) (tag : Nat) (m : MRead) (c : Cpl) (hz : Calm K z s) :
    Calm K z (flushCpl s i tag m c) := by
  unfold flushCpl
  refine ite_calm ?_ ?_
  · exact flushMet_calm _ (dropRead_calm _ hz)
  · exact startRecovery_calm _ (noData_calm _ _ (dropRead_calm _ (logMemViol_calm _ _ hz)))

theorem readTimeout_calm {z s : State} (m : MRead) (hz : Calm K z s) : Calm K z (readTimeout s m) := by
  unfold readTimeout
  split
  extract_lets s0 s1
  have h2 : Calm K z s0 := noData_calm _ _ (endParts_calm _ _ hz)
  clear_value s0
  have h3 : Calm K z s1 := event_calm _ _ _ (count_calm h2)
  clear_value s1
  exact startRecovery_calm _ (raiseInt_calm _ h3)

theorem turnOffDone_calm {z s : State} (acked : Bool) (hz : Calm K z s) : Calm K z (turnOffDone s acked) := by
  unfold turnOffDone
  extract_lets s0 s1
  have h2 : Calm K z s0 := ite_calm hz (logMemViol_calm _ _ hz)
  clear_value s0
  exact ite_calm (Calm.upd (linkDown_calm h2)) h2

theorem vaultStatus_calm {z s : State} (valid : BitVec 8) (hz : Calm K z s) : Calm K z (vaultStatus s valid) := by
  unfold vaultStatus
  extract_lets x0 s1 x2
  have h3 : Calm K z s1 := Calm.upd hz
  clear_value s1
  split
  · exact Calm.upd h3
  · exact Calm.upd h3

theorem loadScree_calm {z s : State} (i : Nat) (hz : Calm K z s) : Calm K z (loadScree s i) := by
  unfold loadScree
  extract_lets x0 x1
  exact Calm.upd hz

theorem vaultScan_calm {z s : State}  (hz : Calm K z s) : Calm K z (vaultScan s) := by
  unfold vaultScan
  extract_lets x0 x1 x2 s3 x4
  have h5 : Calm K z s3 := vaultStatus_calm _ (Calm.upd hz)
  clear_value s3
  split
  · exact loadScree_calm _ h5
  · exact Calm.upd h5

theorem putSlot_calm {z s : State} (i : Nat) (lo : Nat) (n : Nat) (img : BitVec 65536) (hz : Calm K z s) (nslots : ¬ K .slots := by assumption) :
    Calm K z (putSlot s i lo n img) := by
  unfold putSlot
  extract_lets x0 x1
  exact Calm.upd hz

theorem vaultSaved_calm {z s : State} (i : Nat) (cause : Nat) (img : BitVec 65536) (hz : Calm K z s) (nslots : ¬ K .slots := by assumption) :
    Calm K z (vaultSaved s i cause img) := by
  unfold vaultSaved
  extract_lets s0 s1
  have h2 : Calm K z s0 := putSlot_calm _ _ _ _ hz
  clear_value s0
  have h3 : Calm K z s1 := vaultStatus_calm _ h2
  clear_value s1
  exact event_calm _ _ _ h3

theorem saveUnit_calm {z s : State} (i : Nat) (u : Nat) (img : BitVec 65536) (hz : Calm K z s) (nslots : ¬ K .slots := by assumption) :
    Calm K z (saveUnit s i u img) :=
  ite_calm (putSlot_calm _ _ _ _ hz) (putSlot_calm _ _ _ _ hz)

theorem saveAll_calm {z s : State} (i : Nat) (cause : Nat) (img : BitVec 65536) (hz : Calm K z s) (nslots : ¬ K .slots := by assumption) :
    Calm K z (saveAll s i cause img) :=
  vaultSaved_calm _ _ _ (putSlot_calm _ _ _ _ hz)

theorem removeAcc_calm {z s : State} (id : Nat) (hz : Calm K z s) : Calm K z (removeAcc s id) := Calm.upd hz

theorem wordRead_calm {z : State} (pos k : Nat) (a : State × List (BitVec 64) × Bool) (x : Nat × (BitVec 64 × BitVec 8))
    (h : Calm K z a.1) : Calm K z (wordRead pos k a x).1 := by
  unfold wordRead
  split
  · exact h
  · exact suspectEvent_calm _ _ _ (bucketEvent_calm _ (count_calm h))
  · exact suspectEvent_calm _ _ _ (event_calm _ _ _ (bucketEvent_calm _ (count_calm h)))

theorem sectorRead_calm {z s : State} (pos k : Nat) (ws : List (BitVec 64 × BitVec 8)) (hz : Calm K z s) :
    Calm K z (sectorRead s pos k ws).1 := by
  have (l : List (Nat × BitVec 64 × BitVec 8)) : ∀ a : State × List (BitVec 64) × Bool, Calm K z a.1 →
      Calm K z (l.foldl (wordRead pos k) a).1 := by
    induction l with
    | nil => exact fun a h => h
    | cons x l ih => exact fun a h => ih _ (wordRead_calm pos k a x h)
  exact this _ _ hz

theorem sectorsRead_calm {z s : State} (pos : Nat) (ks : List Nat) (ws : List (BitVec 64 × BitVec 8)) (hz : Calm K z s) :
    Calm K z (sectorsRead s pos ks ws).1 := by
  induction ks generalizing s ws with
  | nil => exact hz
  | cons k ks ih => exact ih _ (sectorRead_calm _ _ _ hz)

theorem queueClear_calm {z s : State} (pos : Nat) (ks : List Nat) (hz : Calm K z s) : Calm K z (queueClear s pos ks) :=
  Calm.upd hz

theorem accGood_calm {z s : State} (a : Acc) (b : Block) (hz : Calm K z s) : Calm K z (accGood s a b) := by
  unfold accGood
  split
  · split
    · exact hz
    · extract_lets x0 s1
      have h2 : Calm K z s1 := updReq_calm _ _ hz
      clear_value s1
      exact respond_calm _ _ _ _ h2
  · extract_lets s1
    have h1 : Calm K z s1 := updSlot_calm _ _ hz
    clear_value s1
    split
    · exact ite_calm (count_calm h1) h1
    · exact h1
  · exact fetchEnd_calm _ _ _ _ hz
  · exact updRun_calm _ _ hz
  · exact hz
  · exact hz

theorem accBad_calm {z s : State} (a : Acc) (bad : List Nat) (hz : Calm K z s) : Calm K z (accBad s a bad) := by
  unfold accBad
  extract_lets s0
  have h1 : Calm K z s0 := queueClear_calm _ _ (count_calm hz)
  clear_value s0
  split
  · exact updReq_calm _ _ h1
  · exact updSlot_calm _ _ h1
  · exact updReq_calm _ _ h1
  · exact h1
  · exact h1
  · exact h1

theorem updAcc_calm {z s : State} (i : Nat) (f : Acc → Acc) (hz : Calm K z s) : Calm K z (updAcc s i f) := Calm.upd hz

theorem serveSector_calm {z s : State} (b : Block) (i : Nat) (k : Nat) (hz : Calm K z s) : Calm K z (serveSector b i s k) := by
  unfold serveSector
  split
  · exact ite_calm hz (ite_calm (accGood_calm _ _ (removeAcc_calm _ hz)) (updAcc_calm _ _ hz))
  · exact hz

theorem serveBehind_calm {z s : State} (w : Acc) (b : Block) (ks : List Nat) (hz : Calm K z s) : Calm K z (serveBehind s w b ks) :=
  foldl_calm _ _ (fun _ _ h2 => foldl_calm _ _ (fun _ _ h3 => serveSector_calm _ _ _ h3) h2) hz

theorem writeBurst_calm {z s : State} (a : Acc) (k : Nat) (hz : Calm K z s) : Calm K z (writeBurst s a k) := emit_calm _ hz

theorem yieldBank_calm {z s : State} (a : Acc) (hz : Calm K z s) : Calm K z (yieldBank s a) :=
  ite_calm (count_calm (Calm.upd hz)) hz

theorem issueAcc_calm {z s : State} (a : Acc) (hz : Calm K z s) : Calm K z (issueAcc s a) := by
  unfold issueAcc
  extract_lets s0
  have h0 : Calm K z s0 := yieldBank_calm _ hz
  clear_value s0
  split
  · exact h0
  · exact ite_calm (ite_calm (serveBehind_calm _ _ _ (removeAcc_calm _ (writeBurst_calm _ _ h0))) (updAcc_calm _ _ (writeBurst_calm _ _ h0)))
      (updAcc_calm _ _ (emit_calm _ (ite_calm (count_calm h0) h0)))

theorem rmwWrite_calm {z s : State} (a : Acc) (b : Block) (bad : List Nat) (hz : Calm K z s) :
    Calm K z (rmwWrite s a b bad) := by
  unfold rmwWrite
  extract_lets x0 s1 s2
  have h3 : Calm K z s1 := by
    unfold s1
    refine foldl_calm _ _ (fun s4 b5 h6 => ?_) ?_
    · extract_lets x7 x8
      exact emit_calm _ h6
    · exact hz
  clear_value s1
  have h9 : Calm K z s2 := removeAcc_calm _ h3
  clear_value s2
  exact ite_calm (serveBehind_calm _ _ _ h9) (queueClear_calm _ _ h9)

theorem accData_calm {z s : State} (a : Acc) (ws : List (BitVec 64 × BitVec 8)) (hz : Calm K z s) : Calm K z (accData s a ws) := by
  have h := sectorsRead_calm a.pos (todo a) ws hz
  unfold accData
  revert h
  generalize sectorsRead s a.pos (todo a) ws = x
  obtain ⟨t, b, bad⟩ := x
  intro h
  exact ite_calm (rmwWrite_calm _ _ _ h) (ite_calm (accGood_calm _ _ (removeAcc_calm _ h)) (accBad_calm _ _ (removeAcc_calm _ h)))

theorem installEnd_calm {z s : State} (h : Handler) (b : Block) (hz : Calm K z s) : Calm K z (installEnd s h b) :=
  fillUnits_calm _ _ (handAll_calm _ _ _ hz)

theorem installFill_calm {z s : State} (h : Handler) (b : Block) (hz : Calm K z s) : Calm K z (installFill s h b) := by
  unfold installFill
  split
  · exact installEnd_calm _ _ hz
  · exact ite_calm (ite_calm (installEnd_calm _ _ (addRuns_calm _ _ _ _ _ _ _ (tagPut_calm _ _ hz))) (installEnd_calm _ _ hz))
      (installEnd_calm _ _ (addAcc_calm _ _ _ _ _ _ _ (tagPut_calm _ _ hz)))

theorem install_calm {z s : State} (h : Handler) (b : Block) (hz : Calm K z s) : Calm K z (install s h b) := by
  unfold install
  split
  rename_i s0 x4 x5 e2
  have h3 : Calm K z s0 := by
    rw [← show (_ : State × _).1 = s0 from congrArg Prod.fst e2]
    exact overlaid_calm _ _ _ hz
  refine ite_calm ?_ ?_
  · exact readEnd_calm _ _ _ _ h3
  · refine ite_calm ?_ ?_
    · exact installEnd_calm _ _ hz
    · extract_lets x6
      refine ite_calm ?_ ?_
      · exact installEnd_calm _ _ (cancelFills_calm _ (tagParity_calm _ _ hz))
      · exact installFill_calm _ _ hz

theorem clearSector_calm {z s : State} (pos : Nat) (k : Nat) (hz : Calm K z s) : Calm K z (clearSector s pos k) := by
  unfold clearSector
  refine ite_calm ?_ ?_
  · exact invalPos_calm _ _ hz
  · extract_lets x0
    exact ite_calm (tagPut_calm _ _ hz) hz

theorem clearSet_calm {z s : State} (set : Nat) (hz : Calm K z s) : Calm K z (clearSet s set) := by
  unfold clearSet
  extract_lets s0 s1 s2
  have h3 : Calm K z s0 := count_calm hz
  have h4 : Calm K z s1 := foldl_calm _ _ (fun s5 b6 h7 => tagPutBits_calm _ _ h7) h3
  have h8 : Calm K z s2 := cancelFills_calm _ h4
  exact ite_calm (queueProbe_calm _ _ _ h8) h8

theorem retirePos_calm {z s : State} (pos : Nat) (cause : Nat) (hz : Calm K z s) : Calm K z (retirePos s pos cause) := by
  unfold retirePos
  refine ite_calm ?_ ?_
  · exact raiseInt_calm _ (event_calm _ _ _ (Calm.upd hz))
  · extract_lets s0 x1 s2 x3 s4
    have h5 : Calm K z s0 := invalPos_calm _ _ hz
    clear_value s0
    have h6 : Calm K z s2 := ite_calm (Calm.upd h5) h5
    clear_value s2
    have h7 : Calm K z s4 := ite_calm h6 (Calm.upd h6)
    clear_value s4
    exact raiseInt_calm _ (event_calm _ _ _ (count_calm h7))

theorem prefetch_calm {z s : State} (c : Candidate) (hz : Calm K z s) : Calm K z (prefetch s c) := by
  unfold prefetch
  split
  · exact hz
  · cases lookup s c.cb 0xFF with
    | parErr bad => exact tagParity_calm _ _ hz
    | hit w => exact hz
    | smiss w => exact hz
    | filtered => exact hz
    | miss =>
      dsimp only
      split
      · exact hz
      · cases pfHandler s with
        | none => exact count_calm hz
        | some i =>
          dsimp only
          split
          · exact count_calm hz
          · split
            · next hf => exact count_calm (fillStart_calm _ _ hz _ hf)
            · exact hz

theorem cspFail_calm {z s : State} (err : Nat) (step : Nat) (lane : Nat) (hz : Calm K z s) :
    Calm K z (cspFail s err step lane) := by
  unfold cspFail
  extract_lets x0 s1
  have h2 : Calm K z s1 := Calm.upd hz
  clear_value s1
  exact event_calm _ _ _ h2

theorem cspReady_calm {z s : State}  (hz : Calm K z s) : Calm K z (cspReady s) := Calm.upd hz

theorem cspLost_calm {z s : State}  (hz : Calm K z s) : Calm K z (cspLost s) := by
  unfold cspLost
  extract_lets x0 s1
  have h2 : Calm K z s1 := Calm.upd hz
  clear_value s1
  exact ite_calm (cacheLoss_calm h2) (foldl_calm _ _ (fun s3 b4 h5 => dropAccess_calm _ h5) h2)

theorem cspStart_calm {z s : State}  (hz : Calm K z s) : Calm K z (cspStart s) := by
  unfold cspStart
  refine ite_calm ?_ ?_
  · exact hz
  · extract_lets s0 x1
    have h2 : Calm K z s0 := cspLost_calm hz
    clear_value s0
    exact Calm.upd h2

theorem newRecord_calm {z s : State}  (hz : Calm K z s) : Calm K z (newRecord s) := by
  unfold newRecord
  split
  rename_i x4 s0 e2
  have h3 : Calm K z s0 := by
    rw [← show (_ : _ × State).2 = s0 from congrArg Prod.snd e2]
    exact nextFree_calm hz
  extract_lets x5 x6
  exact Calm.upd h3

theorem cspStep_calm {z s : State} (k : Nat) (hz : Calm K z s) : Calm K z (cspStep s k) := Calm.upd hz

theorem zqLong_calm {z s : State} (n : Nat) (hz : Calm K z s) : Calm K z (zqLong s n) := foldl_calm _ _ (fun _ _ h => emit_calm _ h) hz

theorem writeModes_calm {z s : State} (hz : Calm K z s) : Calm K z (writeModes s) :=
  foldl_calm _ _ (fun _ _ h => foldl_calm _ _ (fun _ _ h => emit_calm _ h) h) hz

theorem cspNext_calm {z s : State} (r : InitResult) (hz : Calm K z s) : Calm K z (cspNext s r) := by
  unfold cspNext
  split
  · exact ite_calm (cspFail_calm _ _ _ hz) (cspStep_calm _ (Calm.upd hz))
  · exact cspStep_calm _ (Calm.upd hz)
  · exact cspStep_calm _ (writeModes_calm (Calm.upd hz))
  · exact cspStep_calm _ (zqLong_calm _ hz)
  · split
    · exact cspStep_calm _ (Calm.upd hz)
    · exact cspStep_calm _ hz
  · split
    · exact cspStep_calm _ hz
    · exact cspFail_calm _ _ _ hz
  · split
    · exact cspStep_calm _ hz
    · exact ite_calm (cspStep_calm _ (Calm.upd hz)) (cspFail_calm _ _ _ hz)
  · split
    · exact ite_calm (cspReady_calm (Calm.upd hz)) (cspReady_calm (newRecord_calm hz))
    · exact ite_calm (cspStep_calm _ (Calm.upd hz)) (cspFail_calm _ _ _ hz)
  · exact hz

theorem cspAlert_calm {z s : State} (rank : Nat) (hz : Calm K z s) : Calm K z (cspAlert s rank) := by
  unfold cspAlert
  extract_lets s0 x1
  have h2 : Calm K z s0 := event_calm _ _ _ (count_calm hz)
  clear_value s0
  exact cspLost_calm (Calm.upd h2)

theorem cspWoken_calm {z s : State} (pass : Bool) (hz : Calm K z s) : Calm K z (cspWoken s pass) := by
  unfold cspWoken
  extract_lets x0 s1 x2 x3 s4
  have h5 : Calm K z s1 := zqLong_calm _ (Calm.upd hz)
  clear_value s1
  have h6 : Calm K z s4 := Calm.upd h5
  clear_value s4
  exact ite_calm (cspReady_calm h5) (cacheLoss_calm (event_calm _ _ _ h6))

theorem cspSleep_calm {z s : State}  (hz : Calm K z s) : Calm K z (cspSleep s) := by
  unfold cspSleep
  refine ite_calm ?_ ?_
  · extract_lets s0 s1 x2
    have h3 : Calm K z s0 := foldl_calm _ _ (fun s4 b5 h6 => count_calm (emit_calm _ h6)) hz
    clear_value s0
    have h7 : Calm K z s1 := foldl_calm _ _ (fun s8 b9 h10 => emit_calm _ h10) h3
    clear_value s1
    exact Calm.upd h7
  · exact Calm.upd hz

theorem clkRaised_calm {z s : State}  (hz : Calm K z s) (nclk : ¬ K .clk := by assumption) : Calm K z (clkRaised s) :=
  raiseInt_calm _ (Calm.upd hz)

theorem startRelock_calm {z s : State} (trigger : Nat) (hz : Calm K z s) (nclk : ¬ K .clk := by assumption) :
    Calm K z (startRelock s trigger) :=
  count_calm (Calm.upd hz)

theorem relockEnd_calm {z s : State}  (hz : Calm K z s) (nclk : ¬ K .clk := by assumption) : Calm K z (relockEnd s) := by
  unfold relockEnd
  extract_lets x0 x1
  exact event_calm _ _ _ (Calm.upd hz)

theorem lockWindow_calm {z s : State} (n : Nat) (hz : Calm K z s) (nclk : ¬ K .clk := by assumption) :
    Calm K z (lockWindow s n) := by
  unfold lockWindow
  refine ite_calm ?_ ?_
  · exact hz
  · extract_lets x0 s1
    have h2 : Calm K z s1 := count_calm (Calm.upd hz)
    clear_value s1
    exact startRelock_calm _ (clkRaised_calm (event_calm _ _ _ h2))

theorem driftFault_calm {z s : State} (d : Int) (hz : Calm K z s) (nclk : ¬ K .clk := by assumption) :
    Calm K z (driftFault s d) := by
  unfold driftFault
  extract_lets x0 x1 s2 s3
  have h4 : Calm K z s2 := Calm.upd hz
  clear_value s2
  have h5 : Calm K z s3 := clkRaised_calm (event_calm _ _ _ h4)
  clear_value s3
  exact ite_calm (linkLost_calm h5) h5

theorem monWindow_calm {z s : State} (n : Nat) (hz : Calm K z s) (nclk : ¬ K .clk := by assumption) :
    Calm K z (monWindow s n) := by
  unfold monWindow
  extract_lets x0 x1 x2 x3 s4 x5 s6 x7 s8 x9
  have h10 : Calm K z s4 := Calm.upd hz
  clear_value s4
  have h11 : Calm K z s6 := ite_calm (clkRaised_calm (event_calm _ _ _ (Calm.upd h10))) h10
  clear_value s6
  have h12 : Calm K z s8 := ite_calm (clkRaised_calm (event_calm _ _ _ (count_calm (Calm.upd h11)))) h11
  clear_value s8
  exact ite_calm (ite_calm (driftFault_calm _ h12) h12) (Calm.upd h12)

theorem syncRun_calm {z s : State} (n : Nat) (hz : Calm K z s) (nclk : ¬ K .clk := by assumption) : Calm K z (syncRun s n) := by
  unfold syncRun
  split
  · exact Calm.upd hz
  · exact hz

theorem refBack_calm {z s : State}  (hz : Calm K z s) (nclk : ¬ K .clk := by assumption) (nundef : ¬ K .undef := by assumption) :
    Calm K z (refBack s) :=
  ite_calm (breach_calm _ hz) (Calm.upd hz)

theorem setFail_calm {z s : State} (rsn : Nat) (hz : Calm K z s) : Calm K z (setFail s rsn) := by
  unfold setFail
  extract_lets x0 s1
  have h2 : Calm K z s1 := Calm.upd hz
  clear_value s1
  exact raiseInt_calm _ (event_calm _ _ _ h2)

theorem armEntry_calm {z s : State} (off : Bool) (hz : Calm K z s) : Calm K z (armEntry s off) := ite_calm hz (Calm.upd hz)

theorem sleepEdge_calm {z s : State}  (hz : Calm K z s) : Calm K z (sleepEdge s) :=
  ite_calm (Calm.upd hz) (armEntry_calm _ hz)

theorem sleepWrite_calm {z s : State}  (hz : Calm K z s) : Calm K z (sleepWrite s) :=
  ite_calm (Calm.upd hz) (ite_calm (armEntry_calm _ hz) (setFail_calm _ hz))

theorem offWrite_calm {z s : State}  (hz : Calm K z s) : Calm K z (offWrite s) :=
  ite_calm hz (ite_calm (armEntry_calm _ hz) (setFail_calm _ hz))

theorem abortRuns_calm {z s : State}  (hz : Calm K z s) : Calm K z (abortRuns s) := by
  unfold abortRuns
  refine foldl_calm _ _ (fun _ _ h2 => ?_) ?_
  · split
    · exact ite_calm h2 (stopRun_calm _ _ _ h2)
    · exact h2
  · exact hz

theorem beginEntry_calm {z s : State} (off : Bool) (hz : Calm K z s) : Calm K z (beginEntry s off) := by
  unfold beginEntry
  extract_lets x0 x1 s2
  have h3 : Calm K z s2 := Calm.upd hz
  clear_value s2
  exact wakeAll_calm (abortRuns_calm h3)

theorem setStep_calm {z s : State} (e : EStep) (hz : Calm K z s) : Calm K z (setStep s e) := Calm.upd hz

theorem markAll_calm {z s : State}  (hz : Calm K z s) : Calm K z (markAll s) :=
  foldl_calm _ _ (fun _ _ h2 => markEntry_calm _ _ h2) hz

theorem entryFlush_calm {z s : State}  (hz : Calm K z s) : Calm K z (entryFlush s) := by
  unfold entryFlush
  extract_lets x0
  exact askRead_calm _ _ _ _ (addSlot_calm _ hz)

theorem abandon_calm {z s : State} (rsn : Nat) (hz : Calm K z s) : Calm K z (abandon s rsn) :=
  setFail_calm _ (Calm.upd hz)

theorem offReady_calm {z s : State}  (hz : Calm K z s) : Calm K z (offReady s) := Calm.upd hz

theorem turnOff_calm {z s : State}  (hz : Calm K z s) (nslots : ¬ K .slots := by assumption) : Calm K z (turnOff s) := by
  unfold turnOff
  extract_lets s0
  have h1 : Calm K z s0 := ite_calm (saveAll_calm _ _ _ hz) hz
  clear_value s0
  exact ite_calm (setStep_calm _ (sendTlp_calm _ h1)) (offReady_calm (turnOffDone_calm _ h1))

theorem entryStep_calm {z s : State} (e : EntryRun) (hz : Calm K z s) (nslots : ¬ K .slots := by assumption) :
    Calm K z (entryStep s e) := by
  unfold entryStep
  split
  · exact hz
  · exact ite_calm (setStep_calm _ (markAll_calm hz)) hz
  · exact ite_calm (markAll_calm hz) (ite_calm (setStep_calm _ (entryFlush_calm hz)) hz)
  · exact ite_calm hz (ite_calm (turnOff_calm hz) (ite_calm (abandon_calm _ hz) (setStep_calm _ hz)))
  · exact hz
  · exact hz

theorem takeBedrock_calm {z s : State}  (hz : Calm K z s) : Calm K z (takeBedrock s) := Calm.upd hz

theorem takePhy_calm {z s : State}  (hz : Calm K z s) : Calm K z (takePhy s) := Calm.upd hz

theorem takePosted_calm {z s : State}  (hz : Calm K z s) : Calm K z (takePosted s) := by
  unfold takePosted
  extract_lets s0
  have h1 : Calm K z s0 := ite_calm (takeBedrock_calm hz) hz
  clear_value s0
  exact ite_calm (takePhy_calm h1) h1

theorem wakeStart_calm {z s : State}  (hz : Calm K z s) (nphase : ¬ K .phase := by assumption) (ntap : ¬ K .tap := by assumption) (nclk : ¬ K .clk := by assumption) :
    Calm K z (wakeStart s) := by
  unfold wakeStart
  extract_lets x0 s1 x2 x3 x4 x5 x6 x7 x8 x9 s10
  have h11 : Calm K z s1 := ite_calm (logMemViol_calm _ _ (Calm.upd hz)) hz
  clear_value s1
  have h12 : Calm K z s10 := resetDetectors_calm (Calm.upd h11)
  clear_value s10
  exact ite_calm (startRelock_calm _ h12) h12

theorem sleepNow_calm {z s : State}  (hz : Calm K z s) (nphase : ¬ K .phase := by assumption) (ntap : ¬ K .tap := by assumption) (nclk : ¬ K .clk := by assumption) (nsync : ¬ K .sync := by assumption) :
    Calm K z (sleepNow s) := by
  unfold sleepNow
  extract_lets x0 s1 x2 x3 x4 s4
  have h5 : Calm K z s1 := takePosted_calm (cspSleep_calm (Calm.upd hz))
  clear_value s1
  have h6 : Calm K z s4 := Calm.upd h5
  clear_value s4
  exact ite_calm (wakeStart_calm h6) h6

theorem wakeEdge_calm {z s : State}  (hz : Calm K z s) (nphase : ¬ K .phase := by assumption) (ntap : ¬ K .tap := by assumption) (nclk : ¬ K .clk := by assumption) :
    Calm K z (wakeEdge s) :=
  ite_calm (wakeStart_calm hz) (ite_calm (Calm.upd hz) hz)

theorem setWake_calm {z s : State} (f : Wake → Wake) (hz : Calm K z s) : Calm K z (setWake s f) := Calm.upd hz

theorem mbistStart_calm {z s : State} (sel : BitVec 9) (hz : Calm K z s) : Calm K z (mbistStart s sel) := by
  unfold mbistStart
  refine ite_calm ?_ ?_
  · exact hz
  · refine ite_calm ?_ ?_
    · exact Calm.upd hz
    · exact ite_calm (Calm.upd hz) (ite_calm (Calm.upd hz) (wakeAll_calm (Calm.upd hz)))

theorem keyedChange_calm {z s : State}  (hz : Calm K z s) : Calm K z (keyedChange s) := by
  unfold keyedChange
  extract_lets x0 s1
  have h2 : Calm K z s1 := Calm.upd hz
  clear_value s1
  refine foldl_calm _ _ (fun s3 b4 h5 => ?_) ?_
  · split
    · exact ite_calm (updRun_calm _ _ h5) h5
    · exact h5
  · exact h2

theorem keyRefuse_calm {z s : State} (who : Nat) (off : Nat) (hz : Calm K z s) : Calm K z (keyRefuse s who off) :=
  count_calm (Calm.upd hz)

theorem keyWrite_calm {z s : State} (who : Nat) (val : Reg32) (hz : Calm K z s) : Calm K z (keyWrite s who val) :=
  ite_calm (Calm.upd hz) (Calm.upd hz)

theorem memberWrite_calm {z s : State}  (hz : Calm K z s) : Calm K z (memberWrite s) := Calm.upd hz

theorem refWrite_calm {z s : State} (val : Reg32) (hz : Calm K z s) (nregs : ¬ K .regs := by assumption) :
    Calm K z (refWrite s val) := by
  unfold refWrite
  extract_lets s0 x1
  have h2 : Calm K z s0 := regPut_calm _ _ hz
  clear_value s0
  exact Calm.upd h2

theorem discardResps_calm {z s : State} (p : Resp → Bool) (hz : Calm K z s) : Calm K z (discardResps s p) := by
  unfold discardResps
  extract_lets x0 x1 s2
  have h3 : Calm K z s2 := Calm.upd hz (hn := fun x y => ⟨x, fun q hq => y q (List.mem_of_mem_filter hq)⟩)
  clear_value s2
  refine foldl_calm _ _ (fun s4 b5 h6 => ?_) ?_
  · split
    · exact updReq_calm _ _ h6 (hf := fun q => by split <;> rfl)
    · exact h6
  · exact h3

/-- An update of responses that leaves their request alone. -/
theorem numbered_resps {l : List Resp} {n : Nat} (p : Resp → Bool) (f : Resp → Resp) (hf : ∀ r, (f r).req = r.req)
    (h : ∀ r ∈ l, ∀ i, r.req = some i → i < n) : ∀ r ∈ updIf l p f, ∀ i, r.req = some i → i < n := by
  intro r hr
  obtain ⟨q, hq, rfl⟩ := List.mem_map.mp hr
  split
  · exact fun i hi => h q hq i (hf q ▸ hi)
  · exact h q hq

theorem keepReady_calm {z s : State} (p : PortId) (hz : Calm K z s) : Calm K z (keepReady s p) :=
  Calm.upd hz (hn := fun x y => ⟨x, numbered_resps _ _ (fun _ => rfl) y⟩)

theorem agpWrite_calm {z s : State} (p : PortId) (val : Reg32) (hz : Calm K z s) (nregs : ¬ K .regs := by assumption) (nundef : ¬ K .undef := by assumption) :
    Calm K z (agpWrite s p val) := by
  unfold agpWrite
  extract_lets x0 s1 x2 s3
  have h1 : Calm K z s1 := regPut_calm _ _ hz
  clear_value s1
  have h3 : Calm K z s3 := ite_calm (keepReady_calm _ h1) h1
  exact ite_calm (breach_calm _ h1) (ite_calm (breach_calm _ h1) (foldl_calm _ _ (fun s7 b8 h9 => ackAll_calm _ _ _ h9) h3))

theorem reviveWrite_calm {z s : State} (val : Reg32) (hz : Calm K z s) : Calm K z (reviveWrite s val) :=
  ite_calm hz (queueProbe_calm _ _ _ hz)

theorem regionWrite_calm {z s : State} (off : Nat) (val : Reg32) (hz : Calm K z s) (nregs : ¬ K .regs := by assumption) (nundef : ¬ K .undef := by assumption) :
    Calm K z (regionWrite s off val) := by
  unfold regionWrite
  extract_lets x0 x1 x2 x3 s4 x5 x6 x7 x8
  have h9 : Calm K z s4 := regPut_calm _ _ hz
  clear_value s4
  refine ite_calm ?_ ?_
  · exact breach_calm _ h9
  · exact ite_calm (breach_calm _ h9) (ite_calm (Calm.upd h9) (ite_calm (Calm.upd h9) h9))

theorem fixedWrite_calm {z s : State} (off : Nat) (val : Reg32) (m : Reg32) (c : UndefCause) (hz : Calm K z s) (nregs : ¬ K .regs := by assumption) (nundef : ¬ K .undef := by assumption) :
    Calm K z (fixedWrite s off val m c) := by
  unfold fixedWrite
  extract_lets x0 s1
  have h2 : Calm K z s1 := regPut_calm _ _ hz
  clear_value s1
  exact ite_calm (breach_calm _ h2) h2

theorem cacheOn_calm {z s : State}  (hz : Calm K z s) : Calm K z (cacheOn s) := by
  unfold cacheOn
  split
  · extract_lets x0 x1 x2 s3
    have h4 : Calm K z s3 := resetDetectors_calm (Calm.upd hz)
    clear_value s3
    exact queueProbe_calm _ _ _ h4
  · exact Calm.upd hz

theorem cchCtrl_calm {z s : State} (val : Reg32) (hz : Calm K z s) : Calm K z (cchCtrl s val) := by
  unfold cchCtrl
  refine ite_calm ?_ ?_
  · exact ite_calm hz (cacheOn_calm hz)
  · extract_lets s0 x1
    have h2 : Calm K z s0 := disableCache_calm hz
    clear_value s0
    exact Calm.upd h2

theorem resetRing_calm {z s : State} (n : Nat) (hz : Calm K z s) : Calm K z (resetRing s n) :=
  ite_calm (updRing_calm _ _ hz) (ite_calm (Calm.upd hz) (Calm.upd hz))

theorem ringWrite_calm {z s : State} (off : Nat) (val : Reg32) (hz : Calm K z s) (nregs : ¬ K .regs := by assumption) (nundef : ¬ K .undef := by assumption) :
    Calm K z (ringWrite s off val) :=
  ite_calm (breach_calm _ hz) (resetRing_calm _ (regPut_calm _ _ (updRing_calm _ _ hz)))

theorem engEnable_calm {z s : State} (on : Bool) (hz : Calm K z s) : Calm K z (engEnable s on) := by
  unfold engEnable
  refine ite_calm ?_ ?_
  · refine ite_calm ?_ ?_
    · exact Calm.upd hz
    · refine ite_calm ?_ ?_
      · exact hz
      · extract_lets x0 x1 s2
        have h3 : Calm K z s2 := Calm.upd hz
        clear_value s2
        exact foldl_calm _ _ (fun s4 b5 h6 => updRing_calm _ _ h6) h3
  · exact Calm.upd hz

theorem cmdCtrl_calm {z s : State} (val : Reg32) (hz : Calm K z s) : Calm K z (cmdCtrl s val) := by
  unfold cmdCtrl
  extract_lets s0 s1
  have h2 : Calm K z s0 := foldl_calm _ _ (fun s3 b4 h5 => updRing_calm _ _ h5) hz
  clear_value s0
  have h6 : Calm K z s1 := foldl_calm _ _ (fun s7 b8 h9 => updRing_calm _ _ (Calm.upd h9)) h2
  clear_value s1
  exact engEnable_calm _ h6

theorem rswWrite_calm {z s : State} (val : Reg32) (hz : Calm K z s) : Calm K z (rswWrite s val) := by
  unfold rswWrite
  split
  · exact ite_calm (Calm.upd hz) hz
  · exact hz

theorem doorbell_calm {z s : State} (n : Nat) (tail : Nat) (hz : Calm K z s) : Calm K z (doorbell s n tail) :=
  ite_calm (event_calm _ _ _ hz) (updRing_calm _ _ hz)

theorem headWrite_calm {z s : State} (eq : Bool) (val : Reg32) (hz : Calm K z s) : Calm K z (headWrite s eq val) := by
  unfold headWrite
  extract_lets x0 x1 x2
  exact ite_calm (ite_calm (Calm.upd hz) hz) (ite_calm (Calm.upd hz) hz)

theorem dmaWrite_calm {z s : State} (val : Reg32) (hz : Calm K z s) : Calm K z (dmaWrite s val) :=
  foldl_calm _ _ (fun _ _ h2 => ite_calm (Calm.upd h2) h2) hz

theorem screeWrite_calm {z s : State} (val : Reg32) (hz : Calm K z s) : Calm K z (screeWrite s val) :=
  ite_calm (Calm.upd hz) hz

theorem linkCtrl_calm {z s : State} (val : Reg32) (hz : Calm K z s) (nregs : ¬ K .regs := by assumption) :
    Calm K z (linkCtrl s val) := by
  unfold linkCtrl
  extract_lets x0 x1 s2 s3 s4 x5 s6
  have h7 : Calm K z s2 := regPut_calm _ _ hz
  clear_value s2
  have h8 : Calm K z s3 := ite_calm (linkLost_calm h7) h7
  clear_value s3
  have h9 : Calm K z s4 := ite_calm (ite_calm (linkLost_calm h8) (ite_calm (recoveryProbe_calm h8) h8)) h8
  clear_value s4
  have h10 : Calm K z s6 := ite_calm (emit_calm _ (Calm.upd h9)) h9
  clear_value s6
  exact ite_calm (linkLost_calm (emit_calm _ h10)) h10

theorem pumpCfg_calm {z s : State} (hz : Calm K z s) : Calm K z (pumpCfg s) := hz.trans (pumpCfg_ext (Ext.refl s)).calm

theorem cfgaCtrl_calm {z s : State} (val : Reg32) (hz : Calm K z s) (nregs : ¬ K .regs := by assumption) :
    Calm K z (cfgaCtrl s val) := by
  unfold cfgaCtrl
  extract_lets s0 x1 x2 x3 x4 x5
  have h6 : Calm K z s0 := regPut_calm _ _ hz
  clear_value s0
  exact ite_calm (pumpCfg_calm (Calm.upd h6)) h6

theorem pllWrite_calm {z s : State} (val : Reg32) (hz : Calm K z s) (nregs : ¬ K .regs := by assumption) (nundef : ¬ K .undef := by assumption) :
    Calm K z (pllWrite s val) := by
  unfold pllWrite
  extract_lets x0 s1
  have h2 : Calm K z s1 := regPut_calm _ _ hz
  clear_value s1
  exact ite_calm (breach_calm _ h2) h2

theorem clkCtrl_calm {z s : State} (val : Reg32) (hz : Calm K z s) (nclk : ¬ K .clk := by assumption) (nundef : ¬ K .undef := by assumption) :
    Calm K z (clkCtrl s val) := by
  unfold clkCtrl
  extract_lets s0
  have h1 : Calm K z s0 := ite_calm (startRelock_calm _ hz) hz
  clear_value s0
  exact ite_calm (refBack_calm h1) h1

theorem pwrCtrl_calm {z s : State} (val : Reg32) (hz : Calm K z s) : Calm K z (pwrCtrl s val) := by
  unfold pwrCtrl
  extract_lets s0
  have h1 : Calm K z s0 := ite_calm (sleepWrite_calm hz) hz
  clear_value s0
  exact ite_calm (offWrite_calm h1) h1

theorem postedWrite_calm {z s : State} (off : Nat) (val : Reg32) (hz : Calm K z s) (nregs : ¬ K .regs := by assumption) :
    Calm K z (postedWrite s off val) := by
  unfold postedWrite
  refine ite_calm ?_ ?_
  · refine ite_calm ?_ ?_
    · exact Calm.upd hz
    · extract_lets s0 x1
      have h2 : Calm K z s0 := regPut_calm _ _ (memberWrite_calm hz)
      clear_value s0
      exact Calm.upd h2
  · refine ite_calm ?_ ?_
    · exact Calm.upd hz
    · refine ite_calm ?_ ?_
      · extract_lets s3 x4
        have h5 : Calm K z s3 := regPut_calm _ _ (memberWrite_calm hz)
        clear_value s3
        exact Calm.upd h5
      · refine ite_calm ?_ ?_
        · exact hz
        · extract_lets s6 x7
          have h8 : Calm K z s6 := regPut_calm _ _ hz
          clear_value s6
          exact Calm.upd h8

theorem rsqClear_calm {z s : State} (off : Nat) (hz : Calm K z s) (nclk : ¬ K .clk := by assumption) (nsync : ¬ K .sync := by assumption) :
    Calm K z (rsqClear s off) := by
  unfold rsqClear
  split
  · exact setPort_calm _ _ hz
  · exact setPort_calm _ _ hz
  · exact Calm.upd hz
  · exact setPort_calm _ _ hz
  · exact setPort_calm _ _ hz
  · exact Calm.upd hz
  · exact Calm.upd hz
  · exact Calm.upd hz
  · exact Calm.upd hz
  · exact Calm.upd hz
  · exact Calm.upd hz
  · exact Calm.upd hz
  · exact Calm.upd hz
  · exact Calm.upd hz
  · exact Calm.upd hz
  · exact Calm.upd hz
  · exact Calm.upd hz
  · exact Calm.upd hz
  · exact Calm.upd hz
  · exact Calm.upd hz
  · exact hz

theorem rsqWrite_calm {z s : State} (off : Nat) (val : Reg32) (hz : Calm K z s) (nclk : ¬ K .clk := by assumption) (nsync : ¬ K .sync := by assumption) :
    Calm K z (rsqWrite s off val) :=
  ite_calm (rsqClear_calm _ hz) hz

theorem writeLow_calm {z s : State} (off : Nat) (val : Reg32) (hz : Calm K z s) (nregs : ¬ K .regs := by assumption) (nundef : ¬ K .undef := by assumption) :
    Calm K z (writeLow s off val) := by
  unfold writeLow
  refine ite_calm ?_ ?_
  · exact agpWrite_calm _ _ hz
  · refine ite_calm ?_ ?_
    · exact agpWrite_calm _ _ hz
    · refine ite_calm ?_ ?_
      · exact reviveWrite_calm _ hz
      · refine ite_calm ?_ ?_
        · exact regionWrite_calm _ _ hz
        · refine ite_calm ?_ ?_
          · exact fixedWrite_calm _ _ _ _ hz
          · refine ite_calm ?_ ?_
            · exact cchCtrl_calm _ hz
            · refine ite_calm ?_ ?_
              · exact ite_calm (ringWrite_calm _ _ hz) hz
              · refine ite_calm ?_ ?_
                · exact cmdCtrl_calm _ hz
                · refine ite_calm ?_ ?_
                  · exact rswWrite_calm _ hz
                  · refine ite_calm ?_ ?_
                    · exact doorbell_calm _ _ hz
                    · refine ite_calm ?_ ?_
                      · exact headWrite_calm _ _ hz
                      · refine ite_calm ?_ ?_
                        · exact headWrite_calm _ _ hz
                        · refine ite_calm ?_ ?_
                          · extract_lets s0 x1
                            have h2 : Calm K z s0 := regPut_calm _ _ hz
                            clear_value s0
                            exact Calm.upd h2
                          · exact regPut_calm _ _ hz

theorem monRestart_calm {z s : State} (hz : Calm K z s) (nclk : ¬ K .clk := by assumption) : Calm K z (monRestart s) := Calm.upd hz

theorem writeHigh_calm {z s : State} (off : Nat) (val : Reg32) (hz : Calm K z s) (nregs : ¬ K .regs := by assumption)
    (ntick : ¬ K .tick := by assumption) (nclk : ¬ K .clk := by assumption) (nundef : ¬ K .undef := by assumption) :
    Calm K z (writeHigh s off val) := by
  unfold writeHigh
  refine ite_calm (dmaWrite_calm _ hz) (ite_calm (Calm.upd (regPut_calm off val hz)) (ite_calm (screeWrite_calm _ hz)
    (ite_calm (fixedWrite_calm _ _ _ _ hz) (ite_calm (linkCtrl_calm _ hz) (ite_calm (cfgaCtrl_calm _ hz)
    (ite_calm (fixedWrite_calm _ _ _ _ hz) (ite_calm (fixedWrite_calm _ _ _ _ hz) (ite_calm (ite_calm (cspStart_calm hz) hz)
    (ite_calm (pllWrite_calm _ hz) (ite_calm (clkCtrl_calm _ hz) (ite_calm (monRestart_calm (regPut_calm _ _ hz))
    (ite_calm (pwrCtrl_calm _ hz) (ite_calm (ite_calm (snapAll_calm _ hz) hz) (ite_calm (refWrite_calm _ hz)
    (ite_calm (ite_calm (mbistStart_calm _ hz) hz) (regPut_calm _ _ hz))))))))))))))))

theorem writeEffect_calm {z s : State} (off : Nat) (val : Reg32) (hz : Calm K z s) (nregs : ¬ K .regs := by assumption) (ntick : ¬ K .tick := by assumption) (nclk : ¬ K .clk := by assumption) (nsync : ¬ K .sync := by assumption) (nundef : ¬ K .undef := by assumption) :
    Calm K z (writeEffect s off val) :=
  ite_calm (rsqWrite_calm _ _ hz) (ite_calm (writeLow_calm _ _ hz) (writeHigh_calm _ _ hz))

theorem performRegWrite_calm {z s : State} (who : Nat) (off : Nat) (val : Reg32) (hz : Calm K z s) (nregs : ¬ K .regs := by assumption) (ntick : ¬ K .tick := by assumption) (nclk : ¬ K .clk := by assumption) (nsync : ¬ K .sync := by assumption) (nundef : ¬ K .undef := by assumption) :
    Calm K z (performRegWrite s who off val) := by
  unfold performRegWrite
  split
  · exact hz
  · refine ite_calm ?_ ?_
    · exact keyWrite_calm _ _ hz
    · refine ite_calm ?_ ?_
      · exact postedWrite_calm _ _ hz
      · refine ite_calm ?_ ?_
        · refine ite_calm ?_ ?_
          · extract_lets x0 s1
            have h2 : Calm K z s1 := keyedChange_calm (Calm.upd hz)
            clear_value s1
            exact writeEffect_calm _ _ (ite_calm (memberWrite_calm h2) h2)
          · exact keyRefuse_calm _ _ hz
        · exact writeEffect_calm _ _ (ite_calm (memberWrite_calm hz) hz)

theorem rowWrite_id (s : State) (who off : Nat) (val : Reg32) : (rowWrite s who off val).id = s.bus.nextReq :=
  (apply_ite Req.id _ _ _).trans (ite_self _)

theorem regRow_calm {z s : State} (who : Nat) (off : Nat) (val : Reg32) (hz : Calm K z s) (nregs : ¬ K .regs := by assumption) (ntick : ¬ K .tick := by assumption) (nclk : ¬ K .clk := by assumption) (nsync : ¬ K .sync := by assumption) (nundef : ¬ K .undef := by assumption) :
    Calm K z (regRow s who off val) :=
  when_calm _ _ (fun h => ite_calm (settle_calm (performRegWrite_calm _ _ _ h)) (settle_calm (addReq_calm _ h (rowWrite_id _ _ _ _)))) hz

theorem issueDevice_calm {z s : State} (r : Req) (hz : Calm K z s) : Calm K z (issueDevice s r) := by
  unfold issueDevice
  refine foldl_calm _ _ (fun _ _ h2 => ?_) ?_
  · extract_lets x3
    exact sendTlp_calm _ (count_calm h2)
  · exact hz

theorem leaveQueue_calm {z s : State} (r : Req) (hz : Calm K z s) : Calm K z (leaveQueue s r) := updReq_calm _ _ hz

theorem retireWith_calm {z s : State} (r : Req) (rsp : Rsp) (beats : List Beat64) (hz : Calm K z s) :
    Calm K z (retireWith s r rsp beats) :=
  respond_calm _ _ _ _ (leaveQueue_calm _ hz)

theorem retireWait_calm {z s : State} (r : Req) (own : Dur) (hz : Calm K z s) : Calm K z (retireWait s r own) :=
  updReq_calm _ _ hz

theorem discardWrite_calm {z s : State} (r : Req) (hz : Calm K z s) : Calm K z (discardWrite s r) := by
  unfold discardWrite
  extract_lets s0
  have h1 : Calm K z s0 := bufParity_calm _ _ hz
  clear_value s0
  exact ite_calm (retireWith_calm _ _ _ h1) (haltDma_calm _ _ _ (retireWith_calm _ _ _ h1))

theorem retireStore_calm {z s : State} (r : Req) (perr : Bool) (hz : Calm K z s) : Calm K z (retireStore s r perr) := by
  unfold retireStore
  extract_lets s0 s1 s2
  have h3 : Calm K z s0 := ite_calm (bufParity_calm _ _ hz) hz
  clear_value s0
  have h4 : Calm K z s1 := writeThrough_calm _ _ _ _ _ h3
  clear_value s1
  have h5 : Calm K z s2 := ite_calm (dropLock_calm _ h4) h4
  clear_value s2
  refine ite_calm ?_ ?_
  · split
    · exact retireWait_calm _ _ (markEntry_calm _ _ h5)
    · exact retireWait_calm _ _ h5
  · exact retireWith_calm _ _ _ h5

theorem retireWatch_calm {z s : State} (r : Req) (hz : Calm K z s) : Calm K z (retireWatch s r) :=
  ite_calm (retireWith_calm _ _ _ hz) (ite_calm (retireWith_calm _ _ _ hz) (updReq_calm _ _ hz))

theorem retireDevice_calm {z s : State} (r : Req) (hz : Calm K z s) : Calm K z (retireDevice s r) := by
  unfold retireDevice
  extract_lets s0
  have h1 : Calm K z s0 := issueDevice_calm _ hz
  clear_value s0
  exact ite_calm (retireWith_calm _ _ _ h1) (retireWait_calm _ _ h1)

theorem retireHead_calm {z s : State} (r : Req) (perr : Bool) (hz : Calm K z s) (nregs : ¬ K .regs := by assumption) (ntick : ¬ K .tick := by assumption) (nclk : ¬ K .clk := by assumption) (nsync : ¬ K .sync := by assumption) (nundef : ¬ K .undef := by assumption) :
    Calm K z (retireHead s r perr) := by
  unfold retireHead
  refine ite_calm ?_ ?_
  · extract_lets s1
    have h1 : Calm K z s1 := ite_calm (bufParity_calm _ _ hz) hz
    exact retireWith_calm _ _ _ (Calm.upd h1)
  · split
    · exact retireWith_calm _ _ _ (dropLock_calm _ (ite_calm (bufParity_calm _ _ hz) hz))
    · exact ite_calm hz (retireWatch_calm _ (ite_calm (bufParity_calm _ _ hz) hz))
    · exact ite_calm (fetchPass_calm _ _ (updReq_calm _ _ (bufParity_calm _ _ hz))) (fetchPass_calm _ _ hz)
    · exact fetchPass_calm _ _ (ite_calm (bufParity_calm _ _ hz) hz)
    · exact ite_calm hz (ite_calm (discardWrite_calm _ hz) (retireWith_calm _ _ _ (performRegWrite_calm _ _ _ hz)))
    · refine ite_calm ?_ ?_
      · exact ite_calm hz (ite_calm (discardWrite_calm _ hz) (ite_calm hz (retireDevice_calm _ hz)))
      · exact ite_calm (retireStore_calm _ _ hz) (ite_calm (ntPressure_calm hz) hz)
    · exact hz

theorem storeRetire_calm {z s : State} (who : Nat) (perr : Bool) (hz : Calm K z s) (nregs : ¬ K .regs := by assumption) (ntick : ¬ K .tick := by assumption) (nclk : ¬ K .clk := by assumption) (nsync : ¬ K .sync := by assumption) (nundef : ¬ K .undef := by assumption) :
    Calm K z (storeRetire s who perr) := by
  unfold storeRetire
  split
  · exact ite_calm (retireHead_calm _ _ hz) hz
  · exact hz

theorem performingPass_calm {z s : State} (who : Nat) (hz : Calm K z s) : Calm K z (performingPass s who) := by
  unfold performingPass
  split
  · refine ite_calm ?_ ?_
    · split
      · exact performFetch_calm _ _ hz
      · exact hz
    · exact hz
  · exact hz

theorem completeFromPool_calm {z s : State} (t : Slot) (hz : Calm K z s) : Calm K z (completeFromPool s t) :=
  updSlot_calm _ _ hz

theorem completionLookup_calm {z s : State} (t : Slot) (hz : Calm K z s) : Calm K z (completionLookup s t) := by
  unfold completionLookup
  extract_lets x0 x1 x2
  refine ite_calm (completeFromPool_calm _ hz) (ite_calm hz ?_)
  generalize lookup s t.cb x1 = l
  cases l with
  | parErr bad => exact tagParity_calm _ _ hz
  | filtered => exact ite_calm (completeFromPool_calm _ (dropFiltered_calm _ _ hz)) hz
  | hit w => exact ite_calm hz (ite_calm (completeFromPool_calm _ hz) (ite_calm hz (updSlot_calm _ _ (addRuns_calm _ _ _ _ _ _ _ hz))))
  | smiss w => exact completeFromPool_calm _ hz
  | miss => exact completeFromPool_calm _ hz

theorem drainedLater_calm {z s : State} (t : Slot) (poison : Bool) (hz : Calm K z s) :
    Calm K z (drainedLater s t poison) :=
  Calm.upd hz

theorem rewriteDone_calm {z s : State} (t : Slot) (hz : Calm K z s) : Calm K z (rewriteDone s t) := by
  unfold rewriteDone
  split
  · split
    · exact ite_calm (unitDone_calm _ hz) hz
    · exact hz
  · exact hz

theorem drainWrite_calm {z s : State} (t : Slot) (perr : Bool) (hz : Calm K z s) : Calm K z (drainWrite s t perr) := by
  unfold drainWrite
  extract_lets s0 x1 x2 x3 s4 s5 x6 s7
  have h8 : Calm K z s0 := ite_calm (bufParity_calm _ _ hz) hz
  clear_value s0
  have h9 : Calm K z s4 := sendTlp_calm _ (count_calm h8)
  clear_value s4
  have h10 : Calm K z s5 := sendTlp_calm _ (count_calm h9)
  clear_value s5
  have h11 : Calm K z s7 := recentPut_calm _ _ (Calm.upd h10)
  clear_value s7
  exact rewriteDone_calm _ (dropSlot_calm _ (drainedLater_calm _ _ h11))

theorem flushIssue_calm {z s : State}  (hz : Calm K z s) : Calm K z (flushIssue s) := by
  unfold flushIssue
  extract_lets x0 x1 x2 s3 x4 s5
  have h6 : Calm K z s3 := addSlot_calm _ (ite_calm (count_calm hz) hz)
  clear_value s3
  have h7 : Calm K z s5 := Calm.upd h6 (hn := fun x y => ⟨numbered_updIf _ _ (fun _ => rfl) x, y⟩)
  clear_value s5
  exact askRead_calm _ _ _ _ h7

theorem violation_calm {z s : State} (p : PortId) (who : Nat) (v : VSeen) (code : Nat) (hz : Calm K z s) :
    Calm K z (violation s p who v code) :=
  count_calm (logViolation_calm _ _ _ _ hz)

theorem setQuiet_calm {z s : State} (p : PortId) (b : Bool) (hz : Calm K z s) : Calm K z (setQuiet s p b) :=
  setPort_calm _ _ hz

theorem answerNow_calm {z s : State} (t : Tenure) (c : ReqCmd) (rsp : Rsp) (hz : Calm K z s) :
    Calm K z (answerNow s t c rsp) := by
  unfold answerNow
  extract_lets x0 x1
  exact respond_calm _ _ _ _ (addReq_calm _ hz)

theorem answerUntagged_calm {z s : State} (who : Nat) (hz : Calm K z s) : Calm K z (answerUntagged s who) := by
  unfold answerUntagged
  extract_lets x0 s1 x2
  have h3 : Calm K z s1 := setPort_calm _ _ hz
  clear_value s1
  exact ite_calm hz (Calm.upd h3 (hn := fun x y => ⟨x, fun q hq i hi => by
    rcases List.mem_append.mp hq with hq | hq
    · exact y q hq i hi
    · obtain rfl := List.mem_singleton.mp hq
      exact absurd hi (by simp)⟩))

theorem protocolAnswer_calm {z s : State} (t : Tenure) (hz : Calm K z s) : Calm K z (protocolAnswer s t) :=
  ite_calm (answerUntagged_calm _ hz) (answerNow_calm _ _ _ hz)

theorem decodeLog_calm {z s : State} (who : Nat) (a : BitVec 48) (reason : Nat) (hz : Calm K z s) :
    Calm K z (decodeLog s who a reason) :=
  count_calm (Calm.upd hz)

theorem refuseReq_calm {z s : State} (t : Tenure) (c : ReqCmd) (rsp : Rsp) (reason : Option Nat) (hz : Calm K z s) :
    Calm K z (refuseReq s t c rsp reason) := by
  unfold refuseReq
  refine answerNow_calm _ _ _ ?_
  split
  · exact decodeLog_calm _ _ _ hz
  · exact hz

theorem admitReq_calm {z s : State} (t : Tenure) (c : ReqCmd) (m : Mark) (target : Target) (pool : Nat) (cls : Nat) (hz : Calm K z s) :
    Calm K z (admitReq s t c m target pool cls) := by
  unfold admitReq
  split
  rename_i s0 x4 x5 e2
  have h3 : Calm K z s0 := by
    rw [← show (_ : State × _).1 = s0 from congrArg Prod.fst e2]
    exact admitClass_calm _ hz
  extract_lets x6 x7 x8 x9 x10 s11
  have h12 : Calm K z s11 := addReq_calm _ h3 (by show (if _ then _ else _ : Req).id = _; split <;> rfl)
  clear_value s11
  exact ite_calm (respond_calm _ _ _ _ h12) h12

theorem acceptReq_calm {z s : State} (t : Tenure) (c : ReqCmd) (hz : Calm K z s) : Calm K z (acceptReq s t c) := by
  unfold acceptReq
  extract_lets x0 x1 x2 x3
  refine ite_calm ?_ ?_
  · exact answerNow_calm _ _ _ hz
  · refine ite_calm ?_ ?_
    · exact admitReq_calm _ _ _ _ _ _ hz
    · split
      · exact refuseReq_calm _ _ _ _ hz
      · exact admitReq_calm _ _ _ _ _ _ hz
      · exact ite_calm (answerNow_calm _ _ _ (Calm.upd hz)) (admitReq_calm _ _ _ _ _ _ hz)

theorem tenureRequest_calm {z s : State} (t : Tenure) (hz : Calm K z s) : Calm K z (tenureRequest s t) := by
  unfold tenureRequest
  extract_lets x0 x1 s2
  have h3 : Calm K z s2 := ite_calm (violation_calm _ _ _ _ hz) hz
  clear_value s2
  split
  · exact violation_calm _ _ _ _ hz
  · exact acceptReq_calm _ _ h3
  · exact answerNow_calm _ _ _ (violation_calm _ _ _ _ hz)

theorem overrunQuiet_calm {z s : State} (p : PortId) (w : Nat) (o : Option Nat) (hz : Calm K z s) : Calm K z (overrunQuiet s p w o) :=
  setPort_calm _ _ hz

theorem tenureEffect_calm {z s : State} (t : Tenure) (hz : Calm K z s) : Calm K z (tenureEffect s t) := by
  unfold tenureEffect
  extract_lets x0 x1 x2 x3 x4 s5 s6
  have h5 : Calm K z s5 := setPort_calm _ _ hz
  clear_value s5
  have h6 : Calm K z s6 := protocolAnswer_calm _ (violation_calm _ _ _ _ h5)
  exact ite_calm (ite_calm (overrunQuiet_calm _ _ _ (violation_calm _ _ _ _ h5)) h5) (ite_calm (protocolAnswer_calm _ (count_calm h5))
    (ite_calm (tenureRequest_calm _ h5) (ite_calm (overrunQuiet_calm _ _ _ h6) h6)))

theorem tenureRow_calm {z s : State} (t : Tenure) (hz : Calm K z s) : Calm K z (tenureRow s t) :=
  when_calm _ _ (fun _ => settle_calm (tenureEffect_calm _ hz)) hz

theorem grantPair_calm {z s : State} (p : PortId) (k : Nat) (urgent : Bool) (h0 : H0Cycle) (hit : Bool) (hz : Calm K z s) :
    Calm K z (grantPair s p k urgent h0 hit) := by
  unfold grantPair
  extract_lets s0
  have h1 : Calm K z s0 := setPort_calm _ _ (emit_calm _ hz)
  clear_value s0
  split
  · exact setPort_calm _ _ h1
  · exact ite_calm (violation_calm _ _ _ _ h1) h1

theorem grantRow_calm {z s : State} (p : PortId) (pins : PortPins) (h0 : H0Cycle) (hz : Calm K z s) :
    Calm K z (grantRow s p pins h0) := by
  unfold grantRow
  refine ite_calm hz ?_
  split
  · exact grantPair_calm _ _ _ _ _ hz
  · exact hz

theorem sendResp_calm {z s : State} (p : PortId) (r : Resp) (collided : Bool) (upset : List Beat64) (hz : Calm K z s) :
    Calm K z (sendResp s p r collided upset) := by
  unfold sendResp
  extract_lets x0 x1 s2 s3 x4 s4 s5
  have h2 : Calm K z s2 := emit_calm _ hz
  clear_value s2
  have h3 : Calm K z s3 := by
    unfold s3
    split
    · exact updReq_calm _ _ h2
    · exact h2
  clear_value s3
  have h4 : Calm K z s4 := Calm.upd h3 (hn := fun x y => ⟨x, fun q hq => y q (List.mem_of_mem_erase hq)⟩)
  clear_value s4
  have h5 : Calm K z s5 := setPort_calm _ _ h4
  exact ite_calm (bufParity_calm _ _ h5) h5

theorem responseRow_calm {z s : State} (p : PortId) (pins : PortPins) (collided : Bool) (upset : List Beat64) (hz : Calm K z s) :
    Calm K z (responseRow s p pins collided upset) := by
  unfold responseRow
  refine ite_calm ?_ hz
  split
  · exact settle_calm (sendResp_calm _ _ _ _ (ite_calm hz (setQuiet_calm _ _ hz)))
  · exact hz

theorem strayRow_calm {z s : State} (p : PortId) (hz : Calm K z s) : Calm K z (strayRow s p) :=
  when_calm _ _ (fun _ => setQuiet_calm _ _ (violation_calm _ _ _ _ hz)) hz

theorem unattachedRow_calm {z s : State} (p : PortId) (k : Nat) (hz : Calm K z s) : Calm K z (unattachedRow s p k) :=
  when_calm _ _ (fun _ => violation_calm _ _ _ _ hz) hz

theorem dropReset_calm {z s : State} (r : Req) (hz : Calm K z s) : Calm K z (dropReset s r) := by
  unfold dropReset
  extract_lets s0
  have h1 : Calm K z s0 := updReq_calm _ _ hz
  clear_value s0
  split
  · exact fetchOver_calm _ _ h1
  · exact h1

theorem resetSense_calm {z s : State} (who : Nat) (hz : Calm K z s) : Calm K z (resetSense s who) := by
  unfold resetSense
  extract_lets x0 x1 s2 s3 x4 s5 s6 s7
  have h8 : Calm K z s2 := discardResps_calm _ (Calm.upd hz)
  clear_value s2
  have h9 : Calm K z s3 := setPort_calm _ _ h8
  clear_value s3
  have h10 : Calm K z s5 := Calm.upd h9 (hn := fun x y => ⟨numbered_updIf _ _ (fun _ => rfl) x, y⟩)
  clear_value s5
  have h11 : Calm K z s6 := foldl_calm _ _ (fun s12 b13 h14 => dropReset_calm _ h14) h10
  clear_value s6
  have h15 : Calm K z s7 := ackAll_calm _ _ _ h11
  clear_value s7
  refine ite_calm ?_ ?_
  · split
    · exact breakLock_calm _ _ _ h15
    · exact h15
  · exact h11

theorem resetEnd_calm {z s : State} (who : Nat) (hz : Calm K z s) : Calm K z (resetEnd s who) := by
  unfold resetEnd
  extract_lets x0 s1 x2 x3
  have h4 : Calm K z s1 := Calm.upd hz
  clear_value s1
  exact ite_calm (Calm.upd h4) h4

theorem sendProbe_calm {z s : State} (x : Probe) (perr : Bool) (hz : Calm K z s) : Calm K z (sendProbe s x perr) := by
  unfold sendProbe
  extract_lets x0 x1 s2 x3 s4
  have h5 : Calm K z s2 := count_calm (emit_calm _ hz)
  clear_value s2
  have h6 : Calm K z s4 := Calm.upd h5
  clear_value s4
  exact ite_calm (bufParity_calm _ _ h6) h6

theorem creditAck_calm {z s : State} (k : Nat) (x : Probe) (hz : Calm K z s) : Calm K z (creditAck s k x) := by
  unfold creditAck
  extract_lets x0 s1 x2
  have h3 : Calm K z s1 := prune_calm (Calm.upd hz)
  clear_value s1
  exact ite_calm (Calm.upd h3) h3

theorem ackRun_calm {z s : State} (k : Nat) (cycles : Nat) (late : Bool) (hz : Calm K z s) :
    Calm K z (ackRun s k cycles late) := by
  unfold ackRun
  extract_lets x0
  refine ite_calm ?_ ?_
  · exact logProbeViol_calm _ _ _ hz
  · refine ite_calm ?_ ?_
    · exact logProbeViol_calm _ _ _ hz
    · split
      · exact logProbeViol_calm _ _ _ hz
      · extract_lets s1 s2
        have h3 : Calm K z s1 := creditAck_calm _ _ hz
        clear_value s1
        have h4 : Calm K z s2 := ite_calm (count_calm h3) h3
        clear_value s2
        exact ite_calm (logProbeViol_calm _ _ _ h4) h4

theorem agentTimeout_calm {z s : State} (k : Nat) (hz : Calm K z s) : Calm K z (agentTimeout s k) := by
  unfold agentTimeout
  extract_lets s0 x1
  have h2 : Calm K z s0 := ackAll_calm _ _ _ (ackAll_calm _ _ _ hz)
  clear_value s0
  exact raiseInt_calm _ (count_calm (Calm.upd h2))

theorem ageProbes_calm {z s : State}  (hz : Calm K z s) : Calm K z (ageProbes s) := Calm.upd hz

theorem probeBoundary_calm {z s : State}  (hz : Calm K z s) : Calm K z (probeBoundary s) :=
  foldl_calm _ _ (fun _ _ h2 => ite_calm (agentTimeout_calm _ h2) h2) (ageProbes_calm hz)

theorem takeReq_calm {z s : State} (id : Nat) (hz : Calm K z s) : Calm K z (takeReq s id) :=
  Calm.upd hz (hn := fun x y => ⟨fun q hq => x q (List.mem_of_mem_filter hq), y⟩)

theorem descRead_calm {z s : State} (n : Nat) (hz : Calm K z s) : Calm K z (descRead s n) := by
  unfold descRead
  dsimp only
  split
  · exact haltRing_calm _ _ hz
  · exact updRing_calm _ _ (engAccess_calm _ _ _ _ _ _ hz)

theorem descArrive_calm {z s : State} (n : Nat) (r : Req) (hz : Calm K z s) : Calm K z (descArrive s n r) := by
  unfold descArrive
  extract_lets s0
  have h1 : Calm K z s0 := updRing_calm _ _ (takeReq_calm _ hz)
  clear_value s0
  exact ite_calm (haltRing_calm _ _ h1) (updRing_calm _ _ h1)

theorem cqFullSaid_calm {z s : State}  (hz : Calm K z s) : Calm K z (cqFullSaid s) :=
  ite_calm hz (event_calm _ _ _ (Calm.upd hz))

theorem finalWritten_calm {z s : State} (n : Nat) (hz : Calm K z s) : Calm K z (finalWritten s n) :=
  hz.trans (finalWritten_ext n (Ext.refl s)).calm

theorem cqLost_calm {z s : State} (e : CEntry) (a : Nat) (hz : Calm K z s) : Calm K z (cqLost s e a) := by
  unfold cqLost
  extract_lets x0 s1 x2 s3 s4
  have h5 : Calm K z s1 := foldl_calm _ _ (fun s6 b7 h8 => updRing_calm _ _ h8) hz
  clear_value s1
  have h9 : Calm K z s3 := Calm.upd h5
  clear_value s3
  have h10 : Calm K z s4 := ite_calm (finalWritten_calm _ h9) h9
  clear_value s4
  exact event_calm _ _ _ h10

theorem cqWrite_calm {z s : State} (e : CEntry) (hz : Calm K z s) : Calm K z (cqWrite s e) := by
  unfold cqWrite
  dsimp only
  split
  · exact cqLost_calm _ _ (Calm.upd hz)
  · exact Calm.upd (engAccess_calm _ _ _ _ _ _ (Calm.upd hz))

theorem cqRow_calm {z s : State}  (hz : Calm K z s) : Calm K z (cqRow s) := by
  unfold cqRow
  split
  · exact ite_calm (cqFullSaid_calm hz) (ite_calm hz (cqWrite_calm _ hz))
  · exact hz

theorem eqLose_calm {z s : State} (n : Nat) (hz : Calm K z s) : Calm K z (eqLose s n) := by
  unfold eqLose
  extract_lets s0 x1
  have h2 : Calm K z s0 := ite_calm (raiseInt_calm _ hz) hz
  clear_value s0
  exact Calm.upd h2

theorem eqWrite_calm {z s : State} (d : Sector) (hz : Calm K z s) : Calm K z (eqWrite s d) := by
  unfold eqWrite
  dsimp only
  split
  · exact Calm.upd hz
  · exact Calm.upd (engAccess_calm _ _ _ _ _ _ hz)

theorem eqMarker_calm {z s : State}  (hz : Calm K z s) : Calm K z (eqMarker s) := by
  unfold eqMarker
  extract_lets x0 s1 x2 x3
  have h4 : Calm K z s1 := Calm.upd hz
  clear_value s1
  exact eqWrite_calm _ (Calm.upd h4)

theorem eqRow_calm {z s : State}  (hz : Calm K z s) : Calm K z (eqRow s) := by
  unfold eqRow
  refine ite_calm ?_ ?_
  · exact hz
  · refine ite_calm ?_ ?_
    · exact eqMarker_calm hz
    · split
      · exact hz
      · extract_lets x0 x1 s2
        have h3 : Calm K z s2 := Calm.upd hz
        clear_value s2
        exact ite_calm (eqWrite_calm _ h3) (eqLose_calm _ h3)

theorem abortRing_calm {z s : State} (n : Nat) (hz : Calm K z s) : Calm K z (abortRing s n) := by
  unfold abortRing
  extract_lets x0 s1 s2
  have h3 : Calm K z s1 := updRing_calm _ _ hz
  clear_value s1
  have h4 : Calm K z s2 := by
    unfold s2
    split
    · exact takeReq_calm _ h3
    · exact h3
  clear_value s2
  refine ite_calm ?_ ?_
  · exact hz
  · split
    · exact ite_calm h3 (updRun_calm _ _ (stopRun_calm _ _ _ h3))
    · exact updRing_calm _ _ h4

theorem acceptRing_calm {z s : State} (n : Nat) (hz : Calm K z s) : Calm K z (acceptRing s n) := by
  unfold acceptRing
  extract_lets x0 x1 x2 x3 s4
  have h6 : Calm K z s4 := updRing_calm _ _ hz
  exact ite_calm hz (ite_calm (ite_calm hz (queueEntry_calm _ h6)) (haltRing_calm _ _ (updRing_calm _ _ hz)))

theorem dueRing_calm {z s : State} (n : Nat) (hz : Calm K z s) : Calm K z (dueRing s n) := by
  unfold dueRing
  extract_lets x0
  refine ite_calm ?_ ?_
  · exact updRing_calm _ _ hz
  · split
    · exact ite_calm hz (updRing_calm _ _ hz)
    · exact ite_calm (updRing_calm _ _ hz) hz

theorem assign_calm {z s : State}  (hz : Calm K z s) : Calm K z (assign s) := by
  unfold assign
  extract_lets x0 x1 x2 x3
  exact Calm.upd hz

theorem progRing_calm {z s : State} (n : Nat) (hz : Calm K z s) : Calm K z (progRing s n) := by
  unfold progRing
  extract_lets x0 x1
  split
  exact ite_calm (updRing_calm _ _ hz) hz

theorem tickRun_calm {z s : State} (n : Nat) (hz : Calm K z s) : Calm K z (tickRun s n) := by
  unfold tickRun
  split
  · exact hz
  · refine ite_calm ?_ ?_
    · exact hz
    · extract_lets s0
      have h1 : Calm K z s0 := updRun_calm _ _ hz
      clear_value s0
      exact ite_calm (updRun_calm _ _ (queueEntry_calm _ h1)) h1

theorem engineBoundary_calm {z s : State}  (hz : Calm K z s) : Calm K z (engineBoundary s) := by
  unfold engineBoundary
  extract_lets x0 s1 s2 s3 s4 s5 s6 s7 x8
  have h9 : Calm K z s1 := Calm.upd hz
  clear_value s1
  have h10 : Calm K z s2 := foldl_calm _ _ (fun s11 b12 h13 => abortRing_calm _ h13) h9
  clear_value s2
  have h14 : Calm K z s3 := foldl_calm _ _ (fun s15 b16 h17 => dueRing_calm _ h17) h10
  clear_value s3
  have h18 : Calm K z s4 := foldl_calm _ _ (fun s19 b20 h21 => acceptRing_calm _ h21) h14
  clear_value s4
  have h22 : Calm K z s5 := assign_calm h18
  clear_value s5
  have h23 : Calm K z s6 := foldl_calm _ _ (fun s24 b25 h26 => tickRun_calm _ (progRing_calm _ h26)) h22
  clear_value s6
  have h27 : Calm K z s7 := cqFullSaid_calm h23
  clear_value s7
  exact Calm.upd h27

theorem issueUnit_calm {z s : State} (n : Nat) (hz : Calm K z s) : Calm K z (issueUnit s n) := updRun_calm _ _ hz

theorem wholeUnit_calm {z s : State} (n : Nat) (hz : Calm K z s) : Calm K z (wholeUnit s n) :=
  unitDone_calm _ (issueUnit_calm _ hz)

theorem zeroTags_calm {z s : State} (lo hi : Nat) (hz : Calm K z s) : Calm K z (zeroTags s lo hi) := by
  unfold zeroTags
  exact Calm.upd hz (hc := mwf_filter _ _ _)

theorem invEnd_calm {z s : State} (n : Nat) (x : Running) (hz : Calm K z s) : Calm K z (invEnd s n x) := by
  unfold invEnd
  extract_lets x0 s1
  have h2 : Calm K z s1 := ite_calm hz (Calm.upd hz)
  clear_value s1
  exact queueProbe_calm _ _ _ h2

theorem invStep_calm {z s : State} (n : Nat) (k : Nat) (x : Running) (hz : Calm K z s) : Calm K z (invStep s n k x) := by
  unfold invStep
  extract_lets x0 x1 s2 s3
  have h4 : Calm K z s2 := zeroTags_calm _ _ hz
  clear_value s2
  have h5 : Calm K z s3 := updRun_calm _ _ h4
  clear_value s3
  exact ite_calm hz (ite_calm (invEnd_calm _ _ h5) h5)

theorem freeProbe_calm {z : State} {x : State × Bool} (n : Nat) (p : BitVec 44 × BitVec 8) (hz : Calm K z x.1) :
    Calm K z (freeProbe n x p).1 := by
  unfold freeProbe
  split
  · exact queueProbe_calm _ _ _ hz
  · exact hz

theorem freeProbes_calm {z : State} (n : Nat) (l : List (BitVec 44 × BitVec 8)) (x : State × Bool) (hz : Calm K z x.1) :
    Calm K z (l.foldl (freeProbe n) x).1 := by
  induction l generalizing x with
  | nil => exact hz
  | cons p l ih => exact ih _ (freeProbe_calm _ _ hz)

theorem dropUndefined_calm {z s : State} (n : Nat) (hz : Calm K z s) : Calm K z (dropUndefined s n).1 :=
  updRun_calm _ _ (freeProbes_calm n _ (_, true) (nextFree_calm (nextFree_calm hz)))

theorem dropRecent_calm {z s : State} (r : Nat × Nat) (hz : Calm K z s) : Calm K z (dropRecent s r) := Calm.upd hz

theorem walkPos_calm {z : State} (r : Nat → Bool) (f : ProbeFor) (a : Walk) (p : Nat) (h : Calm K z a.st) :
    Calm K z (walkPos r f a p).st := by
  unfold walkPos
  split
  · split
    · exact invalPos_calm _ _ h
    · exact h
  · exact h

theorem walk_calm {z s : State} (lo hi : Nat) (r : Nat → Bool) (f : ProbeFor) (hz : Calm K z s) : Calm K z (walk s lo hi r f).st := by
  have (l : List Nat) : ∀ a : Walk, Calm K z a.st → Calm K z (l.foldl (walkPos r f) a).st := by
    induction l with
    | nil => exact fun a h => h
    | cons x l ih => exact fun a h => ih _ (walkPos_calm _ _ _ _ h)
  exact this _ _ hz

theorem dropStep_calm {z s : State} (n k : Nat) (x : Running) (hz : Calm K z s) : Calm K z (dropStep s n k x) := by
  unfold dropStep
  extract_lets r k s1 w s2
  have h1 : Calm K z s1 := ite_calm hz (updRun_calm _ _ (dropRecent_calm _ hz))
  have h2 : Calm K z s2 := addCount1_calm _ _ (addCount0_calm _ _ (walk_calm _ _ _ _ h1))
  refine ite_calm hz ?_
  split
  rename_i s3 room e
  have h3 : Calm K z s3 := by
    rw [← show (_ : State × Bool).1 = s3 from congrArg Prod.fst e]
    split
    · exact dropUndefined_calm _ h2
    · exact h2
  exact ite_calm (updRun_calm _ _ h3) h3

theorem skipUnit_calm {z s : State} (n : Nat) (hz : Calm K z s) : Calm K z (skipUnit s n) :=
  unitDone_calm _ (addCount0_calm _ _ hz)

theorem unitWait_calm {z s : State} (n u : Nat) (r : Reg32) (cb : Nat) (h a : Bool) (hz : Calm K z s) :
    Calm K z (unitWait s n u r cb h a) := hz.trans (unitWait_ext n u r cb h a (Ext.refl s)).calm

theorem preloadFill_calm {z s : State} (n u cb : Nat) (attr : Reg32) (mask : Option (BitVec 16)) (counted again : Bool) (held : Option Nat)
    (hz : Calm K z s) : ∀ t, preloadFill s n u cb attr mask counted again held = some t → Calm K z t := by
  intro t ht
  unfold preloadFill at ht
  split at ht
  · cases ht
  · refine withUnit_calm ht (fun s i hz => ite_calm (stopRun_calm _ _ _ hz) ?_) hz
    dsimp only
    split
    · next hf => exact fillStart_calm _ _ hz _ hf
    · exact skipUnit_calm _ hz

theorem preloadSectors_calm {z s : State} (n u cb p : Nat) (attr : Reg32) (counted again : Bool) (held : Option Nat) (hz : Calm K z s) :
    ∀ t, preloadSectors s n u cb p attr counted again held = some t → Calm K z t := by
  intro t ht
  unfold preloadSectors at ht
  split at ht
  · cases ht
    exact updHandler_calm _ _ hz
  · exact withUnit_calm ht (fun s i hz => ite_calm (stopRun_calm _ _ _ hz) (readFor_calm _ hz)) hz

theorem preloadDecide_calm {z s : State} (n u : Nat) (x : Running) (attr : Reg32) (cb : Nat) (counted again : Bool) (held : Option Nat)
    (hz : Calm K z s) : ∀ t, preloadDecide s n u x attr cb counted again held = some t → Calm K z t := by
  have hs : ∀ {x : State}, Calm K z x → ∀ t, some x = some t → Calm K z t := fun h t e => Option.some.inj e ▸ h
  have hn : ∀ t, (none : Option State) = some t → Calm K z t := fun _ e => nomatch e
  have hi : ∀ {c : Prop} [Decidable c] {x y : Option State}, (∀ t, x = some t → Calm K z t) → (∀ t, y = some t → Calm K z t) →
      ∀ t, (if c then x else y) = some t → Calm K z t := fun hx hy => by split <;> assumption
  have ha : ∀ p, Calm K z (tagPut s p { tagAt s p with age := 0 }) := fun p => tagPut_calm _ _ hz
  have hv := fun p => preloadFill_calm n u cb attr (if x.wmask then some x.ways else none) counted again held
    (invalPos_calm p { ring := some n } hz)
  unfold preloadDecide
  dsimp only
  refine hi (hs (skipUnit_calm _ hz)) (hi hn ?_)
  generalize lookup s cb 0xFF = l
  cases l with
  | parErr bad => exact hs (tagParity_calm _ _ hz)
  | filtered => exact hi (hs (skipUnit_calm _ (dropFiltered_calm _ _ hz))) hn
  | hit w => exact hi (hs (unitDone_calm _ (ha _))) (hi hn (hv _))
  | smiss w => exact hi (preloadSectors_calm _ _ _ _ _ _ _ _ (ha _)) (hi hn (hv _))
  | miss =>
    dsimp only
    split
    · exact hi (hs (skipUnit_calm _ hz)) (hs (updHandler_calm _ _ (unitWait_calm _ _ _ _ _ _ hz)))
    · exact preloadFill_calm _ _ _ _ _ _ _ _ hz

theorem preloadGo_calm {z s t : State} (n u : Nat) (x : Running) (attr : Reg32) (cb : Nat) (c again : Bool) (held : Option Nat)
    (hs : Calm K z s) (ht : Calm K z t) : Calm K z ((preloadDecide t n u x attr cb c again held).getD s) := by
  cases hd : preloadDecide t n u x attr cb c again held with
  | none => exact hs
  | some r => exact preloadDecide_calm _ _ _ _ _ _ _ _ ht r hd

theorem preloadStep_calm {z s : State} (n : Nat) (x : Running) (hz : Calm K z s) : Calm K z (preloadStep s n x) := by
  unfold preloadStep
  refine ite_calm hz ?_
  split
  · exact stopRun_calm _ _ _ hz
  · exact ite_calm (preloadGo_calm _ _ _ _ _ _ _ _ hz (admitUnit_calm _ _ _ hz))
      (preloadGo_calm _ _ _ _ _ _ _ _ hz (issueUnit_calm _ (admitUnit_calm _ _ _ hz)))

theorem unitGo_calm {z s : State} (n u : Nat) (hz : Calm K z s) : Calm K z (unitGo s n u) := updRun_calm _ _ hz

theorem preloadAgain_calm {z s : State} (n : Nat) (x : Running) (w : UnitWait) (held : Option Nat) (hz : Calm K z s) :
    Calm K z (preloadAgain s n x w held) :=
  ite_calm (preloadGo_calm _ _ _ _ _ _ _ _ hz hz) (preloadGo_calm _ _ _ _ _ _ _ _ hz (unitGo_calm _ _ hz))

theorem lockEntry_calm {z s : State} (n : Nat) (set : Nat) (p : Nat) (lock : Bool) (hz : Calm K z s) :
    Calm K z (lockEntry s n set p lock) := by
  unfold lockEntry
  extract_lets x0
  refine ite_calm ?_ ?_
  · exact wholeUnit_calm _ (tagPut_calm _ _ hz)
  · refine ite_calm ?_ ?_
    · exact wholeUnit_calm _ hz
    · exact ite_calm (skipUnit_calm _ (issueUnit_calm _ hz)) (wholeUnit_calm _ (tagPut_calm _ _ hz))

theorem lockStep_calm {z s : State} (n : Nat) (x : Running) (lock : Bool) (hz : Calm K z s) : Calm K z (lockStep s n x lock) := by
  have ha := fun a => admitUnit_calm n x.issued a hz
  unfold lockStep
  refine ite_calm hz ?_
  split
  · exact stopRun_calm _ _ _ hz
  · rename_i attr cb _
    have hm : ∀ {t}, Calm K z t → Calm K z (skipUnit (issueUnit t n) n) := fun h => skipUnit_calm _ (issueUnit_calm _ h)
    refine ite_calm (hm (ha _)) (ite_calm hz ?_)
    generalize lookup s cb 0 = l
    cases l with
    | parErr bad => exact tagParity_calm _ _ (ha _)
    | filtered => exact ite_calm (hm (dropFiltered_calm _ _ (ha _))) hz
    | hit w => exact ite_calm (lockEntry_calm _ _ _ _ (ha _)) (hm (ha _))
    | smiss w => exact ite_calm (lockEntry_calm _ _ _ _ (ha _)) (hm (ha _))
    | miss => exact hm (ha _)

theorem restrengthStep_calm {z s : State} (n : Nat) (x : Running) (hz : Calm K z s) : Calm K z (restrengthStep s n x) := by
  unfold restrengthStep
  refine ite_calm ?_ ?_
  · exact hz
  · split
    · split
      rename_i s0 x4 e2
      have h3 : Calm K z s0 := by
        rw [← show (_ : State × _).1 = s0 from congrArg Prod.fst e2]
        exact admitUnit_calm _ _ _ hz
      refine ite_calm ?_ ?_
      · exact hz
      · extract_lets x5 s6
        have h7 : Calm K z s6 := Calm.upd h3
        clear_value s6
        exact beginRewrite_calm _ _ _ _ _ _ (issueUnit_calm _ h7)
    · exact stopRun_calm _ _ _ hz
    · exact hz

theorem verifyRead_calm {z s : State} (n u : Nat) (attr : Reg32) (cb : Nat) (c : Bool) (held : Option Nat) (hz : Calm K z s) :
    ∀ t, verifyRead s n u attr cb c held = some t → Calm K z t :=
  fun _ ht => withUnit_calm ht (fun _ _ h => unitRead_calm _ _ _ _ _ _ _ h) hz

theorem verifyStep_calm {z s : State} (n : Nat) (x : Running) (hz : Calm K z s) : Calm K z (verifyStep s n x) := by
  unfold verifyStep
  refine ite_calm hz ?_
  split
  · exact stopRun_calm _ _ _ hz
  · refine ite_calm hz ?_
    dsimp only
    split
    · next t ht => exact issueUnit_calm _ (verifyRead_calm _ _ _ _ _ _ (admitUnit_calm _ _ _ hz) t ht)
    · exact hz

theorem pageRead_calm {z s : State} (n i : Nat) (c : Bool) (h : Nat) (hz : Calm K z s) : Calm K z (pageRead s n i c h) :=
  hz.trans (pageRead_ext n i c h (Ext.refl s)).calm

/-- A waiting unit that is given a handler. -/
theorem grantUnit_calm {z s : State} (n : Nat) (x : Running) (w : UnitWait) (i : Nat) (hz : Calm K z s) :
    Calm K z (grantUnit s n x w i) := by
  have h1 : Calm K z (unitGo s n w.unit) := unitGo_calm _ _ hz
  unfold grantUnit
  dsimp only
  split
  · exact preloadAgain_calm _ _ _ _ hz
  · split
    · exact ite_calm h1 (pageRead_calm _ _ _ _ h1)
    · exact h1
  · split
    · exact feedRewrite_calm _ _ h1
    · refine ite_calm ?_ h1
      cases hv : verifyRead (unitGo s n w.unit) n w.unit w.attr w.cb (x.c0.contains w.unit) (some i) with
      | none => exact hz
      | some t => exact verifyRead_calm _ _ _ _ _ _ h1 t hv

theorem grantHandler_calm {z s : State} (hz : Calm K z s) : Calm K z (grantHandler s) := by
  unfold grantHandler
  split
  · exact ite_calm (fetchPass_calm _ _ hz) (goRead_calm _ _ hz)
  · exact grantUnit_calm _ _ _ _ hz
  · exact hz

theorem countRead_calm {z s : State} (n : Nat) (u : Nat) (fixed : Nat) (bad : Bool) (hz : Calm K z s) :
    Calm K z (countRead s n u fixed bad) :=
  ite_calm (noteErr_calm _ _ (addCount1_calm _ _ hz)) (ite_calm (addCount0_calm _ _ hz) hz)

theorem bufferBad_calm {z s : State} (n : Nat) (u : Nat) (x : Running) (hz : Calm K z s) :
    Calm K z (bufferBad s n u x).1 := by
  unfold bufferBad
  dsimp only
  split
  · exact unitDrop_calm _ _ (stopRun_calm _ _ _ (bufParity_calm _ _ hz))
  · exact updRun_calm _ _ (bufParity_calm _ _ hz)

theorem unitReread_calm {z s : State} (h : Handler) (hz : Calm K z s) : Calm K z (unitReread s h) :=
  ite_calm (updHandler_calm _ _ hz) (askBlock_calm _ _ _ (updHandler_calm _ _ hz))

theorem fillRedo_calm {z s : State} (n : Nat) (x : Running) (hz : Calm K z s) : Calm K z (fillRedo s n x) := by
  unfold fillRedo
  split
  · split
    · exact ite_calm (unitReread_calm _ (bufferBad_calm _ _ _ hz)) (bufferBad_calm _ _ _ hz)
    · exact hz
  · exact hz

theorem unitArrive_calm {z s : State} (n u : Nat) (x : Running) (h : Handler) (b : Block) (fail : Nat) (perr : Bool)
    (hz : Calm K z s) : Calm K z (unitArrive s n u x h b fail perr) := by
  unfold unitArrive
  extract_lets bad e s2
  have h2 : Calm K z s2 := dropHandler_calm _ hz
  clear_value e
  have hb := bufferBad_calm n u x hz
  refine ite_calm (ite_calm (unitReread_calm _ hb) (dropHandler_calm _ hb)) (ite_calm (unitTimeout_calm _ _ h2) (ite_calm ?_ ?_))
  · cases e with
    | some e => exact rewriteFed_calm _ _ _ (countRead_calm _ _ _ _ h2)
    | none => exact h2
  · cases e with
    | some e => exact ite_calm (unitDone_calm _ (countRead_calm _ _ _ _ (unitDrop_calm _ _ h2))) (rewriteFed_calm _ _ _ h2)
    | none =>
      have h3 := countRead_calm n u h.fixed (decide bad) h2
      exact ite_calm (beginRewrite_calm _ _ _ _ _ _ h3) (unitDone_calm _ h3)

theorem vaultBegin_calm {z s : State} (n : Nat) (x : Running) (hz : Calm K z s) : Calm K z (vaultBegin s n x) := by
  unfold vaultBegin
  refine ite_calm ?_ ?_
  · split
    rename_i x4 s0 e2
    have h3 : Calm K z s0 := by
      rw [← show (_ : _ × State).2 = s0 from congrArg Prod.snd e2]
      exact nextFree_calm hz
    extract_lets x5
    exact updRun_calm _ _ h3
  · extract_lets x6 x7 x8
    exact updRun_calm _ _ hz

theorem vaultAccess_calm {z s : State} (n : Nat) (x : Running) (c : ReqCmd) (d : Sector) (hz : Calm K z s) :
    Calm K z (vaultAccess s n x c d) := by
  unfold vaultAccess
  split
  · exact stopRun_calm _ _ _ hz
  · split
    rename_i s0 x4 e2
    have h3 : Calm K z s0 := by
      rw [← show (_ : State × _).1 = s0 from congrArg Prod.fst e2]
      exact engAccess_calm _ _ _ _ _ _ hz
    exact updRun_calm _ _ h3

theorem saveStep_calm {z s : State} (n : Nat) (x : Running) (hz : Calm K z s) (nslots : ¬ K .slots := by assumption) :
    Calm K z (saveStep s n x) := by
  unfold saveStep
  refine ite_calm ?_ ?_
  · exact hz
  · refine ite_calm ?_ ?_
    · exact vaultAccess_calm _ _ _ _ hz
    · split
      · exact vaultBegin_calm _ _ hz
      · refine ite_calm ?_ ?_
        · exact hz
        · extract_lets s0
          have h1 : Calm K z s0 := updRun_calm _ _ (saveUnit_calm _ _ _ hz)
          clear_value s0
          exact ite_calm (vaultSaved_calm _ _ _ h1) h1

theorem loadStep_calm {z s : State} (n : Nat) (x : Running) (hz : Calm K z s) : Calm K z (loadStep s n x) := by
  unfold loadStep
  refine ite_calm ?_ ?_
  · exact hz
  · split
    · exact vaultBegin_calm _ _ hz
    · refine ite_calm ?_ ?_
      · exact hz
      · refine ite_calm ?_ ?_
        · extract_lets s0
          have h1 : Calm K z s0 := updRun_calm _ _ hz
          clear_value s0
          refine ite_calm ?_ ?_
          · split
            · exact loadScree_calm _ h1
            · exact h1
          · exact h1
        · exact ite_calm (vaultAccess_calm _ _ _ _ hz) hz

theorem vaultArrive_calm {z s : State} (n : Nat) (x : Running) (r : Option Req) (perr : Bool) (hz : Calm K z s) :
    Calm K z (vaultArrive s n x r perr) := by
  unfold vaultArrive
  split
  · extract_lets s0
    have h1 : Calm K z s0 := updRun_calm _ _ (takeReq_calm _ hz)
    clear_value s0
    exact ite_calm (bufferBad_calm _ _ _ h1) (ite_calm (stopRun_calm _ _ _ h1) (updRun_calm _ _ h1))
  · extract_lets s2
    have h3 : Calm K z s2 := updRun_calm _ _ hz
    clear_value s2
    exact ite_calm (bufferBad_calm _ _ _ (updRun_calm _ _ h3)) (ite_calm (updRun_calm _ _ h3) h3)

theorem cacheArrive_calm {z s : State} (n : Nat) (u : Nat) (x : Running) (b : Block) (perr : Bool) (hz : Calm K z s) :
    Calm K z (cacheArrive s n u x b perr) := by
  unfold cacheArrive
  extract_lets s0
  have h2 : Calm K z s0 := updRun_calm _ _ hz
  clear_value s0
  refine ite_calm (bufferBad_calm _ _ _ h2) ?_
  split
  · exact rewriteFed_calm _ _ _ h2
  · exact h2

theorem unitArrival_calm {z s : State} (n : Nat) (perr : Bool) (hz : Calm K z s) : Calm K z (unitArrival s n perr) := by
  unfold unitArrival
  cases getRun s n with
  | none => exact hz
  | some x =>
    dsimp only
    cases x.got.head? with
    | some g => exact cacheArrive_calm _ _ _ _ _ hz
    | none =>
      dsimp only
      split
      · split
        · exact unitArrive_calm _ _ _ _ _ _ _ hz
        · exact hz
      · split
        · exact ite_calm (fillRedo_calm _ _ hz) hz
        · split
          · exact ite_calm (vaultArrive_calm _ _ _ _ hz) hz
          · exact vaultArrive_calm _ _ _ _ hz

theorem putSeen_calm {z s : State} (v : BitVec 64) (hz : Calm K z s) (nregs : ¬ K .regs := by assumption) :
    Calm K z (putSeen s v) :=
  regPut_calm _ _ (regPut_calm _ _ (Calm.upd hz))

theorem applyEpoch_calm {z s : State} (e : Epoch) (hz : Calm K z s) (nregs : ¬ K .regs := by assumption) :
    Calm K z (applyEpoch s e) :=
  ite_calm hz (putSeen_calm _ hz)

theorem decideEpoch_calm {z s : State} (e : Epoch) (hz : Calm K z s) : Calm K z (decideEpoch s e) := by
  unfold decideEpoch
  extract_lets p bad v
  split
  extract_lets n s1 s2 s3 s4 x
  have h1 : Calm K z s1 := updEpoch_calm _ hz
  have h2 : Calm K z s2 := event_calm _ _ _ (foldl_calm _ _ (fun _ _ h => dropRecent_calm _ h) h1)
  have h3 : Calm K z s3 := updRun_calm _ _ h2
  have h4 : Calm K z s4 := setWake_calm _ h3
  clear_value s4
  exact ite_calm (updRun_calm _ _ (updEpoch_calm _ (Calm.upd h4))) h4

theorem epochWalk_calm {z s : State} (k : Nat) (e : Epoch) (hz : Calm K z s) : Calm K z (epochWalk s k e) := by
  unfold epochWalk
  extract_lets k w s1 x s2 s3
  have h1 : Calm K z s1 := addCount1_calm _ _ (walk_calm _ _ _ _ hz)
  exact ite_calm h1 (updRun_calm _ _ (updEpoch_calm _ (Calm.upd h1)))

theorem epochEnd_calm {z s : State} (e : Epoch) (hz : Calm K z s) (nregs : ¬ K .regs := by assumption) :
    Calm K z (epochEnd s e) := by
  unfold epochEnd
  extract_lets x0 s1
  have h2 : Calm K z s1 := Calm.upd hz
  clear_value s1
  split
  · exact ite_calm h2 (finishRun_calm _ _ _ (applyEpoch_calm _ h2))
  · exact h2

theorem pageDue_calm {z s : State} (b : Bool) (hz : Calm K z s) : Calm K z (pageDue s b) := updEpoch_calm _ hz

theorem epochStep_calm {z s : State} (e : Epoch) (hz : Calm K z s) (nregs : ¬ K .regs := by assumption) :
    Calm K z (epochStep s e) :=
  ite_calm (ite_calm hz (ite_calm (pageDue_calm _ hz) hz))
    (ite_calm (ite_calm (decideEpoch_calm _ hz) hz) (ite_calm hz (epochEnd_calm _ hz)))

theorem selfEpoch_calm {z s : State}  (hz : Calm K z s) : Calm K z (selfEpoch s) := by
  unfold selfEpoch
  extract_lets x0 x1 s2 x3
  have h4 : Calm K z s2 := updRing_calm _ _ hz
  clear_value s2
  exact Calm.upd h4

theorem takeCfg_calm {z s : State}  (hz : Calm K z s) (nrate : ¬ K .rate := by assumption) : Calm K z (takeCfg s) := by
  unfold takeCfg
  extract_lets x0 x1 x2 s2
  have h3 : Calm K z s2 := Calm.upd hz
  clear_value s2
  exact ite_calm (emit_calm _ h3) h3

theorem sampleMembers_calm {z s : State}  (hz : Calm K z s) : Calm K z (sampleMembers s) :=
  foldl_calm _ _ (fun _ _ h2 => useReg_calm _ h2) hz

theorem reloadBudget_calm {z s : State}  (hz : Calm K z s) : Calm K z (reloadBudget s) := by
  unfold reloadBudget
  extract_lets x0 x1 x2 x3
  exact Calm.upd hz

theorem ageEntries_calm {z s : State}  (hz : Calm K z s) : Calm K z (ageEntries s) := Calm.upd hz

theorem markAged_calm {z s : State}  (hz : Calm K z s) : Calm K z (markAged s) :=
  foldl_calm _ _ (fun _ _ h2 => markEntry_calm _ _ h2) hz

theorem ageLocks_calm {z s : State}  (hz : Calm K z s) : Calm K z (ageLocks s) := Calm.upd hz

theorem lockBoundary_calm {z s : State} (k : Nat) (hz : Calm K z s) : Calm K z (lockBoundary s k) := by
  unfold lockBoundary
  split
  · exact breakLock_calm _ _ _ hz
  · exact hz

theorem deadlockSample_calm {z s : State} (dmaReq : BitVec 4) (hz : Calm K z s) : Calm K z (deadlockSample s dmaReq) := by
  unfold deadlockSample
  refine ite_calm ?_ ?_
  · refine ite_calm ?_ ?_
    · split
      rename_i s0 x4 e2
      have h3 : Calm K z s0 := by
        rw [← show (_ : State × _).1 = s0 from congrArg Prod.fst e2]
        exact wakeAll_calm hz
      extract_lets x5 s6
      have h7 : Calm K z s6 := Calm.upd h3
      clear_value s6
      exact raiseInt_calm _ (event_calm _ _ _ (count_calm h7))
    · exact Calm.upd hz
  · exact Calm.upd hz

theorem leakBucket_calm {z s : State} (n : Nat) (hz : Calm K z s) : Calm K z (leakBucket s n) := Calm.upd hz

theorem expireSuspects_calm {z s : State}  (hz : Calm K z s) : Calm K z (expireSuspects s) := Calm.upd hz

theorem keyAge_calm {z s : State}  (hz : Calm K z s) : Calm K z (keyAge s) := ite_calm (Calm.upd hz) hz

theorem lapseKey_calm {z s : State}  (hz : Calm K z s) : Calm K z (lapseKey s) :=
  when_calm _ _ (fun h => Calm.upd hz) hz

theorem windowAge_calm {z s : State}  (hz : Calm K z s) : Calm K z (windowAge s) := ite_calm (Calm.upd hz) hz

theorem closeWindow_calm {z s : State}  (hz : Calm K z s) : Calm K z (closeWindow s) :=
  when_calm _ _ (fun h => Calm.upd hz) hz

theorem startPass_calm {z s : State}  (hz : Calm K z s) : Calm K z (startPass s) := Calm.upd hz

theorem endPass_calm {z s : State}  (hz : Calm K z s) : Calm K z (endPass s) := by
  unfold endPass
  extract_lets x0 x1 s2 x3
  have h4 : Calm K z s2 := count_calm (Calm.upd hz)
  clear_value s2
  exact ite_calm h4 (ite_calm (Calm.upd h4) (bypassCause_calm _ _ (Calm.upd h4)))

theorem passRead_calm {z s : State}  (hz : Calm K z s) : Calm K z (passRead s) := by
  unfold passRead
  extract_lets x0 s1 x2 x3 s4
  have h5 : Calm K z s1 := foldl_calm _ _ (fun s6 b7 h8 => useReg_calm _ h8) hz
  clear_value s1
  have h9 : Calm K z s4 := Calm.upd h5
  clear_value s4
  exact ite_calm (endPass_calm h9) h9

theorem crcBoundary_calm {z s : State} (hz : Calm K z s) : Calm K z (crcBoundary s) := by
  unfold crcBoundary
  extract_lets x0 s1 s2
  have h1 : Calm K z s1 := Calm.upd hz
  have h2 : Calm K z s2 := ite_calm (startPass_calm h1) h1
  exact ite_calm (passRead_calm h2) h2

theorem heartbeat_calm {z s : State}  (hz : Calm K z s) : Calm K z (heartbeat s) := by
  unfold heartbeat
  refine ite_calm ?_ ?_
  · exact hz
  · extract_lets x0 x1 x2 s3 s4 x5
    have h6 : Calm K z s3 := Calm.upd hz
    clear_value s3
    have h7 : Calm K z s4 := ite_calm h6 (raiseInt_calm _ (event_calm _ _ _ h6))
    clear_value s4
    exact ite_calm (Calm.upd h7) h7

theorem zqIssue_calm {z s : State} (rank : Nat) (hz : Calm K z s) : Calm K z (zqIssue s rank) := by
  unfold zqIssue
  extract_lets s0 x1
  have h2 : Calm K z s0 := count_calm (emit_calm _ hz)
  clear_value s0
  exact ite_calm (Calm.upd h2) (Calm.upd h2)

theorem zqRank_calm {z s : State} (rank : Nat) (hz : Calm K z s) : Calm K z (zqRank s rank) := ite_calm (zqIssue_calm _ hz) hz

theorem zqBoundary_calm {z s : State} (hz : Calm K z s) : Calm K z (zqBoundary s) := by
  unfold zqBoundary
  extract_lets x0 s1 x2 s3
  have h1 : Calm K z s1 := Calm.upd hz
  clear_value s1
  exact zqRank_calm _ (zqRank_calm _ (ite_calm (Calm.upd h1) h1))

theorem startRetry_calm {z s : State} (hz : Calm K z s) : Calm K z (startRetry s) := by
  unfold startRetry
  extract_lets x0 s1
  have h1 : Calm K z s1 := Calm.upd hz
  clear_value s1
  exact ite_calm (recoveryTrain_calm h1) h1

theorem retryBoundary_calm {z s : State} (hz : Calm K z s) : Calm K z (retryBoundary s) := by
  unfold retryBoundary
  extract_lets x0 x1 s1
  have h1 : Calm K z s1 := Calm.upd hz
  clear_value s1
  exact ite_calm (ite_calm (startRetry_calm h1) h1) hz

theorem takeLatches_calm {z s : State}  (hz : Calm K z s) : Calm K z (takeLatches s) := by
  unfold takeLatches
  refine ite_calm ?_ ?_
  · exact hz
  · refine ite_calm ?_ ?_
    · exact beginEntry_calm _ (Calm.upd hz)
    · refine ite_calm ?_ ?_
      · extract_lets x0 s1
        have h2 : Calm K z s1 := Calm.upd hz
        clear_value s1
        exact ite_calm (beginEntry_calm _ h2) (setFail_calm _ h2)
      · exact hz

theorem entryBoundary_calm {z s : State} (hz : Calm K z s) : Calm K z (entryBoundary s) := by
  unfold entryBoundary
  split
  · extract_lets e x0 s1
    have h1 : Calm K z s1 := Calm.upd hz
    clear_value s1
    exact ite_calm (ite_calm hz (beginEntry_calm _ hz)) (ite_calm (abandon_calm _ h1) h1)
  · exact takeLatches_calm hz

theorem houseSteps_calm {z s : State} (dmaReq : BitVec 4) (hz : Calm K z s) : Calm K z (houseSteps s dmaReq) := by
  unfold houseSteps
  extract_lets s0 s1 s2 s3
  have h4 : Calm K z s0 := markAged_calm (ageEntries_calm hz)
  clear_value s0
  have h5 : Calm K z s1 := foldl_calm _ _ (fun s6 b7 h8 => lockBoundary_calm _ h8) (ageLocks_calm h4)
  clear_value s1
  have h9 : Calm K z s2 := settle_calm (deadlockSample_calm _ h5)
  clear_value s2
  have h10 : Calm K z s3 := expireSuspects_calm (foldl_calm _ _ (fun s11 b12 h13 => leakBucket_calm _ h13) h9)
  clear_value s3
  exact crcBoundary_calm (closeWindow_calm (windowAge_calm (lapseKey_calm (keyAge_calm h10))))

theorem boundary_calm {z s : State} (dmaReq : BitVec 4) (hz : Calm K z s) (ntick : ¬ K .tick := by assumption) (nrate : ¬ K .rate := by assumption) :
    Calm K z (boundary s dmaReq) := by
  unfold boundary
  extract_lets s0 s1 s2 s3 s4
  have h5 : Calm K z s0 := sampleMembers_calm (takeCfg_calm (count_calm hz))
  clear_value s0
  have h6 : Calm K z s1 := entryBoundary_calm h5
  clear_value s1
  have h7 : Calm K z s2 := settle_calm (probeBoundary_calm (reloadBudget_calm h6))
  clear_value s2
  have h8 : Calm K z s3 := houseSteps_calm _ h7
  clear_value s3
  have h9 : Calm K z s4 := settle_calm (engineBoundary_calm h8)
  clear_value s4
  exact settle_calm (retryBoundary_calm (zqBoundary_calm (heartbeat_calm h9)))

theorem measBoundary_calm {z s : State} (b : Bool) (hz : Calm K z s) (nclk : ¬ K .clk := by assumption) : Calm K z (measBoundary s b) :=
  ite_calm (Calm.upd hz) (ite_calm (Calm.upd hz) (Calm.upd hz))

theorem tickAt_calm {z s : State} (sync : Bool) (dmaReq : BitVec 4) (hz : Calm K z s) (ntick : ¬ K .tick := by assumption)
    (nclk : ¬ K .clk := by assumption) (nsync : ¬ K .sync := by assumption) (nrate : ¬ K .rate := by assumption) :
    Calm K z (tickAt s sync dmaReq) :=
  boundary_calm _ (Calm.upd (measBoundary_calm _ hz))

theorem earlyEdge_calm {z s : State}  (hz : Calm K z s) (nsync : ¬ K .sync := by assumption) : Calm K z (earlyEdge s) :=
  count_calm (Calm.upd hz)

theorem syncEdge_calm {z s : State} (since relock : Nat) (dmaReq : BitVec 4) (hz : Calm K z s) (ntick : ¬ K .tick := by assumption)
    (nclk : ¬ K .clk := by assumption) (nsync : ¬ K .sync := by assumption) (nrate : ¬ K .rate := by assumption) :
    Calm K z (syncEdge s since relock dmaReq) :=
  ite_calm (earlyEdge_calm hz) (tickAt_calm _ _ hz)

theorem lostEdge_calm {z s : State} (dmaReq : BitVec 4) (hz : Calm K z s) (ntick : ¬ K .tick := by assumption) (nclk : ¬ K .clk := by assumption) (nsync : ¬ K .sync := by assumption) (nrate : ¬ K .rate := by assumption) :
    Calm K z (lostEdge s dmaReq) := by
  unfold lostEdge
  extract_lets x0 s1
  have h2 : Calm K z s1 := count_calm (Calm.upd hz)
  clear_value s1
  exact tickAt_calm _ _ (raiseInt_calm _ h2)

theorem startTick_calm {z s : State}  (hz : Calm K z s) (ntick : ¬ K .tick := by assumption) (nclk : ¬ K .clk := by assumption) (nsync : ¬ K .sync := by assumption) (nrate : ¬ K .rate := by assumption) :
    Calm K z (startTick s) :=
  tickAt_calm _ _ (Calm.upd hz)

theorem resetKept_calm {z s : State} (hz : Calm K z s) (nphase : ¬ K .phase := by assumption) (ntap : ¬ K .tap := by assumption) (nregs : ¬ K .regs := by assumption)
    (ntick : ¬ K .tick := by assumption) (nclk : ¬ K .clk := by assumption) (nsync : ¬ K .sync := by assumption)
    (nrate : ¬ K .rate := by assumption) (nundef : ¬ K .undef := by assumption) : Calm K z (resetKept s) :=
  { pending := hz.pending
    out := hz.out
    sound := fun h => by
      obtain ⟨-, -, -, -, -, -, x, -⟩ := hz.sound h
      exact ⟨⟨rfl, rfl, rfl, rfl⟩, fun e he => absurd he (List.not_mem_nil), rfl, rfl, rfl, rfl, x, rfl, fun _ h => absurd h List.not_mem_nil,
        fun _ h => absurd h List.not_mem_nil⟩
    phase := fun k => absurd k nphase
    slots := hz.slots
    tap := fun k => absurd k ntap
    regs := fun k => absurd k nregs
    tick := fun k => absurd k ntick
    clk := fun k => absurd k nclk
    sync := fun k => absurd k nsync
    rate := fun k => absurd k nrate
    undef := fun k => absurd k nundef }

theorem crystalStable_calm {z s : State}  (hz : Calm K z s) (nphase : ¬ K .phase := by assumption) (nclk : ¬ K .clk := by assumption) :
    Calm K z (crystalStable s) := by
  unfold crystalStable
  refine ite_calm ?_ ?_
  · exact vaultScan_calm (startRelock_calm _ (Calm.upd hz))
  · exact ite_calm (startRelock_calm _ (Calm.upd hz)) hz

theorem sampleRsns_calm {z s : State} (k : Nat) (hz : Calm K z s) : Calm K z (sampleRsns s k) :=
  ite_calm (resetSense_calm _ hz) (ite_calm (resetEnd_calm _ hz) hz)

theorem bootEnd_calm {z s : State} (hz : Calm K z s) (nphase : ¬ K .phase := by assumption) (nregs : ¬ K .regs := by assumption)
    (ntick : ¬ K .tick := by assumption) (nclk : ¬ K .clk := by assumption) (nsync : ¬ K .sync := by assumption)
    (nrate : ¬ K .rate := by assumption) : Calm K z (bootEnd s) := by
  unfold bootEnd
  extract_lets x0 s1
  have h2 : Calm K z s1 := regPut_calm _ _ (keyedChange_calm (Calm.upd hz))
  clear_value s1
  exact startTick_calm (foldl_calm _ _ (fun _ _ h => sampleRsns_calm _ h) h2)

theorem lockReached_calm {z s : State}  (hz : Calm K z s) (nphase : ¬ K .phase := by assumption) (nregs : ¬ K .regs := by assumption) (ntick : ¬ K .tick := by assumption) (nclk : ¬ K .clk := by assumption) (nsync : ¬ K .sync := by assumption) (nrate : ¬ K .rate := by assumption) :
    Calm K z (lockReached s) := by
  unfold lockReached
  extract_lets s0
  have h1 : Calm K z s0 := relockEnd_calm hz
  clear_value s0
  refine ite_calm ?_ ?_
  · exact bootEnd_calm h1
  · split
    · exact ite_calm h1 (startTick_calm (monRestart_calm (setWake_calm _ h1)))
    · exact h1

/-! ### The lookup pipeline -/

theorem installOp_calm {z s : State} (i : Nat) (hz : Calm K z s) : Calm K z (installOp s i) := by
  unfold installOp
  split
  · split
    · exact hz
    · exact ite_calm hz (install_calm _ _ (over2_calm _ hz))
    · exact hz
  · exact hz

theorem setOp_calm {z s : State} (hz : Calm K z s) : Calm K z (setOp s) := by
  unfold setOp
  split
  · exact ite_calm (clearSet_calm _ (over2_calm _ (Calm.upd hz))) hz
  · exact hz

theorem sectorOp_calm {z s : State} (hz : Calm K z s) : Calm K z (sectorOp s) := by
  unfold sectorOp
  split
  · exact ite_calm hz (clearSector_calm _ _ (over2_calm _ (Calm.upd hz)))
  · exact hz

theorem retireOp_calm {z s : State} (hz : Calm K z s) : Calm K z (retireOp s) := by
  unfold retireOp
  split
  · exact ite_calm (retirePos_calm _ _ (over2_calm _ (Calm.upd hz))) hz
  · exact hz

theorem lookupOp_calm {z s : State} (i : Nat) (hz : Calm K z s) : Calm K z (lookupOp s i) := by
  unfold lookupOp
  split
  · exact ite_calm (completionLookup_calm _ hz) hz
  · exact hz

theorem candidateOp_calm {z s : State} (hz : Calm K z s) : Calm K z (candidateOp s) := by
  unfold candidateOp
  split
  · extract_lets x0 s1
    have h1 : Calm K z s1 := Calm.upd hz
    clear_value s1
    exact ite_calm h1 (ite_calm hz (prefetch_calm _ h1))
  · exact hz

theorem preloadRow_calm {z s : State} (n : Nat) (due : Bool) (hz : Calm K z s) : Calm K z (preloadRow s n due) := by
  unfold preloadRow
  split
  · exact hz
  · refine ite_calm hz ?_
    split
    · exact preloadAgain_calm _ _ _ _ hz
    · exact ite_calm (preloadStep_calm _ _ hz) hz

theorem stepOp_calm {z s : State} (n k : Nat) (hz : Calm K z s) : Calm K z (stepOp s n k) := by
  have he : ∀ (op : Nat) (f : Running → State), (∀ x, Calm K z (f x)) → Calm K z ((stepDue s n op).elim s f) := by
    intro op f hf
    cases stepDue s n op with
    | none => exact hz
    | some x => exact hf x
  unfold stepOp
  split
  · exact he _ _ fun x => ite_calm hz (invStep_calm _ _ _ hz)
  · exact preloadRow_calm _ _ hz
  · exact he _ _ fun x => lockStep_calm _ _ _ hz
  · exact he _ _ fun x => lockStep_calm _ _ _ hz
  · exact he _ _ fun x => ite_calm hz (dropStep_calm _ _ _ hz)
  · exact he _ _ fun x => restrengthStep_calm _ _ hz
  · exact he _ _ fun x => verifyStep_calm _ _ hz
  · split
    · exact ite_calm (epochWalk_calm _ _ hz) hz
    · exact hz
  · exact hz

theorem turn_calm {s t : State} {o : PipeOp} {k n : Nat} (h : turn s o k = some (t, n)) : Calm K s t := by
  have hr := Calm.refl (K := K) s
  have hi : ∀ {c : Prop} [Decidable c] {x y : Option (State × Nat)}, (x = some (t, n) → Calm K s t) → (y = some (t, n) → Calm K s t) →
      (if c then x else y) = some (t, n) → Calm K s t := fun hx hy => by split <;> assumption
  have hs : ∀ {x : State} {m : Nat}, Calm K s x → some (x, m) = some (t, n) → Calm K s t := fun h e => by cases e; exact h
  have hn : (none : Option (State × Nat)) = some (t, n) → Calm K s t := fun e => nomatch e
  revert h
  unfold turn
  refine hi hn (hi (hi (hs (Calm.upd hr)) hn) ?_)
  dsimp only
  split
  · exact hi (hs (Calm.upd hr)) hn
  · exact hi (hs (Calm.upd hr)) hn
  · exact hs (Calm.upd hr)
  · split
    · exact hi (hs (Calm.upd hr)) hn
    · exact hn
  · exact hs (Calm.upd hr)

/-- The row of an operation that keeps the parts `K`. -/
theorem pipeRow_calm {z s : State} (o : PipeOp) (k : Nat) (perr : Bool)
    (ho : ∀ t n, Calm K z t → Calm K z (opRun t n perr o)) (hz : Calm K z s) : Calm K z (pipeRow s o k perr) := by
  unfold pipeRow
  split
  · next h => exact settle_calm (ho _ _ (hz.trans (turn_calm h)))
  · exact hz

theorem installRow_calm {z s : State} (i k : Nat) (b : Bool) (hz : Calm K z s) : Calm K z (pipeRow s (.install i) k b) :=
  pipeRow_calm _ _ _ (fun _ _ h => installOp_calm _ h) hz

theorem setRow_calm {z s : State} (k : Nat) (b : Bool) (hz : Calm K z s) : Calm K z (pipeRow s .setClear k b) :=
  pipeRow_calm _ _ _ (fun _ _ h => setOp_calm h) hz

theorem sectorRow_calm {z s : State} (k : Nat) (b : Bool) (hz : Calm K z s) : Calm K z (pipeRow s .sectorClear k b) :=
  pipeRow_calm _ _ _ (fun _ _ h => sectorOp_calm h) hz

theorem screeRow_calm {z s : State} (k : Nat) (b : Bool) (hz : Calm K z s) : Calm K z (pipeRow s .retirement k b) :=
  pipeRow_calm _ _ _ (fun _ _ h => retireOp_calm h) hz

theorem lookupRow_calm {z s : State} (i k : Nat) (b : Bool) (hz : Calm K z s) : Calm K z (pipeRow s (.completion i) k b) :=
  pipeRow_calm _ _ _ (fun _ _ h => lookupOp_calm _ h) hz

theorem candidateRow_calm {z s : State} (k : Nat) (b : Bool) (hz : Calm K z s) : Calm K z (pipeRow s .candidate k b) :=
  pipeRow_calm _ _ _ (fun _ _ h => candidateOp_calm h) hz

theorem reenterRow_calm {z s : State} (k : Nat) (b : Bool) (hz : Calm K z s) : Calm K z (pipeRow s .reenter k b) :=
  pipeRow_calm _ _ _ (fun _ _ h => grantHandler_calm h) hz

theorem passRow_calm {z s : State} (w k : Nat) (b : Bool) (hz : Calm K z s) : Calm K z (pipeRow s (.pass w) k b) :=
  pipeRow_calm _ _ _ (fun _ _ h => performingPass_calm _ h) hz

theorem unitRow_calm {z s : State} (n op k : Nat) (hz : Calm K z s) : Calm K z (unitRow s n op k) :=
  ite_calm (pipeRow_calm _ _ _ (fun _ _ h => stepOp_calm _ _ h) hz) hz

theorem storeRow_calm {z s : State} (w : Nat) (perr : Bool) (hz : Calm K z s) (nregs : ¬ K .regs := by assumption)
    (ntick : ¬ K .tick := by assumption) (nclk : ¬ K .clk := by assumption) (nsync : ¬ K .sync := by assumption)
    (nundef : ¬ K .undef := by assumption) : Calm K z (storeRow s w perr) :=
  ite_calm (pipeRow_calm _ _ _ (fun _ _ h => storeRetire_calm _ _ h) hz) (settle_calm (storeRetire_calm _ _ hz))

theorem accessRow_calm {z s : State} (ready : List Nat) (hz : Calm K z s) : Calm K z (accessRow s ready) := by
  unfold accessRow
  split
  · exact settle_calm (issueAcc_calm _ (Calm.upd hz))
  · exact hz

theorem readDoneRow_calm {z s : State} (id : Nat) (ws : List (BitVec 64 × BitVec 8)) (hz : Calm K z s) :
    Calm K z (readDoneRow s id ws) := by
  unfold readDoneRow
  split
  · exact ite_calm (settle_calm (accData_calm _ _ hz)) hz
  · exact hz

theorem quiesceMark_calm {z s : State}  (hz : Calm K z s) : Calm K z (quiesceMark s) :=
  ite_calm (markAll_calm (Calm.upd hz)) hz

theorem drainRow_calm {z s : State} (perr : Bool) (hz : Calm K z s) : Calm K z (drainRow s perr) := by
  unfold drainRow
  split
  · exact ite_calm (settle_calm (startDrain_calm _ _ hz)) hz
  · exact hz

theorem writeRow_calm {z s : State} (i : Nat) (perr : Bool) (hz : Calm K z s) : Calm K z (writeRow s i perr) := by
  unfold writeRow
  split
  · exact ite_calm (settle_calm (drainWrite_calm _ _ (Calm.upd hz))) hz
  · exact hz

theorem completionRow_calm {z s : State} (c : Cpl) (perr : Bool) (hz : Calm K z s) : Calm K z (completionRow s c perr) := by
  unfold completionRow
  split
  · exact logMemViol_calm _ _ hz
  · exact ite_calm (settle_calm (lateCpl_calm _ _ _ hz)) (ite_calm hz (settle_calm (dataCpl_calm _ _ _ _ hz)))

theorem flushRow_calm {z s : State} (c : Cpl) (hz : Calm K z s) : Calm K z (flushRow s c) := by
  unfold flushRow
  split
  · split
    · exact ite_calm hz (settle_calm (flushCpl_calm _ _ _ _ hz))
    · exact hz
  · exact hz

theorem timeoutRow_calm {z s : State} (tag : Nat) (hz : Calm K z s) : Calm K z (timeoutRow s tag) := by
  unfold timeoutRow
  split
  · exact ite_calm hz (settle_calm (readTimeout_calm _ hz))
  · exact hz

theorem probeRow_calm {z s : State} (res : Option Cpl) (hz : Calm K z s) : Calm K z (probeRow s res) := by
  unfold probeRow
  split
  · exact hz
  · split
    · exact settle_calm (probeFailed_calm (endParts_calm _ _ hz))
    · exact ite_calm hz (ite_calm (settle_calm (probeMet_calm (dropRead_calm _ hz)))
        (settle_calm (probeFailed_calm (dropRead_calm _ (logMemViol_calm _ _ hz)))))

theorem linkErrorRow_calm {z s : State} (e : LinkErr) (hz : Calm K z s) : Calm K z (linkErrorRow s e) := by
  unfold linkErrorRow
  split
  · exact aerCorSet_calm _ (count_calm hz)
  · extract_lets s0
    have h1 : Calm K z s0 := aerUncSet_calm _ hz
    clear_value s0
    exact ite_calm (linkLost_calm h1) (startRecovery_calm _ h1)

theorem messageRow_calm {z s : State} (m : BridgeMsg) (header : List Reg32) (hz : Calm K z s) :
    Calm K z (messageRow s m header) := by
  unfold messageRow
  split
  · exact aerCorSet_calm _ hz
  · exact startRecovery_calm _ (aerUncSet_calm _ hz)
  · exact aerUncSet_calm _ hz
  · exact logMemViol_calm _ _ hz

theorem requestTlp_calm {z s : State} (r : BridgeReq) (header : List Reg32) (hz : Calm K z s) :
    Calm K z (requestTlp s r header) := by
  unfold requestTlp
  split
  · exact logMemViol_calm _ _ (sendTlp_calm _ hz)
  · exact logMemViol_calm _ _ hz
  · exact logMemViol_calm _ _ (sendTlp_calm _ hz)
  · exact logMemViol_calm _ _ hz
  · exact logMemViol_calm _ _ hz

theorem configEnd_calm {z s : State} (res : Option (CplStatus × Reg32)) (hz : Calm K z s) (nregs : ¬ K .regs := by assumption) :
    Calm K z (configEnd s res) := by
  unfold configEnd
  extract_lets x0 s1 x2
  have h3 : Calm K z s1 := Calm.upd hz
  clear_value s1
  split
  · exact Calm.upd h3
  · extract_lets s4
    have h5 : Calm K z s4 := Calm.upd h3
    clear_value s4
    exact ite_calm (regPut_calm _ _ h5) h5

theorem stepRow_calm {z s : State} (n op : Nat) (f : State → Running → State) (hf : ∀ x, Calm K z (f s x)) (hz : Calm K z s) :
    Calm K z (stepRow s n op f) := by
  unfold stepRow
  split
  · exact settle_calm (hf _)
  · exact hz

theorem epochRow_calm {z s : State} (run : EpochRun) (units : Nat) (hz : Calm K z s) (nregs : ¬ K .regs := by assumption) :
    Calm K z (epochRow s run units) := by
  unfold epochRow
  split
  · exact ite_calm (pipeRow_calm _ _ _ (fun _ _ h => stepOp_calm _ _ h) hz) (settle_calm (epochStep_calm _ hz))
  · exact hz

theorem entryRow_calm {z s : State}  (hz : Calm K z s) (nslots : ¬ K .slots := by assumption) : Calm K z (entryRow s) := by
  unfold entryRow
  split
  · exact settle_calm (entryStep_calm _ hz)
  · exact hz

theorem cspWakeRow_calm {z s : State} (pass : Bool) (hz : Calm K z s) : Calm K z (cspWakeRow s pass) := by
  unfold cspWakeRow
  extract_lets s0 x1
  have h2 : Calm K z s0 := setWake_calm _ (cspWoken_calm _ hz)
  clear_value s0
  exact ite_calm h2 (updRun_calm _ _ (Calm.upd h2))

theorem l0Row_calm {z s : State} (inL0 : Bool) (hz : Calm K z s) : Calm K z (l0Row s inL0) := by
  unfold l0Row
  split
  · exact hz
  · refine ite_calm ?_ ?_
    · exact hz
    · extract_lets s0 x1 s2
      have h3 : Calm K z s0 := setWake_calm _ hz
      clear_value s0
      have h4 : Calm K z s2 := ite_calm (Calm.upd h3) (linkLost_calm h3)
      clear_value s2
      exact settle_calm (ite_calm h4 (pageDue_calm _ (selfEpoch_calm h4)))

theorem wakeOver_calm {z s : State}  (hz : Calm K z s) : Calm K z (wakeOver s) := ite_calm (Calm.upd hz) hz

theorem ownEnd_calm {z s : State}  (hz : Calm K z s) (nregs : ¬ K .regs := by assumption) : Calm K z (ownEnd s) := by
  unfold ownEnd
  split
  · extract_lets s0 x1
    have h2 : Calm K z s0 := finishRun_calm _ _ _ (applyEpoch_calm _ hz)
    clear_value s0
    exact Calm.upd h2
  · exact hz

theorem fullRow_calm {z s : State} (us : BitVec 16) (hz : Calm K z s) (nregs : ¬ K .regs := by assumption) :
    Calm K z (fullRow s us) := by
  unfold fullRow
  extract_lets x0 s1 x2 s3
  have h4 : Calm K z s1 := ownEnd_calm hz
  clear_value s1
  have h5 : Calm K z s3 := event_calm _ _ _ (Calm.upd h4)
  clear_value s3
  exact settle_calm (wakeOver_calm (raiseInt_calm _ h5))

theorem offKept_calm {z s : State}  (hz : Calm K z s) (nphase : ¬ K .phase := by assumption) (ntap : ¬ K .tap := by assumption) (nregs : ¬ K .regs := by assumption) (ntick : ¬ K .tick := by assumption) (nclk : ¬ K .clk := by assumption) (nsync : ¬ K .sync := by assumption) (nrate : ¬ K .rate := by assumption) (nundef : ¬ K .undef := by assumption) :
    Calm K z (offKept s) := by
  unfold offKept
  extract_lets s0 x1
  have h2 : Calm K z s0 := resetKept_calm hz
  clear_value s0
  exact Calm.upd h2

theorem mbistLoss_calm {z s : State} (t : BitVec 9) (hz : Calm K z s) : Calm K z (mbistLoss s t) := by
  unfold mbistLoss
  extract_lets x0 s1 x2 s3 x4 x5 s6 x7
  have h8 : Calm K z s1 := ite_calm (Calm.upd hz) hz
  clear_value s1
  have h9 : Calm K z s3 := ite_calm (prune_calm (Calm.upd h8)) h8
  clear_value s3
  have h10 : Calm K z s6 := ite_calm (Calm.upd h9) h9
  clear_value s6
  exact Calm.upd h10

theorem mbistEnd_calm {z s : State} (fail : BitVec 9) (hz : Calm K z s) : Calm K z (mbistEnd s fail) :=
  mbistLoss_calm _ (Calm.upd hz)

theorem rsnsRow_calm {z s : State} (k : Nat) (b : Bool) (hz : Calm K z s) : Calm K z (rsnsRow s k b) := by
  unfold rsnsRow
  extract_lets x0 s1
  have h1 : Calm K z s1 := Calm.upd hz
  clear_value s1
  exact ite_calm (settle_calm (sampleRsns_calm _ h1)) h1

/-! ### The TAP -/

theorem updTap_calm {z s : State} (f : Tap → Tap) (hz : Calm K z s) (ntap : ¬ K .tap := by assumption) : Calm K z (updTap s f) :=
  Calm.upd hz

theorem seeSwing_calm {z s : State} (x : Swing) (hz : Calm K z s) (ntap : ¬ K .tap := by assumption) : Calm K z (seeSwing s x) :=
  ite_calm (Calm.upd hz) hz

theorem captureDr_calm {z s : State} (pins : BitVec 1112) (hz : Calm K z s) (ntap : ¬ K .tap := by assumption) :
    Calm K z (captureDr s pins) := by
  unfold captureDr
  split <;> exact updTap_calm _ hz

theorem shiftDr_calm {z s : State} (b : Bool) (hz : Calm K z s) (ntap : ¬ K .tap := by assumption) : Calm K z (shiftDr s b) := by
  unfold shiftDr
  dsimp only
  split <;> exact updTap_calm _ (emit_calm _ hz)

theorem tckRise_calm {z s : State} (pins : BitVec 1112) (t : Tck) (hz : Calm K z s) (ntap : ¬ K .tap := by assumption) :
    Calm K z (tckRise s pins t) := by
  unfold tckRise
  refine updTap_calm _ ?_
  split
  · exact updTap_calm _ hz
  · exact updTap_calm _ (emit_calm _ hz)
  · exact captureDr_calm _ hz
  · exact shiftDr_calm _ hz
  · exact hz

theorem updateIr_calm {z s : State} (hz : Calm K z s) (ntap : ¬ K .tap := by assumption) (nundef : ¬ K .undef := by assumption) :
    Calm K z (updateIr s) :=
  ite_calm (breach_calm _ (updTap_calm _ hz)) (updTap_calm _ hz)

theorem updateDr_calm {z s : State} (hz : Calm K z s) (ntap : ¬ K .tap := by assumption) : Calm K z (updateDr s) := by
  unfold updateDr
  split
  · exact updTap_calm _ hz
  · exact ite_calm (settle_calm (mbistStart_calm _ hz)) hz
  · exact hz

theorem tckFall_calm {z s : State} (hz : Calm K z s) (ntap : ¬ K .tap := by assumption) (nundef : ¬ K .undef := by assumption) :
    Calm K z (tckFall s) := by
  unfold tckFall
  split
  · exact updTap_calm _ hz
  · exact updateIr_calm hz
  · exact updateDr_calm (updTap_calm _ hz)
  · exact updTap_calm _ hz
  · exact updTap_calm _ hz

/-- What a run of TCK keeps. -/
theorem tapRun_calm {z s : State} (x : TapRun) (hz : Calm K z s) (ntap : ¬ K .tap := by assumption) (nundef : ¬ K .undef := by assumption) :
    Calm K z (tapRun s x) :=
  foldl_calm _ _ (fun _ _ h => tckFall_calm (tckRise_calm _ _ h)) (foldl_calm _ _ (fun _ _ h => seeSwing_calm _ h) hz)

theorem tapRow_calm {z s : State} (i : TapInstr) (x : TapRun) (hz : Calm K z s) (ntap : ¬ K .tap := by assumption)
    (nundef : ¬ K .undef := by assumption) : Calm K z (tapRow s i x) :=
  ite_calm (tapRun_calm _ hz) hz

end Sys2Proof.Machine
end

