-- ==== Sys2Proof/Laws/Rows.lean ====
section
/-! SUPPORT. What each command keeps, said once: `execX_calm`. A command that may change a part of `Part` asks that `K` leave it out. -/

namespace Sys2Proof.Machine
set_option Elab.async false
variable {K : Part → Prop}

theorem next_calm {a s t : State} (h : (.next s : Host.Outcome State Fault Refusal) = .next t) (k : Calm K a s) : Calm K a t := by
  cases h; exact k

theorem guarded_calm {s t : State} {f : State → State} (h : guarded s f = .next t) (k : Calm K s (f s)) : Calm K s t := by
  unfold guarded at h
  split at h
  · cases h
  · exact next_calm h k

theorem tapGuarded_calm {s t : State} {f : State → State} (h : tapGuarded s f = .next t) (k : Calm K s (f s)) : Calm K s t := by
  unfold tapGuarded at h
  split at h
  · exact next_calm h k
  · exact next_calm h k
  · cases h

theorem request_calm {s t : State} {c : ReqCmd} {x : Tenure} (h : requestRow c x s = .next t) : Calm K s t := by
  unfold requestRow at h
  split at h
  · exact guarded_calm h (tenureRow_calm _ (Calm.refl s))
  · cases h

theorem execAbort_calm {s z : State} (who : Fin 8) (mask : BitVec 4) 
    (h : execAbort who mask s = .next z) (nregs : ¬ K .regs) (ntick : ¬ K .tick) (nclk : ¬ K .clk) (nsync : ¬ K .sync) (nundef : ¬ K .undef) : Calm K s z :=
  guarded_calm h (regRow_calm _ _ _ (Calm.refl s))

theorem execAspmL1Entry_calm {s z : State} (h : execAspmL1Entry s = .next z) : Calm K s z :=
  guarded_calm h (when_calm _ _ (fun _ => Calm.upd (Calm.refl s)) (Calm.refl s))

theorem execAssertIntx_calm {s z : State} (h : execAssertIntx s = .next z) : Calm K s z :=
  guarded_calm h (when_calm _ _ (fun _ => raiseInt_calm _ (Calm.upd (Calm.refl s))) (Calm.refl s))

theorem execAtomic_calm {s z : State} (t : Tenure) (h : execAtomic t s = .next z) : Calm K s z := request_calm h

theorem execAtomicPerformingPass_calm {s z : State} (r : Fin 13) (h : execAtomicPerformingPass r s = .next z) : Calm K s z :=
  guarded_calm h (when_calm _ _ (fun _ => passRow_calm _ _ _ (Calm.refl s)) (Calm.refl s))

theorem execAvldOutOfTenure_calm {s z : State} (p : PortId) (h : execAvldOutOfTenure p s = .next z) : Calm K s z :=
  guarded_calm h (strayRow_calm _ (Calm.refl s))

theorem execBarrier_calm {s z : State} (t : Tenure) (h : execBarrier t s = .next z) : Calm K s z := request_calm h

theorem execBedrockSupplyLoss_calm {s z : State} 
    (h : execBedrockSupplyLoss s = .next z) (nphase : ¬ K .phase) (ntap : ¬ K .tap) (nregs : ¬ K .regs) (ntick : ¬ K .tick) (nclk : ¬ K .clk) (nsync : ¬ K .sync) (nrate : ¬ K .rate) (nundef : ¬ K .undef) : Calm K s z :=
  guarded_calm h (when_calm _ _ (fun _ => offKept_calm (Calm.refl s)) (Calm.refl s))

theorem execBitAliasWrite_calm {s z : State} (who : Fin 8) (off : BitVec 16) (val : Reg32) 
    (h : execBitAliasWrite who off val s = .next z) (nregs : ¬ K .regs) (ntick : ¬ K .tick) (nclk : ¬ K .clk) (nsync : ¬ K .sync) (nundef : ¬ K .undef) : Calm K s z :=
  guarded_calm h (when_calm _ _ (fun _ => regRow_calm _ _ _ (Calm.refl s)) (Calm.refl s))

theorem execBridgeMessage_calm {s z : State} (m : BridgeMsg) (header : List Reg32) (h : execBridgeMessage m header s = .next z) : Calm K s z :=
  guarded_calm h (when_calm _ _ (fun _ => settle_calm (messageRow_calm _ _ (Calm.refl s))) (Calm.refl s))

theorem execBridgeRequest_calm {s z : State} (r : BridgeReq) (header : List Reg32) (h : execBridgeRequest r header s = .next z) : Calm K s z :=
  guarded_calm h (when_calm _ _ (fun _ => requestTlp_calm _ _ (Calm.refl s)) (Calm.refl s))

theorem execBucketLeak_calm {s z : State} (n : Fin 6) (h : execBucketLeak n s = .next z) : Calm K s z :=
  guarded_calm h (when_calm _ _ (fun _ => Calm.upd (Calm.refl s)) (Calm.refl s))

theorem execBypass_calm {s z : State} (x : TapRun) (h : execBypass x s = .next z) (ntap : ¬ K .tap) (nundef : ¬ K .undef) : Calm K s z :=
  tapGuarded_calm h (when_calm _ _ (fun _ => tapRow_calm _ _ (Calm.refl s)) (Calm.refl s))

theorem execCacheDisable_calm {s z : State} (who : Fin 8) 
    (h : execCacheDisable who s = .next z) (nregs : ¬ K .regs) (ntick : ¬ K .tick) (nclk : ¬ K .clk) (nsync : ¬ K .sync) (nundef : ¬ K .undef) : Calm K s z :=
  guarded_calm h (regRow_calm _ _ _ (Calm.refl s))

theorem execCacheEnable_calm {s z : State} (who : Fin 8) 
    (h : execCacheEnable who s = .next z) (nregs : ¬ K .regs) (ntick : ¬ K .tick) (nclk : ¬ K .clk) (nsync : ¬ K .sync) (nundef : ¬ K .undef) : Calm K s z :=
  guarded_calm h (regRow_calm _ _ _ (Calm.refl s))

theorem execCacheStoreAccess_calm {s z : State} (ready : List Nat) (h : execCacheStoreAccess ready s = .next z) : Calm K s z :=
  guarded_calm h (when_calm _ _ (fun _ => accessRow_calm _ (Calm.refl s)) (Calm.refl s))

theorem execCacheStoreReadDone_calm {s z : State} (id : Nat) (ws : List (BitVec 64 × BitVec 8)) 
    (h : execCacheStoreReadDone id ws s = .next z) : Calm K s z :=
  guarded_calm h (when_calm _ _ (fun _ => readDoneRow_calm _ _ (Calm.refl s)) (Calm.refl s))

theorem execCfgRefWrite_calm {s z : State} (who : Fin 8) (val : Reg32) 
    (h : execCfgRefWrite who val s = .next z) (nregs : ¬ K .regs) (ntick : ¬ K .tick) (nclk : ¬ K .clk) (nsync : ¬ K .sync) (nundef : ¬ K .undef) : Calm K s z :=
  guarded_calm h (regRow_calm _ _ _ (Calm.refl s))

theorem execClamp_calm {s z : State} (x : TapRun) (h : execClamp x s = .next z) (ntap : ¬ K .tap) (nundef : ¬ K .undef) : Calm K s z :=
  tapGuarded_calm h (when_calm _ _ (fun _ => tapRow_calm _ _ (Calm.refl s)) (Calm.refl s))

theorem execClass0Ready_calm {s z : State} (us : BitVec 16) (h : execClass0Ready us s = .next z) : Calm K s z :=
  guarded_calm h (when_calm _ _ (fun _ => settle_calm (wakeOver_calm (event_calm _ _ _
    (foldl_calm _ _ (fun _ _ h => sampleRsns_calm _ h) (Calm.upd (Calm.refl s)))))) (Calm.refl s))

theorem execClkreqInSleep_calm {s z : State} (h : execClkreqInSleep s = .next z) : Calm K s z :=
  guarded_calm h (when_calm _ _ (fun _ => Calm.upd (Calm.refl s)) (Calm.refl s))

theorem execCmdEnable_calm {s z : State} (who : Fin 8) (val : Reg32) 
    (h : execCmdEnable who val s = .next z) (nregs : ¬ K .regs) (ntick : ¬ K .tick) (nclk : ¬ K .clk) (nsync : ¬ K .sync) (nundef : ¬ K .undef) : Calm K s z :=
  guarded_calm h (regRow_calm _ _ _ (Calm.refl s))

theorem execCmdRingWrite_calm {s z : State} (who : Fin 8) (off : BitVec 16) (val : Reg32) 
    (h : execCmdRingWrite who off val s = .next z) (nregs : ¬ K .regs) (ntick : ¬ K .tick) (nclk : ¬ K .clk) (nsync : ¬ K .sync) (nundef : ¬ K .undef) : Calm K s z :=
  guarded_calm h (when_calm _ _ (fun _ => regRow_calm _ _ _ (Calm.refl s)) (Calm.refl s))

theorem execCmdSqDb_calm {s z : State} (who : Fin 8) (ring : Fin 4) (tail : BitVec 12) 
    (h : execCmdSqDb who ring tail s = .next z) (nregs : ¬ K .regs) (ntick : ¬ K .tick) (nclk : ¬ K .clk) (nsync : ¬ K .sync) (nundef : ¬ K .undef) : Calm K s z :=
  guarded_calm h (regRow_calm _ _ _ (Calm.refl s))

theorem execColdReset_calm {s z : State} (straps : BitVec 3) 
    (h : execColdReset straps s = .next z) (nphase : ¬ K .phase) (nundef : ¬ K .undef) : Calm K s z :=
  next_calm h (when_calm _ _ (fun _ => Calm.upd (Calm.refl s)) (Calm.refl s))

theorem execCommandUnitDone_calm {s z : State} (n : Fin 4) (perr : Bool) (h : execCommandUnitDone n perr s = .next z) : Calm K s z :=
  guarded_calm h (when_calm _ _ (fun _ => settle_calm (unitArrival_calm _ _ (Calm.refl s))) (Calm.refl s))

theorem execCommitWindowExpire_calm {s z : State} (h : execCommitWindowExpire s = .next z) : Calm K s z :=
  guarded_calm h (when_calm _ _ (fun _ => closeWindow_calm (Calm.refl s)) (Calm.refl s))

theorem execCompletionEntryWrite_calm {s z : State} (h : execCompletionEntryWrite s = .next z) : Calm K s z :=
  guarded_calm h (when_calm _ _ (fun _ => settle_calm (cqRow_calm (Calm.refl s))) (Calm.refl s))

theorem execCompletionLookup_calm {s z : State} (slot : Nat) (h : execCompletionLookup slot s = .next z) : Calm K s z :=
  guarded_calm h (when_calm _ _ (fun _ => lookupRow_calm _ _ _ (Calm.refl s)) (Calm.refl s))

theorem execCompletionTimeout_calm {s z : State} (tag : BitVec 8) (h : execCompletionTimeout tag s = .next z) : Calm K s z :=
  guarded_calm h (when_calm _ _ (fun _ => timeoutRow_calm _ (Calm.refl s)) (Calm.refl s))

theorem execConfigCompletion_calm {s z : State} (res : Option (CplStatus × Reg32)) 
    (h : execConfigCompletion res s = .next z) (nregs : ¬ K .regs) : Calm K s z :=
  guarded_calm h (when_calm _ _ (fun _ => configEnd_calm _ (Calm.refl s)) (Calm.refl s))

theorem execConfigRequest_calm {s z : State} (who : Fin 8) (val : Reg32) 
    (h : execConfigRequest who val s = .next z) (nregs : ¬ K .regs) (ntick : ¬ K .tick) (nclk : ¬ K .clk) (nsync : ¬ K .sync) (nundef : ¬ K .undef) : Calm K s z :=
  guarded_calm h (when_calm _ _ (fun _ => regRow_calm _ _ _ (Calm.refl s)) (Calm.refl s))

theorem execCrcPassStart_calm {s z : State} (h : execCrcPassStart s = .next z) : Calm K s z :=
  guarded_calm h (when_calm _ _ (fun _ => passRead_calm (startPass_calm (Calm.refl s))) (Calm.refl s))

theorem execCrystalStop_calm {s z : State} (h : execCrystalStop s = .next z) (nclk : ¬ K .clk) : Calm K s z :=
  guarded_calm h (when_calm _ _ (fun _ => Calm.upd (Calm.refl s)) (Calm.refl s))

theorem execCspInit_calm {s z : State} (who : Fin 8) 
    (h : execCspInit who s = .next z) (nregs : ¬ K .regs) (ntick : ¬ K .tick) (nclk : ¬ K .clk) (nsync : ¬ K .sync) (nundef : ¬ K .undef) : Calm K s z :=
  guarded_calm h (regRow_calm _ _ _ (Calm.refl s))

theorem execCspInitStepDone_calm {s z : State} (r : InitResult) (h : execCspInitStepDone r s = .next z) : Calm K s z :=
  guarded_calm h (when_calm _ _ (fun _ => settle_calm (cspNext_calm _ (Calm.refl s))) (Calm.refl s))

theorem execCspWake_calm {s z : State} (pass : Bool) (h : execCspWake pass s = .next z) : Calm K s z :=
  guarded_calm h (when_calm _ _ (fun _ => settle_calm (cspWakeRow_calm _ (Calm.refl s))) (Calm.refl s))

theorem execDdrAlert_calm {s z : State} (rank : Fin 2) (h : execDdrAlert rank s = .next z) : Calm K s z :=
  guarded_calm h (when_calm _ _ (fun _ => settle_calm (cspAlert_calm _ (Calm.refl s))) (Calm.refl s))

theorem execDdrRefresh_calm {s z : State} (rank : Fin 2) (h : execDdrRefresh rank s = .next z) : Calm K s z :=
  guarded_calm h (when_calm _ _ (fun _ => count_calm (emit_calm _ (Calm.refl s))) (Calm.refl s))

theorem execDeassertIntx_calm {s z : State} (h : execDeassertIntx s = .next z) : Calm K s z :=
  guarded_calm h (when_calm _ _ (fun _ => Calm.upd (Calm.refl s)) (Calm.refl s))

theorem execDescriptorRead_calm {s z : State} (n : Fin 4) (h : execDescriptorRead n s = .next z) : Calm K s z :=
  guarded_calm h (when_calm _ _ (fun _ => settle_calm (descRead_calm _ (Calm.refl s))) (Calm.refl s))

theorem execDescriptorReadDone_calm {s z : State} (n : Fin 4) (h : execDescriptorReadDone n s = .next z) : Calm K s z := by
  have hz := Calm.refl (K := K) s
  refine guarded_calm h ?_
  refine ite_calm ?_ ?_
  · split
    · exact settle_calm (descArrive_calm _ _ hz)
    · exact hz
  · exact hz

theorem execDlUp_calm {s z : State} (speed width : BitVec 4) (h : execDlUp speed width s = .next z) : Calm K s z :=
  guarded_calm h (when_calm _ _ (fun _ => settle_calm (linkUp_calm _ _ (Calm.refl s))) (Calm.refl s))

theorem execDmaRestart_calm {s z : State} (who : Fin 8) (mask : BitVec 4) 
    (h : execDmaRestart who mask s = .next z) (nregs : ¬ K .regs) (ntick : ¬ K .tick) (nclk : ¬ K .clk) (nsync : ¬ K .sync) (nundef : ¬ K .undef) : Calm K s z :=
  guarded_calm h (regRow_calm _ _ _ (Calm.refl s))

theorem execDrainStart_calm {s z : State} (perr : Bool) (h : execDrainStart perr s = .next z) : Calm K s z :=
  guarded_calm h (when_calm _ _ (fun _ => drainRow_calm _ (quiesceMark_calm (Calm.refl s))) (Calm.refl s))

theorem execDrainWrite_calm {s z : State} (slot : Nat) (perr : Bool) (h : execDrainWrite slot perr s = .next z) : Calm K s z :=
  guarded_calm h (when_calm _ _ (fun _ => writeRow_calm _ _ (Calm.refl s)) (Calm.refl s))

theorem execDriftWindow_calm {s z : State} (count : Nat) (h : execDriftWindow count s = .next z) (nclk : ¬ K .clk) : Calm K s z :=
  guarded_calm h (when_calm _ _ (fun _ => settle_calm (monWindow_calm _ (Calm.refl s))) (Calm.refl s))

theorem execEventEntryWrite_calm {s z : State} (h : execEventEntryWrite s = .next z) : Calm K s z :=
  guarded_calm h (when_calm _ _ (fun _ => settle_calm (eqRow_calm (Calm.refl s))) (Calm.refl s))

theorem execExtest_calm {s z : State} (x : TapRun) (h : execExtest x s = .next z) (ntap : ¬ K .tap) (nundef : ¬ K .undef) : Calm K s z :=
  tapGuarded_calm h (when_calm _ _ (fun _ => tapRow_calm _ _ (Calm.refl s)) (Calm.refl s))

theorem execExtestPulse_calm {s z : State} (x : TapRun) (h : execExtestPulse x s = .next z) (ntap : ¬ K .tap) (nundef : ¬ K .undef) : Calm K s z :=
  tapGuarded_calm h (when_calm _ _ (fun _ => tapRow_calm _ _ (Calm.refl s)) (Calm.refl s))

theorem execExtestTrain_calm {s z : State} (x : TapRun) (h : execExtestTrain x s = .next z) (ntap : ¬ K .tap) (nundef : ¬ K .undef) : Calm K s z :=
  tapGuarded_calm h (when_calm _ _ (fun _ => tapRow_calm _ _ (Calm.refl s)) (Calm.refl s))

theorem execFillInstall_calm {s z : State} (i : Fin 64) (h : execFillInstall i s = .next z) : Calm K s z :=
  guarded_calm h (when_calm _ _ (fun _ => installRow_calm _ _ _ (Calm.refl s)) (Calm.refl s))

theorem execFlushRead_calm {s z : State} (h : execFlushRead s = .next z) : Calm K s z :=
  guarded_calm h (when_calm _ _ (fun _ => settle_calm (flushIssue_calm (Calm.refl s))) (Calm.refl s))

theorem execFlushReadDone_calm {s z : State} (c : Cpl) (h : execFlushReadDone c s = .next z) : Calm K s z :=
  guarded_calm h (when_calm _ _ (fun _ => flushRow_calm _ (Calm.refl s)) (Calm.refl s))

theorem execFullReady_calm {s z : State} (us : BitVec 16) (h : execFullReady us s = .next z) (nregs : ¬ K .regs) : Calm K s z :=
  guarded_calm h (when_calm _ _ (fun _ => fullRow_calm _ (Calm.refl s)) (Calm.refl s))

theorem execGrant_calm {s z : State} (p : PortId) (pins : PortPins) (h0 : H0Cycle) (h : execGrant p pins h0 s = .next z) : Calm K s z :=
  guarded_calm h (grantRow_calm _ _ _ (Calm.refl s))

theorem execHighz_calm {s z : State} (x : TapRun) (h : execHighz x s = .next z) (ntap : ¬ K .tap) (nundef : ¬ K .undef) : Calm K s z :=
  tapGuarded_calm h (when_calm _ _ (fun _ => tapRow_calm _ _ (Calm.refl s)) (Calm.refl s))

theorem execHotrst_calm {s z : State} (who : Fin 8) 
    (h : execHotrst who s = .next z) (nregs : ¬ K .regs) (ntick : ¬ K .tick) (nclk : ¬ K .clk) (nsync : ¬ K .sync) (nundef : ¬ K .undef) : Calm K s z :=
  guarded_calm h (regRow_calm _ _ _ (Calm.refl s))

theorem execIdcode_calm {s z : State} (x : TapRun) (h : execIdcode x s = .next z) (ntap : ¬ K .tap) (nundef : ¬ K .undef) : Calm K s z :=
  tapGuarded_calm h (when_calm _ _ (fun _ => tapRow_calm _ _ (Calm.refl s)) (Calm.refl s))

theorem execInvalidateAll_calm {s z : State} (n : Fin 4) (units : Nat) (h : execInvalidateAll n units s = .next z) : Calm K s z :=
  guarded_calm h (unitRow_calm _ _ _ (Calm.refl s))

theorem execKeyLapse_calm {s z : State} (h : execKeyLapse s = .next z) : Calm K s z :=
  guarded_calm h (when_calm _ _ (fun _ => lapseKey_calm (Calm.refl s)) (Calm.refl s))

theorem execKeyUnlock_calm {s z : State} (who : Fin 8) (val : Reg32) 
    (h : execKeyUnlock who val s = .next z) (nregs : ¬ K .regs) (ntick : ¬ K .tick) (nclk : ¬ K .clk) (nsync : ¬ K .sync) (nundef : ¬ K .undef) : Calm K s z :=
  guarded_calm h (regRow_calm _ _ _ (Calm.refl s))

theorem execL12ExitDone_calm {s z : State} (inL0 : Bool) (h : execL12ExitDone inL0 s = .next z) : Calm K s z :=
  guarded_calm h (when_calm _ _ (fun _ => l0Row_calm _ (Calm.refl s)) (Calm.refl s))

theorem execLinkDown_calm {s z : State} (h : execLinkDown s = .next z) : Calm K s z :=
  guarded_calm h (when_calm _ _ (fun _ => settle_calm (linkLost_calm (Calm.refl s))) (Calm.refl s))

theorem execLinkEnable_calm {s z : State} (who : Fin 8) (val : Reg32) 
    (h : execLinkEnable who val s = .next z) (nregs : ¬ K .regs) (ntick : ¬ K .tick) (nclk : ¬ K .clk) (nsync : ¬ K .sync) (nundef : ¬ K .undef) : Calm K s z :=
  guarded_calm h (regRow_calm _ _ _ (Calm.refl s))

theorem execLinkError_calm {s z : State} (e : LinkErr) (h : execLinkError e s = .next z) : Calm K s z :=
  guarded_calm h (when_calm _ _ (fun _ => settle_calm (linkErrorRow_calm _ (Calm.refl s))) (Calm.refl s))

theorem execLinkL12Reached_calm {s z : State} 
    (h : execLinkL12Reached s = .next z) (nphase : ¬ K .phase) (ntap : ¬ K .tap) (nclk : ¬ K .clk) (nsync : ¬ K .sync) : Calm K s z :=
  guarded_calm h (when_calm _ _ (fun _ => settle_calm (sleepNow_calm (Calm.refl s))) (Calm.refl s))

theorem execLinkTrainTimeout_calm {s z : State} (h : execLinkTrainTimeout s = .next z) : Calm K s z :=
  guarded_calm h (when_calm _ _ (fun _ => settle_calm (recoveryProbe_calm (Calm.refl s))) (Calm.refl s))

theorem execLockAbort_calm {s z : State} (t : Tenure) (h : execLockAbort t s = .next z) : Calm K s z := request_calm h

theorem execLockMonitorWindow_calm {s z : State} (count : Nat) (h : execLockMonitorWindow count s = .next z) (nclk : ¬ K .clk) : Calm K s z :=
  guarded_calm h (when_calm _ _ (fun _ => lockWindow_calm _ (Calm.refl s)) (Calm.refl s))

theorem execLockRead_calm {s z : State} (t : Tenure) (h : execLockRead t s = .next z) : Calm K s z := request_calm h

theorem execLockTimeout_calm {s z : State} (k : Fin 8) (h : execLockTimeout k s = .next z) : Calm K s z :=
  guarded_calm h (when_calm _ _ (fun _ => settle_calm (lockBoundary_calm _ (Calm.refl s))) (Calm.refl s))

theorem execLockWays_calm {s z : State} (n : Fin 4) (h : execLockWays n s = .next z) : Calm K s z :=
  guarded_calm h (unitRow_calm _ _ _ (Calm.refl s))

theorem execLockWrite_calm {s z : State} (t : Tenure) (h : execLockWrite t s = .next z) : Calm K s z := request_calm h

theorem execMbist_calm {s z : State} (x : TapRun) (h : execMbist x s = .next z) (ntap : ¬ K .tap) (nundef : ¬ K .undef) : Calm K s z :=
  tapGuarded_calm h (when_calm _ _ (fun _ => ite_calm (tapRun_calm _ (Calm.refl s)) (Calm.refl s)) (Calm.refl s))

theorem execMbistDone_calm {s z : State} (fail : BitVec 9) (h : execMbistDone fail s = .next z) : Calm K s z :=
  guarded_calm h (when_calm _ _ (fun _ => settle_calm (mbistEnd_calm _ (Calm.refl s))) (Calm.refl s))

theorem execMbistStart_calm {s z : State} (who : Fin 8) 
    (h : execMbistStart who s = .next z) (nregs : ¬ K .regs) (ntick : ¬ K .tick) (nclk : ¬ K .clk) (nsync : ¬ K .sync) (nundef : ¬ K .undef) : Calm K s z :=
  guarded_calm h (regRow_calm _ _ _ (Calm.refl s))

theorem execMergeAgeMark_calm {s z : State} (h : execMergeAgeMark s = .next z) : Calm K s z :=
  guarded_calm h (when_calm _ _ (fun _ => markAged_calm (Calm.refl s)) (Calm.refl s))

theorem execMissHandlerGrant_calm {s z : State} (h : execMissHandlerGrant s = .next z) : Calm K s z :=
  guarded_calm h (when_calm _ _ (fun _ => reenterRow_calm _ _ (Calm.refl s)) (Calm.refl s))

theorem execNop_calm {s z : State} (n : Fin 4) (h : execNop n s = .next z) : Calm K s z :=
  guarded_calm h (stepRow_calm _ _ _ (fun _ => finishRun_calm _ _ _ (Calm.refl s)) (Calm.refl s))

theorem execOffprep_calm {s z : State} (who : Fin 8) 
    (h : execOffprep who s = .next z) (nregs : ¬ K .regs) (ntick : ¬ K .tick) (nclk : ¬ K .clk) (nsync : ¬ K .sync) (nundef : ¬ K .undef) : Calm K s z :=
  guarded_calm h (regRow_calm _ _ _ (Calm.refl s))

theorem execPerstOff_calm {s z : State} (who : Fin 8) (val : Reg32) 
    (h : execPerstOff who val s = .next z) (nregs : ¬ K .regs) (ntick : ¬ K .tick) (nclk : ¬ K .clk) (nsync : ¬ K .sync) (nundef : ¬ K .undef) : Calm K s z :=
  guarded_calm h (regRow_calm _ _ _ (Calm.refl s))

theorem execPmeToAck_calm {s z : State} (acked : Bool) (h : execPmeToAck acked s = .next z) : Calm K s z :=
  guarded_calm h (when_calm _ _ (fun _ => offReady_calm (turnOffDone_calm _ (Calm.refl s))) (Calm.refl s))

theorem execPoolDownRetry_calm {s z : State} (h : execPoolDownRetry s = .next z) : Calm K s z :=
  guarded_calm h (when_calm _ _ (fun _ => settle_calm (startRetry_calm (Calm.refl s))) (Calm.refl s))

theorem execPoolReadCompletion_calm {s z : State} (c : Cpl) (perr : Bool) (h : execPoolReadCompletion c perr s = .next z) : Calm K s z :=
  guarded_calm h (when_calm _ _ (fun _ => completionRow_calm _ _ (Calm.refl s)) (Calm.refl s))

theorem execPorstNAssert_calm {s z : State} 
    (h : execPorstNAssert s = .next z) (nphase : ¬ K .phase) (ntap : ¬ K .tap) (nregs : ¬ K .regs) (ntick : ¬ K .tick) (nclk : ¬ K .clk) (nsync : ¬ K .sync) (nrate : ¬ K .rate) (nundef : ¬ K .undef) : Calm K s z :=
  next_calm h (resetKept_calm (Calm.refl s))

theorem execPortDisable_calm {s z : State} (who : Fin 8) (p : PortId) (val : Reg32) 
    (h : execPortDisable who p val s = .next z) (nregs : ¬ K .regs) (ntick : ¬ K .tick) (nclk : ¬ K .clk) (nsync : ¬ K .sync) (nundef : ¬ K .undef) : Calm K s z :=
  guarded_calm h (when_calm _ _ (fun _ => regRow_calm _ _ _ (Calm.refl s)) (Calm.refl s))

theorem execPostedWriteTaken_calm {s z : State} (d : Domain) (h : execPostedWriteTaken d s = .next z) : Calm K s z := by
  have hz := Calm.refl (K := K) s
  refine guarded_calm h ?_
  split
  · exact when_calm _ _ (fun h => takeBedrock_calm hz) hz
  · exact when_calm _ _ (fun h => takePhy_calm hz) hz

theorem execPrbRevive_calm {s z : State} (who : Fin 8) (mask : BitVec 8) 
    (h : execPrbRevive who mask s = .next z) (nregs : ¬ K .regs) (ntick : ¬ K .tick) (nclk : ¬ K .clk) (nsync : ¬ K .sync) (nundef : ¬ K .undef) : Calm K s z :=
  guarded_calm h (regRow_calm _ _ _ (Calm.refl s))

theorem execPrefetchCandidate_calm {s z : State} (h : execPrefetchCandidate s = .next z) : Calm K s z :=
  guarded_calm h (when_calm _ _ (fun _ => candidateRow_calm _ _ (Calm.refl s)) (Calm.refl s))

theorem execPreload_calm {s z : State} (n : Fin 4) (h : execPreload n s = .next z) : Calm K s z :=
  guarded_calm h (when_calm _ _ (fun _ => unitRow_calm _ _ _ (Calm.refl s)) (Calm.refl s))

theorem execProbeAck_calm {s z : State} (k : Fin 8) (cycles : Nat) (late : Bool) (h : execProbeAck k cycles late s = .next z) : Calm K s z :=
  guarded_calm h (when_calm _ _ (fun _ => settle_calm (ackRun_calm _ _ _ (Calm.refl s))) (Calm.refl s))

theorem execProbeReadDone_calm {s z : State} (res : Option Cpl) (h : execProbeReadDone res s = .next z) : Calm K s z :=
  guarded_calm h (when_calm _ _ (fun _ => probeRow_calm _ (Calm.refl s)) (Calm.refl s))

theorem execProbeSend_calm {s z : State} (p : PortId) (perr : Bool) (h : execProbeSend p perr s = .next z) : Calm K s z := by
  have hz := Calm.refl (K := K) s
  refine guarded_calm h ?_
  refine ite_calm ?_ ?_
  · split
    · exact settle_calm (sendProbe_calm _ _ hz)
    · exact hz
  · exact hz

theorem execProbeTimeout_calm {s z : State} (k : Fin 8) (h : execProbeTimeout k s = .next z) : Calm K s z :=
  guarded_calm h (when_calm _ _ (fun _ => settle_calm (agentTimeout_calm _ (Calm.refl s))) (Calm.refl s))

theorem execRead_calm {s z : State} (t : Tenure) (h : execRead t s = .next z) : Calm K s z := request_calm h

theorem execReadFetch_calm {s z : State} (t : Tenure) (h : execReadFetch t s = .next z) : Calm K s z := request_calm h

theorem execReadSpec_calm {s z : State} (t : Tenure) (h : execReadSpec t s = .next z) : Calm K s z := request_calm h

theorem execRefback_calm {s z : State} (who : Fin 8) 
    (h : execRefback who s = .next z) (nregs : ¬ K .regs) (ntick : ¬ K .tick) (nclk : ¬ K .clk) (nsync : ¬ K .sync) (nundef : ¬ K .undef) : Calm K s z :=
  guarded_calm h (regRow_calm _ _ _ (Calm.refl s))

theorem execRegionDrop_calm {s z : State} (n : Fin 4) (units : Nat) (h : execRegionDrop n units s = .next z) : Calm K s z :=
  guarded_calm h (unitRow_calm _ _ _ (Calm.refl s))

theorem execRegisterWrite_calm {s z : State} (who : Fin 8) (off : BitVec 16) (val : Reg32) 
    (h : execRegisterWrite who off val s = .next z) (nregs : ¬ K .regs) (ntick : ¬ K .tick) (nclk : ¬ K .clk) (nsync : ¬ K .sync) (nundef : ¬ K .undef) : Calm K s z :=
  guarded_calm h (when_calm _ _ (fun _ => regRow_calm _ _ _ (Calm.refl s)) (Calm.refl s))

theorem execRelock_calm {s z : State} (who : Fin 8) 
    (h : execRelock who s = .next z) (nregs : ¬ K .regs) (ntick : ¬ K .tick) (nclk : ¬ K .clk) (nsync : ¬ K .sync) (nundef : ¬ K .undef) : Calm K s z :=
  guarded_calm h (regRow_calm _ _ _ (Calm.refl s))

theorem execRelockComplete_calm {s z : State} 
    (h : execRelockComplete s = .next z) (nphase : ¬ K .phase) (nregs : ¬ K .regs) (ntick : ¬ K .tick) (nclk : ¬ K .clk) (nsync : ¬ K .sync) (nrate : ¬ K .rate) : Calm K s z :=
  guarded_calm h (when_calm _ _ (fun _ => lockReached_calm (Calm.refl s)) (Calm.refl s))

theorem execResetSenseAssert_calm {s z : State} (who : Fin 12) (h : execResetSenseAssert who s = .next z) : Calm K s z :=
  guarded_calm h (rsnsRow_calm _ _ (Calm.refl s))

theorem execResetSenseDeassert_calm {s z : State} (who : Fin 12) (h : execResetSenseDeassert who s = .next z) : Calm K s z :=
  guarded_calm h (rsnsRow_calm _ _ (Calm.refl s))

theorem execResponseTenure_calm {s z : State} (p : PortId) (pins : PortPins) (collided : Bool) (upset : List Beat64) 
    (h : execResponseTenure p pins collided upset s = .next z) : Calm K s z :=
  guarded_calm h (responseRow_calm _ _ _ _ (Calm.refl s))

theorem execRestart_calm {s z : State} (who : Fin 8) (mask : BitVec 4) 
    (h : execRestart who mask s = .next z) (nregs : ¬ K .regs) (ntick : ¬ K .tick) (nclk : ¬ K .clk) (nsync : ¬ K .sync) (nundef : ¬ K .undef) : Calm K s z :=
  guarded_calm h (regRow_calm _ _ _ (Calm.refl s))

theorem execRestrength_calm {s z : State} (n : Fin 4) (h : execRestrength n s = .next z) : Calm K s z :=
  guarded_calm h (unitRow_calm _ _ _ (Calm.refl s))

theorem execRetrain_calm {s z : State} (who : Fin 8) (speed width : BitVec 4) 
    (h : execRetrain who speed width s = .next z) (nregs : ¬ K .regs) (ntick : ¬ K .tick) (nclk : ¬ K .clk) (nsync : ¬ K .sync) (nundef : ¬ K .undef) : Calm K s z := by
  have hz := Calm.refl (K := K) s
  refine guarded_calm h ?_
  extract_lets s0
  have h1 : Calm K s s0 := regRow_calm _ _ _ hz
  clear_value s0
  exact when_calm _ _ (fun h => settle_calm (trained_calm _ _ h1)) h1

theorem execRingHeadWrite_calm {s z : State} (who : Fin 8) (eq : Bool) (val : Reg32) 
    (h : execRingHeadWrite who eq val s = .next z) (nregs : ¬ K .regs) (ntick : ¬ K .tick) (nclk : ¬ K .clk) (nsync : ¬ K .sync) (nundef : ¬ K .undef) : Calm K s z :=
  guarded_calm h (regRow_calm _ _ _ (Calm.refl s))

theorem execRswClr_calm {s z : State} (who : Fin 8) 
    (h : execRswClr who s = .next z) (nregs : ¬ K .regs) (ntick : ¬ K .tick) (nclk : ¬ K .clk) (nsync : ¬ K .sync) (nundef : ¬ K .undef) : Calm K s z :=
  guarded_calm h (regRow_calm _ _ _ (Calm.refl s))

theorem execSamplePreload_calm {s z : State} (x : TapRun) (h : execSamplePreload x s = .next z) (ntap : ¬ K .tap) (nundef : ¬ K .undef) : Calm K s z :=
  tapGuarded_calm h (when_calm _ _ (fun _ => tapRow_calm _ _ (Calm.refl s)) (Calm.refl s))

theorem execScreeClr_calm {s z : State} (who : Fin 8) 
    (h : execScreeClr who s = .next z) (nregs : ¬ K .regs) (ntick : ¬ K .tick) (nclk : ¬ K .clk) (nsync : ¬ K .sync) (nundef : ¬ K .undef) : Calm K s z :=
  guarded_calm h (regRow_calm _ _ _ (Calm.refl s))

theorem execScreeRetirement_calm {s z : State} (h : execScreeRetirement s = .next z) : Calm K s z :=
  guarded_calm h (when_calm _ _ (fun _ => screeRow_calm _ _ (Calm.refl s)) (Calm.refl s))

theorem execSectorClear_calm {s z : State} (h : execSectorClear s = .next z) : Calm K s z :=
  guarded_calm h (when_calm _ _ (fun _ => sectorRow_calm _ _ (Calm.refl s)) (Calm.refl s))

theorem execSeqWriteBack_calm {s z : State} (who : Fin 8) (off : BitVec 16) (val : Reg32) 
    (h : execSeqWriteBack who off val s = .next z) (nregs : ¬ K .regs) (ntick : ¬ K .tick) (nclk : ¬ K .clk) (nsync : ¬ K .sync) (nundef : ¬ K .undef) : Calm K s z :=
  guarded_calm h (when_calm _ _ (fun _ => regRow_calm _ _ _ (Calm.refl s)) (Calm.refl s))

theorem execSleep_calm {s z : State} (who : Fin 8) 
    (h : execSleep who s = .next z) (nregs : ¬ K .regs) (ntick : ¬ K .tick) (nclk : ¬ K .clk) (nsync : ¬ K .sync) (nundef : ¬ K .undef) : Calm K s z :=
  guarded_calm h (regRow_calm _ _ _ (Calm.refl s))

theorem execSleepEntry_calm {s z : State} (h : execSleepEntry s = .next z) (nslots : ¬ K .slots) : Calm K s z :=
  guarded_calm h (when_calm _ _ (fun _ => entryRow_calm (Calm.refl s)) (Calm.refl s))

theorem execSleepEntryTimeout_calm {s z : State} (c : EntryTimeout) (h : execSleepEntryTimeout c s = .next z) : Calm K s z :=
  guarded_calm h (when_calm _ _ (fun _ => settle_calm (abandon_calm _ (Calm.refl s))) (Calm.refl s))

theorem execSleepHeartbeatToggle_calm {s z : State} (h : execSleepHeartbeatToggle s = .next z) : Calm K s z :=
  guarded_calm h (when_calm _ _ (fun _ => Calm.upd (Calm.refl s)) (Calm.refl s))

theorem execSleepReq_calm {s z : State} (h : execSleepReq s = .next z) : Calm K s z :=
  guarded_calm h (when_calm _ _ (fun _ => sleepEdge_calm (Calm.refl s)) (Calm.refl s))

theorem execSnap_calm {s z : State} (who : Fin 8) 
    (h : execSnap who s = .next z) (nregs : ¬ K .regs) (ntick : ¬ K .tick) (nclk : ¬ K .clk) (nsync : ¬ K .sync) (nundef : ¬ K .undef) : Calm K s z :=
  guarded_calm h (regRow_calm _ _ _ (Calm.refl s))

theorem execSnapClr_calm {s z : State} (who : Fin 8) 
    (h : execSnapClr who s = .next z) (nregs : ¬ K .regs) (ntick : ¬ K .tick) (nclk : ¬ K .clk) (nsync : ¬ K .sync) (nundef : ¬ K .undef) : Calm K s z :=
  guarded_calm h (regRow_calm _ _ _ (Calm.refl s))

theorem execStoreRetirement_calm {s z : State} (r : Fin 13) (perr : Bool) 
    (h : execStoreRetirement r perr s = .next z) (nregs : ¬ K .regs) (ntick : ¬ K .tick) (nclk : ¬ K .clk) (nsync : ¬ K .sync) (nundef : ¬ K .undef) : Calm K s z :=
  guarded_calm h (when_calm _ _ (fun _ => storeRow_calm _ _ (Calm.refl s)) (Calm.refl s))

theorem execSuppliesRemoved_calm {s z : State} 
    (h : execSuppliesRemoved s = .next z) (nphase : ¬ K .phase) (ntap : ¬ K .tap) (nregs : ¬ K .regs) (ntick : ¬ K .tick) (nclk : ¬ K .clk) (nsync : ¬ K .sync) (nrate : ¬ K .rate) (nundef : ¬ K .undef) : Calm K s z :=
  next_calm h (offKept_calm (Calm.refl s))

theorem execSuspectExpire_calm {s z : State} (h : execSuspectExpire s = .next z) : Calm K s z :=
  guarded_calm h (when_calm _ _ (fun _ => expireSuspects_calm (Calm.refl s)) (Calm.refl s))

theorem execSyncEdge_calm {s z : State} (since relock : Nat) (dmaReq : BitVec 4) 
    (h : execSyncEdge since relock dmaReq s = .next z) (ntick : ¬ K .tick) (nclk : ¬ K .clk) (nsync : ¬ K .sync) (nrate : ¬ K .rate) : Calm K s z :=
  guarded_calm h (when_calm _ _ (fun _ => syncEdge_calm _ _ _ (Calm.refl s)) (Calm.refl s))

theorem execSyncLoss_calm {s z : State} (dmaReq : BitVec 4) 
    (h : execSyncLoss dmaReq s = .next z) (ntick : ¬ K .tick) (nclk : ¬ K .clk) (nsync : ¬ K .sync) (nrate : ¬ K .rate) : Calm K s z :=
  guarded_calm h (when_calm _ _ (fun _ => lostEdge_calm _ (Calm.refl s)) (Calm.refl s))

theorem execSyncMeasRunEnd_calm {s z : State} (count : Nat) 
    (h : execSyncMeasRunEnd count s = .next z) (nclk : ¬ K .clk) : Calm K s z :=
  guarded_calm h (when_calm _ _ (fun _ => syncRun_calm _ (Calm.refl s)) (Calm.refl s))

theorem execTagSetClearing_calm {s z : State} (h : execTagSetClearing s = .next z) : Calm K s z :=
  guarded_calm h (when_calm _ _ (fun _ => setRow_calm _ _ (Calm.refl s)) (Calm.refl s))

theorem execTapReset_calm {s z : State} (h : execTapReset s = .next z) (ntap : ¬ K .tap) : Calm K s z :=
  tapGuarded_calm h (when_calm _ _ (fun _ => Calm.upd (Calm.refl s)) (Calm.refl s))

theorem execTickBoundary_calm {s z : State} (dmaReq : BitVec 4) 
    (h : execTickBoundary dmaReq s = .next z) (ntick : ¬ K .tick) (nclk : ¬ K .clk) (nsync : ¬ K .sync) (nrate : ¬ K .rate) : Calm K s z :=
  guarded_calm h (when_calm _ _ (fun _ => tickAt_calm _ _ (Calm.refl s)) (Calm.refl s))

theorem execUnattachedRequest_calm {s z : State} (p : PortId) (k : Fin 6) (h : execUnattachedRequest p k s = .next z) : Calm K s z :=
  guarded_calm h (unattachedRow_calm _ _ (Calm.refl s))

theorem execUnlockWays_calm {s z : State} (n : Fin 4) (h : execUnlockWays n s = .next z) : Calm K s z :=
  guarded_calm h (unitRow_calm _ _ _ (Calm.refl s))

theorem execVaultLoad_calm {s z : State} (n : Fin 4) (h : execVaultLoad n s = .next z) : Calm K s z :=
  guarded_calm h (stepRow_calm _ _ _ (fun _ => loadStep_calm _ _ (Calm.refl s)) (Calm.refl s))

theorem execVaultSave_calm {s z : State} (n : Fin 4) (h : execVaultSave n s = .next z) (nslots : ¬ K .slots) : Calm K s z :=
  guarded_calm h (stepRow_calm _ _ _ (fun _ => saveStep_calm _ _ (Calm.refl s)) (Calm.refl s))

theorem execVddqLowInSleep_calm {s z : State} (h : execVddqLowInSleep s = .next z) : Calm K s z :=
  guarded_calm h (when_calm _ _ (fun _ => Calm.upd (Calm.refl s)) (Calm.refl s))

theorem execVerify_calm {s z : State} (n : Fin 4) (h : execVerify n s = .next z) : Calm K s z :=
  guarded_calm h (unitRow_calm _ _ _ (Calm.refl s))

theorem execWakeEpoch_calm {s z : State} (run : EpochRun) (units : Nat) (h : execWakeEpoch run units s = .next z) (nregs : ¬ K .regs) : Calm K s z :=
  guarded_calm h (when_calm _ _ (fun _ => epochRow_calm _ _ (Calm.refl s)) (Calm.refl s))

theorem execWakeReq_calm {s z : State} (h : execWakeReq s = .next z) (nphase : ¬ K .phase) (ntap : ¬ K .tap) (nclk : ¬ K .clk) : Calm K s z :=
  guarded_calm h (when_calm _ _ (fun _ => wakeEdge_calm (Calm.refl s)) (Calm.refl s))

theorem execWatch_calm {s z : State} (t : Tenure) (h : execWatch t s = .next z) : Calm K s z := request_calm h

theorem execWrite_calm {s z : State} (t : Tenure) (h : execWrite t s = .next z) : Calm K s z := request_calm h

theorem execWriteNt_calm {s z : State} (t : Tenure) (h : execWriteNt t s = .next z) : Calm K s z := request_calm h

theorem execXoStable_calm {s z : State} (h : execXoStable s = .next z) (nphase : ¬ K .phase) (nclk : ¬ K .clk) : Calm K s z :=
  guarded_calm h (crystalStable_calm (Calm.refl s))

theorem execZqcs_calm {s z : State} (rank : Fin 2) (h : execZqcs rank s = .next z) : Calm K s z :=
  guarded_calm h (when_calm _ _ (fun _ => zqIssue_calm _ (Calm.refl s)) (Calm.refl s))

end Sys2Proof.Machine
end

