-- ==== Sys2Proof/Laws/State.lean ====
section
/-! SUPPORT. What the shared updates leave of each field of the state: one lemma per field and update. -/

namespace Sys2Proof.Machine
set_option Elab.async false

variable (s : State)

@[simp] theorem emit_pending (o : Out) : (emit s o).pending = s.pending := rfl
@[simp] theorem emit_undef (o : Out) : (emit s o).undef = s.undef := rfl
@[simp] theorem emit_freeCtr (o : Out) : (emit s o).freeCtr = s.freeCtr := rfl
@[simp] theorem emit_out (o : Out) : (emit s o).out = o :: s.out := rfl
@[simp] theorem emit_bus (o : Out) : (emit s o).bus = s.bus := rfl
@[simp] theorem emit_prb (o : Out) : (emit s o).prb = s.prb := rfl
@[simp] theorem emit_cch (o : Out) : (emit s o).cch = s.cch := rfl
@[simp] theorem emit_wrb (o : Out) : (emit s o).wrb = s.wrb := rfl
@[simp] theorem emit_qtk (o : Out) : (emit s o).qtk = s.qtk := rfl
@[simp] theorem emit_eng (o : Out) : (emit s o).eng = s.eng := rfl
@[simp] theorem emit_icb (o : Out) : (emit s o).icb = s.icb := rfl
@[simp] theorem emit_err (o : Out) : (emit s o).err = s.err := rfl
@[simp] theorem emit_mem (o : Out) : (emit s o).mem = s.mem := rfl
@[simp] theorem emit_csp (o : Out) : (emit s o).csp = s.csp := rfl
@[simp] theorem emit_clk (o : Out) : (emit s o).clk = s.clk := rfl
@[simp] theorem emit_pwr (o : Out) : (emit s o).pwr = s.pwr := rfl
@[simp] theorem emit_vlt (o : Out) : (emit s o).vlt = s.vlt := rfl
@[simp] theorem emit_cfg (o : Out) : (emit s o).cfg = s.cfg := rfl
@[simp] theorem emit_tst (o : Out) : (emit s o).tst = s.tst := rfl

@[simp] theorem countN_pending (c n : Nat) : (countN s c n).pending = s.pending := rfl
@[simp] theorem countN_undef (c n : Nat) : (countN s c n).undef = s.undef := rfl
@[simp] theorem countN_freeCtr (c n : Nat) : (countN s c n).freeCtr = s.freeCtr := rfl
@[simp] theorem countN_out (c n : Nat) : (countN s c n).out = s.out := rfl
@[simp] theorem countN_bus (c n : Nat) : (countN s c n).bus = s.bus := rfl
@[simp] theorem countN_prb (c n : Nat) : (countN s c n).prb = s.prb := rfl
@[simp] theorem countN_cch (c n : Nat) : (countN s c n).cch = s.cch := rfl
@[simp] theorem countN_wrb (c n : Nat) : (countN s c n).wrb = s.wrb := rfl
@[simp] theorem countN_qtk (c n : Nat) : (countN s c n).qtk = s.qtk := rfl
@[simp] theorem countN_eng (c n : Nat) : (countN s c n).eng = s.eng := rfl
@[simp] theorem countN_icb (c n : Nat) : (countN s c n).icb = s.icb := rfl
@[simp] theorem countN_err (c n : Nat) : (countN s c n).err = s.err := rfl
@[simp] theorem countN_mem (c n : Nat) : (countN s c n).mem = s.mem := rfl
@[simp] theorem countN_csp (c n : Nat) : (countN s c n).csp = s.csp := rfl
@[simp] theorem countN_clk (c n : Nat) : (countN s c n).clk = s.clk := rfl
@[simp] theorem countN_pwr (c n : Nat) : (countN s c n).pwr = s.pwr := rfl
@[simp] theorem countN_vlt (c n : Nat) : (countN s c n).vlt = s.vlt := rfl
@[simp] theorem countN_tst (c n : Nat) : (countN s c n).tst = s.tst := rfl

@[simp] theorem count_pending (c : Nat) : (count s c).pending = s.pending := rfl
@[simp] theorem count_undef (c : Nat) : (count s c).undef = s.undef := rfl
@[simp] theorem count_freeCtr (c : Nat) : (count s c).freeCtr = s.freeCtr := rfl
@[simp] theorem count_out (c : Nat) : (count s c).out = s.out := rfl
@[simp] theorem count_bus (c : Nat) : (count s c).bus = s.bus := rfl
@[simp] theorem count_prb (c : Nat) : (count s c).prb = s.prb := rfl
@[simp] theorem count_cch (c : Nat) : (count s c).cch = s.cch := rfl
@[simp] theorem count_wrb (c : Nat) : (count s c).wrb = s.wrb := rfl
@[simp] theorem count_qtk (c : Nat) : (count s c).qtk = s.qtk := rfl
@[simp] theorem count_eng (c : Nat) : (count s c).eng = s.eng := rfl
@[simp] theorem count_icb (c : Nat) : (count s c).icb = s.icb := rfl
@[simp] theorem count_err (c : Nat) : (count s c).err = s.err := rfl
@[simp] theorem count_mem (c : Nat) : (count s c).mem = s.mem := rfl
@[simp] theorem count_csp (c : Nat) : (count s c).csp = s.csp := rfl
@[simp] theorem count_clk (c : Nat) : (count s c).clk = s.clk := rfl
@[simp] theorem count_pwr (c : Nat) : (count s c).pwr = s.pwr := rfl
@[simp] theorem count_vlt (c : Nat) : (count s c).vlt = s.vlt := rfl
@[simp] theorem count_tst (c : Nat) : (count s c).tst = s.tst := rfl

@[simp] theorem raiseInt_pending (n : Nat) : (raiseInt s n).pending = s.pending := rfl
@[simp] theorem raiseInt_undef (n : Nat) : (raiseInt s n).undef = s.undef := rfl
@[simp] theorem raiseInt_freeCtr (n : Nat) : (raiseInt s n).freeCtr = s.freeCtr := rfl
@[simp] theorem raiseInt_out (n : Nat) : (raiseInt s n).out = s.out := rfl
@[simp] theorem raiseInt_bus (n : Nat) : (raiseInt s n).bus = s.bus := rfl
@[simp] theorem raiseInt_prb (n : Nat) : (raiseInt s n).prb = s.prb := rfl
@[simp] theorem raiseInt_cch (n : Nat) : (raiseInt s n).cch = s.cch := rfl
@[simp] theorem raiseInt_wrb (n : Nat) : (raiseInt s n).wrb = s.wrb := rfl
@[simp] theorem raiseInt_qtk (n : Nat) : (raiseInt s n).qtk = s.qtk := rfl
@[simp] theorem raiseInt_eng (n : Nat) : (raiseInt s n).eng = s.eng := rfl
@[simp] theorem raiseInt_icb (n : Nat) : (raiseInt s n).icb = s.icb := rfl
@[simp] theorem raiseInt_err (n : Nat) : (raiseInt s n).err = { s.err with intStatus := setBit s.err.intStatus n true, intSeq := s.err.intSeq + 1 } := rfl
@[simp] theorem raiseInt_mem (n : Nat) : (raiseInt s n).mem = s.mem := rfl
@[simp] theorem raiseInt_csp (n : Nat) : (raiseInt s n).csp = s.csp := rfl
@[simp] theorem raiseInt_clk (n : Nat) : (raiseInt s n).clk = s.clk := rfl
@[simp] theorem raiseInt_pwr (n : Nat) : (raiseInt s n).pwr = s.pwr := rfl
@[simp] theorem raiseInt_vlt (n : Nat) : (raiseInt s n).vlt = s.vlt := rfl
@[simp] theorem raiseInt_cfg (n : Nat) : (raiseInt s n).cfg = s.cfg := rfl
@[simp] theorem raiseInt_tst (n : Nat) : (raiseInt s n).tst = s.tst := rfl

@[simp] theorem breach_pending (c : UndefCause) : (breach s c).pending = s.pending := rfl
@[simp] theorem breach_undef (c : UndefCause) : (breach s c).undef = some c := rfl
@[simp] theorem breach_freeCtr (c : UndefCause) : (breach s c).freeCtr = s.freeCtr := rfl
@[simp] theorem breach_out (c : UndefCause) : (breach s c).out = s.out := rfl
@[simp] theorem breach_bus (c : UndefCause) : (breach s c).bus = s.bus := rfl
@[simp] theorem breach_prb (c : UndefCause) : (breach s c).prb = s.prb := rfl
@[simp] theorem breach_cch (c : UndefCause) : (breach s c).cch = s.cch := rfl
@[simp] theorem breach_wrb (c : UndefCause) : (breach s c).wrb = s.wrb := rfl
@[simp] theorem breach_qtk (c : UndefCause) : (breach s c).qtk = s.qtk := rfl
@[simp] theorem breach_eng (c : UndefCause) : (breach s c).eng = s.eng := rfl
@[simp] theorem breach_icb (c : UndefCause) : (breach s c).icb = s.icb := rfl
@[simp] theorem breach_err (c : UndefCause) : (breach s c).err = s.err := rfl
@[simp] theorem breach_mem (c : UndefCause) : (breach s c).mem = s.mem := rfl
@[simp] theorem breach_csp (c : UndefCause) : (breach s c).csp = s.csp := rfl
@[simp] theorem breach_clk (c : UndefCause) : (breach s c).clk = s.clk := rfl
@[simp] theorem breach_pwr (c : UndefCause) : (breach s c).pwr = s.pwr := rfl
@[simp] theorem breach_vlt (c : UndefCause) : (breach s c).vlt = s.vlt := rfl
@[simp] theorem breach_cfg (c : UndefCause) : (breach s c).cfg = s.cfg := rfl
@[simp] theorem breach_tst (c : UndefCause) : (breach s c).tst = s.tst := rfl

@[simp] theorem regPut_pending (off : Nat) (v : Reg32) : (regPut s off v).pending = s.pending := rfl
@[simp] theorem regPut_undef (off : Nat) (v : Reg32) : (regPut s off v).undef = s.undef := rfl
@[simp] theorem regPut_freeCtr (off : Nat) (v : Reg32) : (regPut s off v).freeCtr = s.freeCtr := rfl
@[simp] theorem regPut_out (off : Nat) (v : Reg32) : (regPut s off v).out = s.out := rfl
@[simp] theorem regPut_bus (off : Nat) (v : Reg32) : (regPut s off v).bus = s.bus := rfl
@[simp] theorem regPut_prb (off : Nat) (v : Reg32) : (regPut s off v).prb = s.prb := rfl
@[simp] theorem regPut_cch (off : Nat) (v : Reg32) : (regPut s off v).cch = s.cch := rfl
@[simp] theorem regPut_wrb (off : Nat) (v : Reg32) : (regPut s off v).wrb = s.wrb := rfl
@[simp] theorem regPut_qtk (off : Nat) (v : Reg32) : (regPut s off v).qtk = s.qtk := rfl
@[simp] theorem regPut_eng (off : Nat) (v : Reg32) : (regPut s off v).eng = s.eng := rfl
@[simp] theorem regPut_icb (off : Nat) (v : Reg32) : (regPut s off v).icb = s.icb := rfl
@[simp] theorem regPut_err (off : Nat) (v : Reg32) : (regPut s off v).err = s.err := rfl
@[simp] theorem regPut_mem (off : Nat) (v : Reg32) : (regPut s off v).mem = s.mem := rfl
@[simp] theorem regPut_csp (off : Nat) (v : Reg32) : (regPut s off v).csp = s.csp := rfl
@[simp] theorem regPut_clk (off : Nat) (v : Reg32) : (regPut s off v).clk = s.clk := rfl
@[simp] theorem regPut_pwr (off : Nat) (v : Reg32) : (regPut s off v).pwr = s.pwr := rfl
@[simp] theorem regPut_vlt (off : Nat) (v : Reg32) : (regPut s off v).vlt = s.vlt := rfl
@[simp] theorem regPut_tst (off : Nat) (v : Reg32) : (regPut s off v).tst = s.tst := rfl

@[simp] theorem updReq_pending (i : Nat) (f : Req → Req) : (updReq s i f).pending = s.pending := rfl
@[simp] theorem updReq_undef (i : Nat) (f : Req → Req) : (updReq s i f).undef = s.undef := rfl
@[simp] theorem updReq_freeCtr (i : Nat) (f : Req → Req) : (updReq s i f).freeCtr = s.freeCtr := rfl
@[simp] theorem updReq_out (i : Nat) (f : Req → Req) : (updReq s i f).out = s.out := rfl
@[simp] theorem updReq_bus (i : Nat) (f : Req → Req) : (updReq s i f).bus = { s.bus with reqs := updIf s.bus.reqs (·.id == i) f } := rfl
@[simp] theorem updReq_prb (i : Nat) (f : Req → Req) : (updReq s i f).prb = s.prb := rfl
@[simp] theorem updReq_cch (i : Nat) (f : Req → Req) : (updReq s i f).cch = s.cch := rfl
@[simp] theorem updReq_wrb (i : Nat) (f : Req → Req) : (updReq s i f).wrb = s.wrb := rfl
@[simp] theorem updReq_qtk (i : Nat) (f : Req → Req) : (updReq s i f).qtk = s.qtk := rfl
@[simp] theorem updReq_eng (i : Nat) (f : Req → Req) : (updReq s i f).eng = s.eng := rfl
@[simp] theorem updReq_icb (i : Nat) (f : Req → Req) : (updReq s i f).icb = s.icb := rfl
@[simp] theorem updReq_err (i : Nat) (f : Req → Req) : (updReq s i f).err = s.err := rfl
@[simp] theorem updReq_mem (i : Nat) (f : Req → Req) : (updReq s i f).mem = s.mem := rfl
@[simp] theorem updReq_csp (i : Nat) (f : Req → Req) : (updReq s i f).csp = s.csp := rfl
@[simp] theorem updReq_clk (i : Nat) (f : Req → Req) : (updReq s i f).clk = s.clk := rfl
@[simp] theorem updReq_pwr (i : Nat) (f : Req → Req) : (updReq s i f).pwr = s.pwr := rfl
@[simp] theorem updReq_vlt (i : Nat) (f : Req → Req) : (updReq s i f).vlt = s.vlt := rfl
@[simp] theorem updReq_cfg (i : Nat) (f : Req → Req) : (updReq s i f).cfg = s.cfg := rfl
@[simp] theorem updReq_tst (i : Nat) (f : Req → Req) : (updReq s i f).tst = s.tst := rfl

@[simp] theorem addReq_pending (r : Req) : (addReq s r).pending = s.pending := rfl
@[simp] theorem addReq_undef (r : Req) : (addReq s r).undef = s.undef := rfl
@[simp] theorem addReq_freeCtr (r : Req) : (addReq s r).freeCtr = s.freeCtr := rfl
@[simp] theorem addReq_out (r : Req) : (addReq s r).out = s.out := rfl
@[simp] theorem addReq_bus (r : Req) : (addReq s r).bus = { s.bus with reqs := s.bus.reqs ++ [r] } := rfl
@[simp] theorem addReq_prb (r : Req) : (addReq s r).prb = s.prb := rfl
@[simp] theorem addReq_cch (r : Req) : (addReq s r).cch = s.cch := rfl
@[simp] theorem addReq_wrb (r : Req) : (addReq s r).wrb = s.wrb := rfl
@[simp] theorem addReq_qtk (r : Req) : (addReq s r).qtk = s.qtk := rfl
@[simp] theorem addReq_eng (r : Req) : (addReq s r).eng = s.eng := rfl
@[simp] theorem addReq_icb (r : Req) : (addReq s r).icb = s.icb := rfl
@[simp] theorem addReq_err (r : Req) : (addReq s r).err = s.err := rfl
@[simp] theorem addReq_mem (r : Req) : (addReq s r).mem = s.mem := rfl
@[simp] theorem addReq_csp (r : Req) : (addReq s r).csp = s.csp := rfl
@[simp] theorem addReq_clk (r : Req) : (addReq s r).clk = s.clk := rfl
@[simp] theorem addReq_pwr (r : Req) : (addReq s r).pwr = s.pwr := rfl
@[simp] theorem addReq_vlt (r : Req) : (addReq s r).vlt = s.vlt := rfl
@[simp] theorem addReq_cfg (r : Req) : (addReq s r).cfg = s.cfg := rfl
@[simp] theorem addReq_tst (r : Req) : (addReq s r).tst = s.tst := rfl

@[simp] theorem updHandler_pending (i : Nat) (f : Handler → Handler) : (updHandler s i f).pending = s.pending := rfl
@[simp] theorem updHandler_undef (i : Nat) (f : Handler → Handler) : (updHandler s i f).undef = s.undef := rfl
@[simp] theorem updHandler_freeCtr (i : Nat) (f : Handler → Handler) : (updHandler s i f).freeCtr = s.freeCtr := rfl
@[simp] theorem updHandler_out (i : Nat) (f : Handler → Handler) : (updHandler s i f).out = s.out := rfl
@[simp] theorem updHandler_bus (i : Nat) (f : Handler → Handler) : (updHandler s i f).bus = s.bus := rfl
@[simp] theorem updHandler_prb (i : Nat) (f : Handler → Handler) : (updHandler s i f).prb = s.prb := rfl
@[simp] theorem updHandler_wrb (i : Nat) (f : Handler → Handler) : (updHandler s i f).wrb = s.wrb := rfl
@[simp] theorem updHandler_qtk (i : Nat) (f : Handler → Handler) : (updHandler s i f).qtk = s.qtk := rfl
@[simp] theorem updHandler_eng (i : Nat) (f : Handler → Handler) : (updHandler s i f).eng = s.eng := rfl
@[simp] theorem updHandler_icb (i : Nat) (f : Handler → Handler) : (updHandler s i f).icb = s.icb := rfl
@[simp] theorem updHandler_err (i : Nat) (f : Handler → Handler) : (updHandler s i f).err = s.err := rfl
@[simp] theorem updHandler_mem (i : Nat) (f : Handler → Handler) : (updHandler s i f).mem = s.mem := rfl
@[simp] theorem updHandler_csp (i : Nat) (f : Handler → Handler) : (updHandler s i f).csp = s.csp := rfl
@[simp] theorem updHandler_clk (i : Nat) (f : Handler → Handler) : (updHandler s i f).clk = s.clk := rfl
@[simp] theorem updHandler_pwr (i : Nat) (f : Handler → Handler) : (updHandler s i f).pwr = s.pwr := rfl
@[simp] theorem updHandler_vlt (i : Nat) (f : Handler → Handler) : (updHandler s i f).vlt = s.vlt := rfl
@[simp] theorem updHandler_cfg (i : Nat) (f : Handler → Handler) : (updHandler s i f).cfg = s.cfg := rfl
@[simp] theorem updHandler_tst (i : Nat) (f : Handler → Handler) : (updHandler s i f).tst = s.tst := rfl

@[simp] theorem updRing_pending (n : Nat) (f : Ring → Ring) : (updRing s n f).pending = s.pending := rfl
@[simp] theorem updRing_undef (n : Nat) (f : Ring → Ring) : (updRing s n f).undef = s.undef := rfl
@[simp] theorem updRing_freeCtr (n : Nat) (f : Ring → Ring) : (updRing s n f).freeCtr = s.freeCtr := rfl
@[simp] theorem updRing_out (n : Nat) (f : Ring → Ring) : (updRing s n f).out = s.out := rfl
@[simp] theorem updRing_bus (n : Nat) (f : Ring → Ring) : (updRing s n f).bus = s.bus := rfl
@[simp] theorem updRing_prb (n : Nat) (f : Ring → Ring) : (updRing s n f).prb = s.prb := rfl
@[simp] theorem updRing_cch (n : Nat) (f : Ring → Ring) : (updRing s n f).cch = s.cch := rfl
@[simp] theorem updRing_wrb (n : Nat) (f : Ring → Ring) : (updRing s n f).wrb = s.wrb := rfl
@[simp] theorem updRing_qtk (n : Nat) (f : Ring → Ring) : (updRing s n f).qtk = s.qtk := rfl
@[simp] theorem updRing_eng (n : Nat) (f : Ring → Ring) : (updRing s n f).eng = { s.eng with rings := updAt s.eng.rings n f } := rfl
@[simp] theorem updRing_icb (n : Nat) (f : Ring → Ring) : (updRing s n f).icb = s.icb := rfl
@[simp] theorem updRing_err (n : Nat) (f : Ring → Ring) : (updRing s n f).err = s.err := rfl
@[simp] theorem updRing_mem (n : Nat) (f : Ring → Ring) : (updRing s n f).mem = s.mem := rfl
@[simp] theorem updRing_csp (n : Nat) (f : Ring → Ring) : (updRing s n f).csp = s.csp := rfl
@[simp] theorem updRing_clk (n : Nat) (f : Ring → Ring) : (updRing s n f).clk = s.clk := rfl
@[simp] theorem updRing_pwr (n : Nat) (f : Ring → Ring) : (updRing s n f).pwr = s.pwr := rfl
@[simp] theorem updRing_vlt (n : Nat) (f : Ring → Ring) : (updRing s n f).vlt = s.vlt := rfl
@[simp] theorem updRing_cfg (n : Nat) (f : Ring → Ring) : (updRing s n f).cfg = s.cfg := rfl
@[simp] theorem updRing_tst (n : Nat) (f : Ring → Ring) : (updRing s n f).tst = s.tst := rfl

@[simp] theorem updRun_pending (n : Nat) (f : Running → Running) : (updRun s n f).pending = s.pending := rfl
@[simp] theorem updRun_undef (n : Nat) (f : Running → Running) : (updRun s n f).undef = s.undef := rfl
@[simp] theorem updRun_freeCtr (n : Nat) (f : Running → Running) : (updRun s n f).freeCtr = s.freeCtr := rfl
@[simp] theorem updRun_out (n : Nat) (f : Running → Running) : (updRun s n f).out = s.out := rfl
@[simp] theorem updRun_bus (n : Nat) (f : Running → Running) : (updRun s n f).bus = s.bus := rfl
@[simp] theorem updRun_prb (n : Nat) (f : Running → Running) : (updRun s n f).prb = s.prb := rfl
@[simp] theorem updRun_cch (n : Nat) (f : Running → Running) : (updRun s n f).cch = s.cch := rfl
@[simp] theorem updRun_wrb (n : Nat) (f : Running → Running) : (updRun s n f).wrb = s.wrb := rfl
@[simp] theorem updRun_qtk (n : Nat) (f : Running → Running) : (updRun s n f).qtk = s.qtk := rfl
@[simp] theorem updRun_icb (n : Nat) (f : Running → Running) : (updRun s n f).icb = s.icb := rfl
@[simp] theorem updRun_err (n : Nat) (f : Running → Running) : (updRun s n f).err = s.err := rfl
@[simp] theorem updRun_mem (n : Nat) (f : Running → Running) : (updRun s n f).mem = s.mem := rfl
@[simp] theorem updRun_csp (n : Nat) (f : Running → Running) : (updRun s n f).csp = s.csp := rfl
@[simp] theorem updRun_clk (n : Nat) (f : Running → Running) : (updRun s n f).clk = s.clk := rfl
@[simp] theorem updRun_pwr (n : Nat) (f : Running → Running) : (updRun s n f).pwr = s.pwr := rfl
@[simp] theorem updRun_vlt (n : Nat) (f : Running → Running) : (updRun s n f).vlt = s.vlt := rfl
@[simp] theorem updRun_cfg (n : Nat) (f : Running → Running) : (updRun s n f).cfg = s.cfg := rfl
@[simp] theorem updRun_tst (n : Nat) (f : Running → Running) : (updRun s n f).tst = s.tst := rfl

@[simp] theorem updEntry_pending (i : Nat) (f : Entry → Entry) : (updEntry s i f).pending = s.pending := rfl
@[simp] theorem updEntry_undef (i : Nat) (f : Entry → Entry) : (updEntry s i f).undef = s.undef := rfl
@[simp] theorem updEntry_freeCtr (i : Nat) (f : Entry → Entry) : (updEntry s i f).freeCtr = s.freeCtr := rfl
@[simp] theorem updEntry_out (i : Nat) (f : Entry → Entry) : (updEntry s i f).out = s.out := rfl
@[simp] theorem updEntry_bus (i : Nat) (f : Entry → Entry) : (updEntry s i f).bus = s.bus := rfl
@[simp] theorem updEntry_prb (i : Nat) (f : Entry → Entry) : (updEntry s i f).prb = s.prb := rfl
@[simp] theorem updEntry_cch (i : Nat) (f : Entry → Entry) : (updEntry s i f).cch = s.cch := rfl
@[simp] theorem updEntry_wrb (i : Nat) (f : Entry → Entry) : (updEntry s i f).wrb = { s.wrb with entries := updIf s.wrb.entries (·.id == i) f } := rfl
@[simp] theorem updEntry_qtk (i : Nat) (f : Entry → Entry) : (updEntry s i f).qtk = s.qtk := rfl
@[simp] theorem updEntry_eng (i : Nat) (f : Entry → Entry) : (updEntry s i f).eng = s.eng := rfl
@[simp] theorem updEntry_icb (i : Nat) (f : Entry → Entry) : (updEntry s i f).icb = s.icb := rfl
@[simp] theorem updEntry_err (i : Nat) (f : Entry → Entry) : (updEntry s i f).err = s.err := rfl
@[simp] theorem updEntry_mem (i : Nat) (f : Entry → Entry) : (updEntry s i f).mem = s.mem := rfl
@[simp] theorem updEntry_csp (i : Nat) (f : Entry → Entry) : (updEntry s i f).csp = s.csp := rfl
@[simp] theorem updEntry_clk (i : Nat) (f : Entry → Entry) : (updEntry s i f).clk = s.clk := rfl
@[simp] theorem updEntry_pwr (i : Nat) (f : Entry → Entry) : (updEntry s i f).pwr = s.pwr := rfl
@[simp] theorem updEntry_vlt (i : Nat) (f : Entry → Entry) : (updEntry s i f).vlt = s.vlt := rfl
@[simp] theorem updEntry_cfg (i : Nat) (f : Entry → Entry) : (updEntry s i f).cfg = s.cfg := rfl
@[simp] theorem updEntry_tst (i : Nat) (f : Entry → Entry) : (updEntry s i f).tst = s.tst := rfl

@[simp] theorem updSlot_pending (i : Nat) (f : Slot → Slot) : (updSlot s i f).pending = s.pending := rfl
@[simp] theorem updSlot_undef (i : Nat) (f : Slot → Slot) : (updSlot s i f).undef = s.undef := rfl
@[simp] theorem updSlot_freeCtr (i : Nat) (f : Slot → Slot) : (updSlot s i f).freeCtr = s.freeCtr := rfl
@[simp] theorem updSlot_out (i : Nat) (f : Slot → Slot) : (updSlot s i f).out = s.out := rfl
@[simp] theorem updSlot_bus (i : Nat) (f : Slot → Slot) : (updSlot s i f).bus = s.bus := rfl
@[simp] theorem updSlot_prb (i : Nat) (f : Slot → Slot) : (updSlot s i f).prb = s.prb := rfl
@[simp] theorem updSlot_cch (i : Nat) (f : Slot → Slot) : (updSlot s i f).cch = s.cch := rfl
@[simp] theorem updSlot_wrb (i : Nat) (f : Slot → Slot) : (updSlot s i f).wrb = { s.wrb with slots := updIf s.wrb.slots (·.id == i) f } := rfl
@[simp] theorem updSlot_qtk (i : Nat) (f : Slot → Slot) : (updSlot s i f).qtk = s.qtk := rfl
@[simp] theorem updSlot_eng (i : Nat) (f : Slot → Slot) : (updSlot s i f).eng = s.eng := rfl
@[simp] theorem updSlot_icb (i : Nat) (f : Slot → Slot) : (updSlot s i f).icb = s.icb := rfl
@[simp] theorem updSlot_err (i : Nat) (f : Slot → Slot) : (updSlot s i f).err = s.err := rfl
@[simp] theorem updSlot_mem (i : Nat) (f : Slot → Slot) : (updSlot s i f).mem = s.mem := rfl
@[simp] theorem updSlot_csp (i : Nat) (f : Slot → Slot) : (updSlot s i f).csp = s.csp := rfl
@[simp] theorem updSlot_clk (i : Nat) (f : Slot → Slot) : (updSlot s i f).clk = s.clk := rfl
@[simp] theorem updSlot_pwr (i : Nat) (f : Slot → Slot) : (updSlot s i f).pwr = s.pwr := rfl
@[simp] theorem updSlot_vlt (i : Nat) (f : Slot → Slot) : (updSlot s i f).vlt = s.vlt := rfl
@[simp] theorem updSlot_cfg (i : Nat) (f : Slot → Slot) : (updSlot s i f).cfg = s.cfg := rfl
@[simp] theorem updSlot_tst (i : Nat) (f : Slot → Slot) : (updSlot s i f).tst = s.tst := rfl

@[simp] theorem addSlot_pending (t : Slot) : (addSlot s t).pending = s.pending := rfl
@[simp] theorem addSlot_undef (t : Slot) : (addSlot s t).undef = s.undef := rfl
@[simp] theorem addSlot_freeCtr (t : Slot) : (addSlot s t).freeCtr = s.freeCtr := rfl
@[simp] theorem addSlot_out (t : Slot) : (addSlot s t).out = s.out := rfl
@[simp] theorem addSlot_bus (t : Slot) : (addSlot s t).bus = s.bus := rfl
@[simp] theorem addSlot_prb (t : Slot) : (addSlot s t).prb = s.prb := rfl
@[simp] theorem addSlot_cch (t : Slot) : (addSlot s t).cch = s.cch := rfl
@[simp] theorem addSlot_qtk (t : Slot) : (addSlot s t).qtk = s.qtk := rfl
@[simp] theorem addSlot_eng (t : Slot) : (addSlot s t).eng = s.eng := rfl
@[simp] theorem addSlot_icb (t : Slot) : (addSlot s t).icb = s.icb := rfl
@[simp] theorem addSlot_err (t : Slot) : (addSlot s t).err = s.err := rfl
@[simp] theorem addSlot_mem (t : Slot) : (addSlot s t).mem = s.mem := rfl
@[simp] theorem addSlot_csp (t : Slot) : (addSlot s t).csp = s.csp := rfl
@[simp] theorem addSlot_clk (t : Slot) : (addSlot s t).clk = s.clk := rfl
@[simp] theorem addSlot_pwr (t : Slot) : (addSlot s t).pwr = s.pwr := rfl
@[simp] theorem addSlot_vlt (t : Slot) : (addSlot s t).vlt = s.vlt := rfl
@[simp] theorem addSlot_cfg (t : Slot) : (addSlot s t).cfg = s.cfg := rfl
@[simp] theorem addSlot_tst (t : Slot) : (addSlot s t).tst = s.tst := rfl

@[simp] theorem dropSlot_pending (i : Nat) : (dropSlot s i).pending = s.pending := rfl
@[simp] theorem dropSlot_undef (i : Nat) : (dropSlot s i).undef = s.undef := rfl
@[simp] theorem dropSlot_freeCtr (i : Nat) : (dropSlot s i).freeCtr = s.freeCtr := rfl
@[simp] theorem dropSlot_out (i : Nat) : (dropSlot s i).out = s.out := rfl
@[simp] theorem dropSlot_bus (i : Nat) : (dropSlot s i).bus = s.bus := rfl
@[simp] theorem dropSlot_prb (i : Nat) : (dropSlot s i).prb = s.prb := rfl
@[simp] theorem dropSlot_cch (i : Nat) : (dropSlot s i).cch = s.cch := rfl
@[simp] theorem dropSlot_wrb (i : Nat) : (dropSlot s i).wrb = { s.wrb with slots := s.wrb.slots.filter (·.id != i) } := rfl
@[simp] theorem dropSlot_qtk (i : Nat) : (dropSlot s i).qtk = s.qtk := rfl
@[simp] theorem dropSlot_eng (i : Nat) : (dropSlot s i).eng = s.eng := rfl
@[simp] theorem dropSlot_icb (i : Nat) : (dropSlot s i).icb = s.icb := rfl
@[simp] theorem dropSlot_err (i : Nat) : (dropSlot s i).err = s.err := rfl
@[simp] theorem dropSlot_mem (i : Nat) : (dropSlot s i).mem = s.mem := rfl
@[simp] theorem dropSlot_csp (i : Nat) : (dropSlot s i).csp = s.csp := rfl
@[simp] theorem dropSlot_clk (i : Nat) : (dropSlot s i).clk = s.clk := rfl
@[simp] theorem dropSlot_pwr (i : Nat) : (dropSlot s i).pwr = s.pwr := rfl
@[simp] theorem dropSlot_vlt (i : Nat) : (dropSlot s i).vlt = s.vlt := rfl
@[simp] theorem dropSlot_cfg (i : Nat) : (dropSlot s i).cfg = s.cfg := rfl
@[simp] theorem dropSlot_tst (i : Nat) : (dropSlot s i).tst = s.tst := rfl

@[simp] theorem setPort_pending (p : PortId) (f : Port → Port) : (setPort s p f).pending = s.pending := by cases p <;> rfl
@[simp] theorem setPort_undef (p : PortId) (f : Port → Port) : (setPort s p f).undef = s.undef := by cases p <;> rfl
@[simp] theorem setPort_freeCtr (p : PortId) (f : Port → Port) : (setPort s p f).freeCtr = s.freeCtr := by cases p <;> rfl
@[simp] theorem setPort_out (p : PortId) (f : Port → Port) : (setPort s p f).out = s.out := by cases p <;> rfl
@[simp] theorem setPort_prb (p : PortId) (f : Port → Port) : (setPort s p f).prb = s.prb := by cases p <;> rfl
@[simp] theorem setPort_cch (p : PortId) (f : Port → Port) : (setPort s p f).cch = s.cch := by cases p <;> rfl
@[simp] theorem setPort_wrb (p : PortId) (f : Port → Port) : (setPort s p f).wrb = s.wrb := by cases p <;> rfl
@[simp] theorem setPort_qtk (p : PortId) (f : Port → Port) : (setPort s p f).qtk = s.qtk := by cases p <;> rfl
@[simp] theorem setPort_eng (p : PortId) (f : Port → Port) : (setPort s p f).eng = s.eng := by cases p <;> rfl
@[simp] theorem setPort_icb (p : PortId) (f : Port → Port) : (setPort s p f).icb = s.icb := by cases p <;> rfl
@[simp] theorem setPort_err (p : PortId) (f : Port → Port) : (setPort s p f).err = s.err := by cases p <;> rfl
@[simp] theorem setPort_mem (p : PortId) (f : Port → Port) : (setPort s p f).mem = s.mem := by cases p <;> rfl
@[simp] theorem setPort_csp (p : PortId) (f : Port → Port) : (setPort s p f).csp = s.csp := by cases p <;> rfl
@[simp] theorem setPort_clk (p : PortId) (f : Port → Port) : (setPort s p f).clk = s.clk := by cases p <;> rfl
@[simp] theorem setPort_pwr (p : PortId) (f : Port → Port) : (setPort s p f).pwr = s.pwr := by cases p <;> rfl
@[simp] theorem setPort_vlt (p : PortId) (f : Port → Port) : (setPort s p f).vlt = s.vlt := by cases p <;> rfl
@[simp] theorem setPort_cfg (p : PortId) (f : Port → Port) : (setPort s p f).cfg = s.cfg := by cases p <;> rfl
@[simp] theorem setPort_tst (p : PortId) (f : Port → Port) : (setPort s p f).tst = s.tst := by cases p <;> rfl

@[simp] theorem event_pending (b c : Nat) (d : BitVec 384) : (event s b c d).pending = s.pending := by unfold event; split <;> rfl
@[simp] theorem event_undef (b c : Nat) (d : BitVec 384) : (event s b c d).undef = s.undef := by unfold event; split <;> rfl
@[simp] theorem event_freeCtr (b c : Nat) (d : BitVec 384) : (event s b c d).freeCtr = s.freeCtr := by unfold event; split <;> rfl
@[simp] theorem event_out (b c : Nat) (d : BitVec 384) : (event s b c d).out = s.out := by unfold event; split <;> rfl
@[simp] theorem event_bus (b c : Nat) (d : BitVec 384) : (event s b c d).bus = s.bus := by unfold event; split <;> rfl
@[simp] theorem event_prb (b c : Nat) (d : BitVec 384) : (event s b c d).prb = s.prb := by unfold event; split <;> rfl
@[simp] theorem event_cch (b c : Nat) (d : BitVec 384) : (event s b c d).cch = s.cch := by unfold event; split <;> rfl
@[simp] theorem event_wrb (b c : Nat) (d : BitVec 384) : (event s b c d).wrb = s.wrb := by unfold event; split <;> rfl
@[simp] theorem event_qtk (b c : Nat) (d : BitVec 384) : (event s b c d).qtk = s.qtk := by unfold event; split <;> rfl
@[simp] theorem event_icb (b c : Nat) (d : BitVec 384) : (event s b c d).icb = s.icb := by unfold event; split <;> rfl
@[simp] theorem event_err (b c : Nat) (d : BitVec 384) : (event s b c d).err = s.err := by unfold event; split <;> rfl
@[simp] theorem event_mem (b c : Nat) (d : BitVec 384) : (event s b c d).mem = s.mem := by unfold event; split <;> rfl
@[simp] theorem event_csp (b c : Nat) (d : BitVec 384) : (event s b c d).csp = s.csp := by unfold event; split <;> rfl
@[simp] theorem event_clk (b c : Nat) (d : BitVec 384) : (event s b c d).clk = s.clk := by unfold event; split <;> rfl
@[simp] theorem event_pwr (b c : Nat) (d : BitVec 384) : (event s b c d).pwr = s.pwr := by unfold event; split <;> rfl
@[simp] theorem event_vlt (b c : Nat) (d : BitVec 384) : (event s b c d).vlt = s.vlt := by unfold event; split <;> rfl
@[simp] theorem event_cfg (b c : Nat) (d : BitVec 384) : (event s b c d).cfg = s.cfg := by unfold event; split <;> rfl
@[simp] theorem event_tst (b c : Nat) (d : BitVec 384) : (event s b c d).tst = s.tst := by unfold event; split <;> rfl

/-! ### Reads through the named operations -/

@[simp] theorem reg_count (c off : Nat) : reg (count s c) off = reg s off := rfl
@[simp] theorem reg_raiseInt (n off : Nat) : reg (raiseInt s n) off = reg s off := rfl
@[simp] theorem reg_emit (o : Out) (off : Nat) : reg (emit s o) off = reg s off := rfl
@[simp] theorem reg_event (b c : Nat) (d : BitVec 384) (off : Nat) : reg (event s b c d) off = reg s off := by
  unfold event; split <;> rfl
@[simp] theorem live_raiseInt (n c : Nat) : live (raiseInt s n) c = live s c := rfl
@[simp] theorem live_emit (o : Out) (c : Nat) : live (emit s o) c = live s c := rfl
@[simp] theorem live_regPut (off c : Nat) (v : Reg32) : live (regPut s off v) c = live s c := rfl
@[simp] theorem live_event (b k : Nat) (d : BitVec 384) (c : Nat) : live (event s b k d) c = live s c := by
  unfold event; split <;> rfl

theorem live_count_self (c : Nat) : live (count s c) c = live s c + 1 := by
  simp [count, countN, live, mget_mset]

theorem live_count_ne {c d : Nat} (h : d ≠ c) : live (count s c) d = live s d := by
  simp [count, countN, live, mget_mset, Ne.symm h]

theorem reg_regPut_self (off : Nat) (v : Reg32) : reg (regPut s off v) off = v &&& storedMask off := by
  simp [regPut, reg, mget_mset]

theorem reg_regPut_ne {off d : Nat} (v : Reg32) (h : d ≠ off) : reg (regPut s off v) d = reg s d := by
  simp [regPut, reg, mget_mset, Ne.symm h]

theorem port_setPort (p q : PortId) (f : Port → Port) : port (setPort s p f) q = if q = p then f (port s q) else port s q := by
  cases p <;> cases q <;> rfl

@[simp] theorem updTap_pending (f : Tap → Tap) : (updTap s f).pending = s.pending := rfl
@[simp] theorem updTap_undef (f : Tap → Tap) : (updTap s f).undef = s.undef := rfl
@[simp] theorem updTap_freeCtr (f : Tap → Tap) : (updTap s f).freeCtr = s.freeCtr := rfl
@[simp] theorem updTap_out (f : Tap → Tap) : (updTap s f).out = s.out := rfl
@[simp] theorem updTap_bus (f : Tap → Tap) : (updTap s f).bus = s.bus := rfl
@[simp] theorem updTap_prb (f : Tap → Tap) : (updTap s f).prb = s.prb := rfl
@[simp] theorem updTap_cch (f : Tap → Tap) : (updTap s f).cch = s.cch := rfl
@[simp] theorem updTap_wrb (f : Tap → Tap) : (updTap s f).wrb = s.wrb := rfl
@[simp] theorem updTap_qtk (f : Tap → Tap) : (updTap s f).qtk = s.qtk := rfl
@[simp] theorem updTap_eng (f : Tap → Tap) : (updTap s f).eng = s.eng := rfl
@[simp] theorem updTap_icb (f : Tap → Tap) : (updTap s f).icb = s.icb := rfl
@[simp] theorem updTap_err (f : Tap → Tap) : (updTap s f).err = s.err := rfl
@[simp] theorem updTap_mem (f : Tap → Tap) : (updTap s f).mem = s.mem := rfl
@[simp] theorem updTap_csp (f : Tap → Tap) : (updTap s f).csp = s.csp := rfl
@[simp] theorem updTap_clk (f : Tap → Tap) : (updTap s f).clk = s.clk := rfl
@[simp] theorem updTap_pwr (f : Tap → Tap) : (updTap s f).pwr = s.pwr := rfl
@[simp] theorem updTap_vlt (f : Tap → Tap) : (updTap s f).vlt = s.vlt := rfl
@[simp] theorem updTap_cfg (f : Tap → Tap) : (updTap s f).cfg = s.cfg := rfl
@[simp] theorem updTap_tst (f : Tap → Tap) : (updTap s f).tst = { s.tst with tap := f s.tst.tap } := rfl

@[simp] theorem updAcc_pending (id : Nat) (f : Acc → Acc) : (updAcc s id f).pending = s.pending := rfl
@[simp] theorem updAcc_undef (id : Nat) (f : Acc → Acc) : (updAcc s id f).undef = s.undef := rfl
@[simp] theorem updAcc_freeCtr (id : Nat) (f : Acc → Acc) : (updAcc s id f).freeCtr = s.freeCtr := rfl
@[simp] theorem updAcc_out (id : Nat) (f : Acc → Acc) : (updAcc s id f).out = s.out := rfl
@[simp] theorem updAcc_bus (id : Nat) (f : Acc → Acc) : (updAcc s id f).bus = s.bus := rfl
@[simp] theorem updAcc_prb (id : Nat) (f : Acc → Acc) : (updAcc s id f).prb = s.prb := rfl
@[simp] theorem updAcc_cch (id : Nat) (f : Acc → Acc) : (updAcc s id f).cch = s.cch := rfl
@[simp] theorem updAcc_wrb (id : Nat) (f : Acc → Acc) : (updAcc s id f).wrb = s.wrb := rfl
@[simp] theorem updAcc_qtk (id : Nat) (f : Acc → Acc) : (updAcc s id f).qtk = s.qtk := rfl
@[simp] theorem updAcc_eng (id : Nat) (f : Acc → Acc) : (updAcc s id f).eng = s.eng := rfl
@[simp] theorem updAcc_icb (id : Nat) (f : Acc → Acc) : (updAcc s id f).icb = s.icb := rfl
@[simp] theorem updAcc_err (id : Nat) (f : Acc → Acc) : (updAcc s id f).err = s.err := rfl
@[simp] theorem updAcc_mem (id : Nat) (f : Acc → Acc) : (updAcc s id f).mem = s.mem := rfl
@[simp] theorem updAcc_csp (id : Nat) (f : Acc → Acc) : (updAcc s id f).csp = { s.csp with accs := updIf s.csp.accs (·.id == id) f } := rfl
@[simp] theorem updAcc_clk (id : Nat) (f : Acc → Acc) : (updAcc s id f).clk = s.clk := rfl
@[simp] theorem updAcc_pwr (id : Nat) (f : Acc → Acc) : (updAcc s id f).pwr = s.pwr := rfl
@[simp] theorem updAcc_vlt (id : Nat) (f : Acc → Acc) : (updAcc s id f).vlt = s.vlt := rfl
@[simp] theorem updAcc_cfg (id : Nat) (f : Acc → Acc) : (updAcc s id f).cfg = s.cfg := rfl
@[simp] theorem updAcc_tst (id : Nat) (f : Acc → Acc) : (updAcc s id f).tst = s.tst := rfl

@[simp] theorem monRestart_pending : (monRestart s).pending = s.pending := rfl
@[simp] theorem monRestart_undef : (monRestart s).undef = s.undef := rfl
@[simp] theorem monRestart_freeCtr : (monRestart s).freeCtr = s.freeCtr := rfl
@[simp] theorem monRestart_out : (monRestart s).out = s.out := rfl
@[simp] theorem monRestart_bus : (monRestart s).bus = s.bus := rfl
@[simp] theorem monRestart_prb : (monRestart s).prb = s.prb := rfl
@[simp] theorem monRestart_cch : (monRestart s).cch = s.cch := rfl
@[simp] theorem monRestart_wrb : (monRestart s).wrb = s.wrb := rfl
@[simp] theorem monRestart_qtk : (monRestart s).qtk = s.qtk := rfl
@[simp] theorem monRestart_eng : (monRestart s).eng = s.eng := rfl
@[simp] theorem monRestart_icb : (monRestart s).icb = s.icb := rfl
@[simp] theorem monRestart_err : (monRestart s).err = s.err := rfl
@[simp] theorem monRestart_mem : (monRestart s).mem = s.mem := rfl
@[simp] theorem monRestart_csp : (monRestart s).csp = s.csp := rfl
@[simp] theorem monRestart_clk : (monRestart s).clk = { s.clk with lastWin := none } := rfl
@[simp] theorem monRestart_pwr : (monRestart s).pwr = s.pwr := rfl
@[simp] theorem monRestart_vlt : (monRestart s).vlt = s.vlt := rfl
@[simp] theorem monRestart_cfg : (monRestart s).cfg = s.cfg := rfl
@[simp] theorem monRestart_tst : (monRestart s).tst = s.tst := rfl

@[simp] theorem clearRecord_pending (cb : Nat) : (clearRecord s cb).pending = s.pending := rfl
@[simp] theorem clearRecord_undef (cb : Nat) : (clearRecord s cb).undef = s.undef := rfl
@[simp] theorem clearRecord_freeCtr (cb : Nat) : (clearRecord s cb).freeCtr = s.freeCtr := rfl
@[simp] theorem clearRecord_out (cb : Nat) : (clearRecord s cb).out = s.out := rfl
@[simp] theorem clearRecord_bus (cb : Nat) : (clearRecord s cb).bus = s.bus := rfl
@[simp] theorem clearRecord_prb (cb : Nat) : (clearRecord s cb).prb = s.prb := rfl
@[simp] theorem clearRecord_cch (cb : Nat) : (clearRecord s cb).cch = s.cch := rfl
@[simp] theorem clearRecord_wrb (cb : Nat) : (clearRecord s cb).wrb = { s.wrb with broken := s.wrb.broken.filter (·.1 != cb) } := rfl
@[simp] theorem clearRecord_qtk (cb : Nat) : (clearRecord s cb).qtk = s.qtk := rfl
@[simp] theorem clearRecord_eng (cb : Nat) : (clearRecord s cb).eng = s.eng := rfl
@[simp] theorem clearRecord_icb (cb : Nat) : (clearRecord s cb).icb = s.icb := rfl
@[simp] theorem clearRecord_err (cb : Nat) : (clearRecord s cb).err = s.err := rfl
@[simp] theorem clearRecord_mem (cb : Nat) : (clearRecord s cb).mem = s.mem := rfl
@[simp] theorem clearRecord_csp (cb : Nat) : (clearRecord s cb).csp = s.csp := rfl
@[simp] theorem clearRecord_clk (cb : Nat) : (clearRecord s cb).clk = s.clk := rfl
@[simp] theorem clearRecord_pwr (cb : Nat) : (clearRecord s cb).pwr = s.pwr := rfl
@[simp] theorem clearRecord_vlt (cb : Nat) : (clearRecord s cb).vlt = s.vlt := rfl
@[simp] theorem clearRecord_cfg (cb : Nat) : (clearRecord s cb).cfg = s.cfg := rfl
@[simp] theorem clearRecord_tst (cb : Nat) : (clearRecord s cb).tst = s.tst := rfl

@[simp] theorem keepReady_pending (p : PortId) : (keepReady s p).pending = s.pending := rfl
@[simp] theorem keepReady_undef (p : PortId) : (keepReady s p).undef = s.undef := rfl
@[simp] theorem keepReady_freeCtr (p : PortId) : (keepReady s p).freeCtr = s.freeCtr := rfl
@[simp] theorem keepReady_out (p : PortId) : (keepReady s p).out = s.out := rfl
@[simp] theorem keepReady_bus (p : PortId) : (keepReady s p).bus = { s.bus with resps := updIf s.bus.resps (fun r => portOf r.who == p && respReady s r) fun r => { r with kept := true } } := rfl
@[simp] theorem keepReady_prb (p : PortId) : (keepReady s p).prb = s.prb := rfl
@[simp] theorem keepReady_cch (p : PortId) : (keepReady s p).cch = s.cch := rfl
@[simp] theorem keepReady_wrb (p : PortId) : (keepReady s p).wrb = s.wrb := rfl
@[simp] theorem keepReady_qtk (p : PortId) : (keepReady s p).qtk = s.qtk := rfl
@[simp] theorem keepReady_eng (p : PortId) : (keepReady s p).eng = s.eng := rfl
@[simp] theorem keepReady_icb (p : PortId) : (keepReady s p).icb = s.icb := rfl
@[simp] theorem keepReady_err (p : PortId) : (keepReady s p).err = s.err := rfl
@[simp] theorem keepReady_mem (p : PortId) : (keepReady s p).mem = s.mem := rfl
@[simp] theorem keepReady_csp (p : PortId) : (keepReady s p).csp = s.csp := rfl
@[simp] theorem keepReady_clk (p : PortId) : (keepReady s p).clk = s.clk := rfl
@[simp] theorem keepReady_pwr (p : PortId) : (keepReady s p).pwr = s.pwr := rfl
@[simp] theorem keepReady_vlt (p : PortId) : (keepReady s p).vlt = s.vlt := rfl
@[simp] theorem keepReady_cfg (p : PortId) : (keepReady s p).cfg = s.cfg := rfl
@[simp] theorem keepReady_tst (p : PortId) : (keepReady s p).tst = s.tst := rfl

end Sys2Proof.Machine
end

