-- ==== Sys2Proof/Tests/Slice0.lean ====
section
/-! SUPPORT. Tests: the refusal of ill-formed commands, a few values the spec gives, and for every statement that has hypotheses a
state and operands that meet them. -/

namespace Sys2Proof.Tests
open Sys2Proof Sys2Proof.Machine
set_option Elab.async false
set_option maxRecDepth 20000
set_option exponentiation.threshold 100000

/-! ### States -/

/-- Bool form of soundness, so that it can be evaluated. -/
def soundB (s : State) : Bool :=
  mwf (fun _ => 0) s.cch.tags && mwf resetVal s.cfg.regs && mwf zero64 s.cfg.live && mwf zero64 s.cfg.hold &&
  s.cfg.regs.all (fun e => e.2 &&& ~~~(storedMask e.1) == 0) &&
  decide (s.eng.rings.length = 5 ∧ s.err.buckets.length = 6 ∧ s.wrb.arms.length = 8 ∧ s.cch.dets.length = 12 ∧ s.vlt.slots.length = 8 ∧
    s.mem.vHdr.length = 4) &&
  s.bus.reqs.all (fun r => decide (r.id < s.bus.nextReq)) &&
  s.bus.resps.all fun r => match r.req with | some i => decide (i < s.bus.nextReq) | none => true

theorem sound_of {s : State} (h : soundB s = true) : s.sound := by
  simp only [soundB, Bool.and_eq_true, decide_eq_true_eq, List.all_eq_true] at h
  obtain ⟨⟨⟨⟨⟨⟨⟨h1, h2⟩, h3⟩, h4⟩, h5⟩, h6⟩, h7⟩, h8⟩ := h
  refine ⟨⟨h1, h2, h3, h4⟩, fun e he => by simpa using h5 e he, h6.1, h6.2.1, h6.2.2.1, h6.2.2.2.1, h6.2.2.2.2.1, h6.2.2.2.2.2, h7, ?_⟩
  intro r hr i hi
  have := h8 r hr
  simpa [hi] using this

/-- Run: both ports enabled with every requester attached, the link up, the cache store ready, the tags known; region 0 is NORMAL with every
attribute, region 1 DEVICE with early OK, region 2 DEVICE without; 64 GiB of pool; rings 0, 4 and 5 of 16 entries. -/
def run : State :=
  { State.reset with
    pwr := { Pwr.reset with phase := .on }
    qtk := { Qtk.reset with running := true }
    clk := { Clk.reset with xoOk := true, lock := true }
    mem := { Mem.reset with dlUp := true }
    csp := { Csp.reset with ready := true }
    cch := { Cch.reset with known := 2097152 }
    cfg := { Cfg.reset with regs :=
      [(0x0000, 0x8000203F), (0x0004, 0x8000203F), (0x2004, 0x0000FFFF), (0x200C, 0x800000F8), (0x2010, 0x00010000), (0x2014, 0x0001FFFF),
       (0x2018, 0x00010000), (0x201C, 0x80000011), (0x2020, 0x00020000), (0x2024, 0x0002FFFF), (0x2028, 0x00020000), (0x202C, 0x80000001),
       (0x5000, 0x00100000), (0x5008, 0x00000004), (0x5040, 0x00200000), (0x5048, 0x00000004), (0x5050, 0x00300000), (0x5058, 0x00000004),
       (0x8008, 0x00000040), (0x8014, 0xC0000000)] } }

theorem run_up : run.up := ⟨rfl, rfl⟩
theorem run_ticks : run.ticks := ⟨run_up, rfl⟩
theorem run_sound : run.sound := sound_of (by decide)

/-- The state a command leaves. -/
def after (c : Instr) (s : State) : State := match exec c s with | .next t => t | _ => s

/-- It left one. -/
def goes (c : Instr) (s : State) : Bool := match exec c s with | .next _ => true | _ => false

theorem next_of {c : Instr} {s : State} (h : goes c s = true) : exec c s = .next (after c s) := by
  unfold goes at h
  unfold after
  split at h <;> simp_all

def asleep : State := { run with pwr := { run.pwr with phase := .sleep } }
def inPhase (p : PPhase) : State := { State.reset with pwr := { Pwr.reset with phase := p } }
def locking : State := { run with clk := { run.clk with lock := false, relocking := true, trigger := 4 } }
def withRegs (s : State) (l : List (Nat × Reg32)) : State := { s with cfg := { s.cfg with regs := l } }

/-- A write of a register by agent 0. -/
def wr (off : BitVec 16) (val : Reg32) : Instr := .registerWrite 0 off val

/-- A beat with good parity. -/
def good (x : Nat) : Beat := { ad := BitVec.ofNat 64 x, adp := BitVec.ofNat 8 (byteParity 8 x) }
/-- H0: OP, LEN, MARK, CLASS, TAG, CMD, ADDR (02 R45). -/
def head (op len mark cls tag cmd a : Nat) : Nat :=
  op * 2 ^ 62 + len * 2 ^ 59 + mark * 2 ^ 56 + cls * 2 ^ 54 + tag * 2 ^ 52 + cmd * 2 ^ 48 + a
/-- A tenure of agent 0. -/
def ten (h : Nat) (rest : List Nat) : Tenure :=
  { who := 0, h0 := good h, rest := rest.map good, overrun := false, collided := false, urg := false }
/-- A run of TCK, with every pin low. -/
def tck (l : List Tck) : TapRun := { swings := [], pins := 0, ticks := l }
/-- A register row that is performed at once (`rowReady`). -/
def readyRow (s : State) (who off : Nat) (val : Reg32) : Bool :=
  rowOpen s who && rowFree s (rowWrite s who off val) && regWriteRoom s off val
theorem ready_of {s : State} {who off : Nat} {val : Reg32} (h : readyRow s who off val = true) : rowReady s who off val := by
  simpa [readyRow, rowReady, and_assoc] using h
/-- Port A's grant stands for agent 0. -/
def granted (s : State) : State := { s with bus := { s.bus with portA := { s.bus.portA with granted := some 0 } } }

/-! ### Tests of the model -/

/-- A READ header in the row of WRITE is ill-formed and refused; in its own row it is not. -/
theorem test_ill_formed : wellFormed (.write (ten (head 0 7 0 2 0 0 0x1000) [])) = false ∧
    exec (.write (ten (head 0 7 0 2 0 0 0x1000) [])) (granted run) = .refused .illFormed ∧
    wellFormed (.read (ten (head 0 7 0 2 0 0 0x1000) [])) = true := ⟨by decide, rfl, by decide⟩

/-- Reset values of 17 and the identification of 18 R415. -/
theorem test_reset_values : regRead State.reset 0x0000 = 0x00002000 ∧ regRead State.reset 0x9008 = 0x71595988 ∧
    (after (.idcode (tck (⟨false, false⟩ :: drScan (scanBits (0 : BitVec 32))))) run).out = tdoBits (scanBits (0x281409AB : BitVec 32)) := by decide

/-- The key (16 R389, R391): a keyed register takes a write from the holder only. -/
theorem test_key : reg (after (wr 0x1000 9) run) 0x1000 = 4 ∧
    reg (after (wr 0x1000 9) (after (wr 0xD000 0xC3A5) run)) 0x1000 = 9 := by decide

/-- Decode (01 R28): a region's pool address; no region, and the same to a READ_SPEC. -/
theorem test_decode : decodeReq run 0 .read .none 0x1000 7 0 = .region 0 0x800000F8 0x1000 ∧
    decodeReq run 0 .read .none 0x7000000000 7 0 = .refuse .decodeErr (some 1) ∧
    decodeReq run 0 .spec .none 0x7000000000 7 0 = .refuse .specRefused none := by decide

/-! ### Witnesses: the whole machine -/

theorem witness_StepRunsFrontCommand : { run with pending := [.linkDown] }.pending = .linkDown :: [] ∧ run.pending = [] := ⟨rfl, rfl⟩

theorem witness_StepKeepsSound : run.sound ∧ step { run with pending := [.linkDown] } = .next (after .linkDown run) := ⟨run_sound, rfl⟩

theorem witness_OnlyNamedEventsMoveThePart :
    exec .porstNAssert run = .next (after .porstNAssert run) ∧ (after .porstNAssert run).pwr.phase ≠ run.pwr.phase ∧
    exec .wakeReq asleep = .next (after .wakeReq asleep) ∧ (after .wakeReq asleep).pwr.phase ≠ asleep.pwr.phase :=
  ⟨rfl, by decide, rfl, by decide⟩

theorem witness_OnlyNamedCommandsWriteLastingState :
    (exec .linkDown run = .next (after .linkDown run)) ∧
    (exec (.idcode (tck [⟨false, false⟩])) run = .next (after (.idcode (tck [⟨false, false⟩])) run) ∧
      (after (.idcode (tck [⟨false, false⟩])) run).tst.tap ≠ run.tst.tap) ∧
    (exec (wr 0x4008 0) run = .next (after (wr 0x4008 0) run)) ∧
    (exec (wr 0x2114 0) run = .next (after (wr 0x2114 0) run) ∧ reg (after (wr 0x2114 0) run) 0x2114 ≠ reg run 0x2114) :=
  ⟨rfl, ⟨rfl, by decide⟩, rfl, rfl, by decide⟩

theorem witness_OnlyBoundariesChangeTheTick :
    goes (.tickBoundary 0) { run with qtk := { run.qtk with n := 8 } } = true ∧
    (after (.tickBoundary 0) { run with qtk := { run.qtk with n := 8 } }).qtk.n ≠ 8 ∧
    live (after (.tickBoundary 0) run) cntTick ≠ live run cntTick := by decide

theorem witness_WhatMakesBehaviourUndefined :
    wellFormed (.write (ten (head 0 7 0 2 0 0 0x1000) [])) = false ∧
    ({ run with undef := some .r57 }.undef = some .r57 ∧ wellFormed .linkDown = true ∧ outlastsBreach .linkDown = false ∧ tapCommand .linkDown = false) ∧
    (run.undef = none ∧ wellFormed .linkDown = true) ∧
    (goes (.refback 0) run = true ∧ (after (.refback 0) run).undef ≠ none) := by decide

/-! ### Witnesses: reset, clocks, the tick -/

theorem witness_PorstAndPowerLoss : asleep.undef = none ∧ asleep.pwr.phase = .sleep := ⟨rfl, rfl⟩

theorem witness_ColdResetSequence : State.reset.pwr.phase = .reset ∧ ((inPhase .c1).undef = none ∧ (inPhase .c1).pwr.phase = .c1) ∧
    (let s : State := { inPhase .c2 with clk := { Clk.reset with relocking := true, xoOk := true } }
     s.undef = none ∧ s.pwr.phase = .c2 ∧ s.clk.relocking = true ∧ s.clk.xoOk = true) := by decide

/-- Counts at the ends of R342's range, and outside them. -/
theorem witness_RelocksAndLockMonitor : locking.up ∧ locking.clk.relocking = true ∧ locking.clk.xoOk = true ∧ locking.pwr.wake = none ∧ rowReady run (0 : Fin 8) 0xA004 0x80000000 ∧
    run.up ∧ run.clk.lock = true ∧ run.clk.xoOk = true ∧ (1014 ≤ 1014 ∧ 1034 ≤ 1034) ∧ (1013 < 1014 ∨ 1034 < 1013) ∧ (1035 < 1014 ∨ 1034 < 1035) ∧
    asleep.undef = none ∧ asleep.pwr.phase = .sleep := ⟨⟨rfl, rfl⟩, rfl, rfl, rfl, ready_of (by decide), run_up, rfl, rfl, by decide⟩

theorem witness_ReferenceClock :
    (let s := regPut run 0x8014 0
     s.undef = none ∧ s.pwr.phase = .on ∧ readyRow s 0 0xA004 0x40000000 = true ∧ (reg s 0x8014).getLsbD 31 = false) ∧
    (run.up ∧ rowReady run (0 : Fin 8) 0xA004 0x40000000 ∧ (reg run 0x8014).getLsbD 31 = true) ∧
    (let s := withRegs run [(0xA010, 0x93E800FA)]
     s.undef = none ∧ s.pwr.phase = .on ∧ s.pwr.wake = none ∧ (reg s 0xA010).getLsbD 31 = true) ∧
    ({ run with clk := { run.clk with measEnd := some true } } : State).clk.measEnd = some true ∧ run.clk.measEnd = none :=
  ⟨by decide, ⟨run_up, ready_of (by decide), by decide⟩, by decide, rfl, rfl⟩

/-- A SYNC edge at the limit, one below it, the same with part of the Qt in a relock, and with all of it. -/
theorem witness_BoundarySources : run.ticks ∧ run.qtk.syncIn = false ∧
    (let s (part all : Bool) : State := { run with qtk := { run.qtk with syncIn := true, relocked := part, relockAll := all } }
     (s false false).ticks ∧ edgeCounts (s false false) 512 9 = 2 ^ (run.qtk.n - 1) ∧ edgeCounts (s false false) 511 9 < 2 ^ (run.qtk.n - 1) ∧
       edgeCounts (s true false) 362 10 = 2 ^ (run.qtk.n - 1) ∧ edgeCounts (s true false) 361 10 < 2 ^ (run.qtk.n - 1) ∧
       edgeCounts (s true true) 32 0 = 2 ^ (run.qtk.n - 1) ∧ edgeCounts (s true true) 31 0 < 2 ^ (run.qtk.n - 1)) :=
  ⟨run_ticks, rfl, ⟨⟨rfl, rfl⟩, rfl⟩, by decide⟩

/-! ### Witnesses: the agent bus -/

def withBus (s : State) (f : Bus → Bus) : State := { s with bus := f s.bus }
def withReqs (s : State) (l : List Req) : State := { s with bus := { s.bus with reqs := l, nextReq := 100 } }

/-- `heldCleanly` and `goodTenure`, so that they can be evaluated. -/
def heldB (s : State) (t : Tenure) : Bool :=
  decide ((port s (portOf t.who.val)).granted = some (pairOf t.who.val) ∧ (port s (portOf t.who.val)).collide = false ∧
    (port s (portOf t.who.val)).dead = false ∧ t.collided = false ∧ silenced s t.who.val = false)
theorem held_of {s : State} {t : Tenure} (h : heldB s t = true) : heldCleanly s t := by
  unfold heldCleanly; exact of_decide_eq_true h
def goodB (s : State) (t : Tenure) (c : ReqCmd) : Bool :=
  heldB s t && decide (tenureCode t = 0 ∧ cmdOf (h0Cmd t.h0.ad) = some c ∧ sequenceCode s t c = 0 ∧ (t.urg = false ∨ h0Class t.h0.ad = 0))

theorem good_of {s : State} {t : Tenure} {c : ReqCmd} (h : goodB s t c = true) : goodTenure s t c :=
  let h := (Bool.and_eq_true _ _).mp h; ⟨held_of h.1, of_decide_eq_true h.2⟩

def locked (s : State) : State := { s with wrb := { s.wrb with locks := [(0, 8, 0)] } }

/-- A good tenure of each request row that decode lets through. -/
def goodRows : List (Instr × State) :=
  [(.read (ten (head 0 7 0 2 0 0x0 0x1000) []), granted run), (.readFetch (ten (head 0 7 0 2 0 0x1 0x1000) []), granted run),
   (.readSpec (ten (head 0 7 0 0 3 0x2 0x1000) []), granted run), (.write (ten (head 0 0 0 2 0 0x4 0x1000) [0xFF, 5]), granted run),
   (.writeNt (ten (head 0 0 0 2 0 0x5 0x1038) [0x80 * 2 ^ 56, 5]), granted run), (.lockRead (ten (head 0 7 0 2 0 0x8 0x1000) []), granted run),
   (.lockWrite (ten (head 0 0 0 2 0 0x6 0x1000) [0xFF, 5]), granted (locked run)),
   (.lockAbort (ten (head 0 0 0 2 0 0x9 0x1000) []), granted (locked run)),
   (.atomic (ten (head 1 0 0 2 0 0xA 0x1000) [0x0F, 5]), granted run), (.watch (ten (head 0 0 0 2 0 0xC 0x1000) []), granted run),
   (.barrier (ten (head 0 0 4 2 0 0xF 0) []), granted run), (.read (ten (head 0 0 0 0 0 0x0 0xFFFFFFF80000) []), granted run),
   (.write (ten (head 0 0 0 0 0 0x4 0xFFFFFFF80008) [0xF0 * 256, 5]), granted run)]

def admits (i : Instr) (s : State) : Bool :=
  match rowTenure i with
  | some (t, c) => goodB s t c && (admitsAs s t c).isSome
  | none => false

theorem witness_GoodTenureIsAdmitted : ∀ p ∈ goodRows, admits p.1 p.2 = true := by decide

theorem admits_meets {i : Instr} {s : State} (h : admits i s = true) :
    ∃ t c x, rowTenure i = some (t, c) ∧ goodTenure s t c ∧ admitsAs s t c = some x := by
  unfold admits at h
  split at h
  · rename_i t c e
    simp only [Bool.and_eq_true] at h
    obtain ⟨x, hx⟩ := Option.isSome_iff_exists.1 h.2
    exact ⟨t, c, x, e, good_of h.1, hx⟩
  · simp at h

/-- A halted channel; a broken lock's record; refusals with and without a decode log. -/
theorem witness_GoodTenureIsRefused :
    (let t : Tenure := { ten (head 0 7 0 2 0 0x0 0x1000) [] with who := 8 }
     let s : State := { withBus run (fun b => { b with portA := { b.portA with granted := some 4 } }) with err := { run.err with dmaHalt := 1 } }
     soundB s = true ∧ goodB s t .read = true ∧ isHalted s 8 = true) ∧
    (let t := ten (head 0 7 0 2 0 0x0 0x1000) []
     let s : State := { granted run with wrb := { run.wrb with broken := [(8, 1)] } }
     soundB s = true ∧ goodB s t .read = true ∧ isHalted s 0 = false ∧ decodeOf s t .read = .region 0 0x800000F8 0x1000 ∧
       brokenRecord s 0 .read 0x800000F8 (cbOf 0x1000) = true) ∧
    (let t := ten (head 0 7 0 2 0 0x1 0x100000000) []
     soundB (granted run) = true ∧ goodB (granted run) t .fetch = true ∧ decodeOf (granted run) t .fetch = .refuse .fetchFault none) ∧
    (let t := ten (head 0 7 0 2 0 0x0 0x7000000000) []
     soundB (granted run) = true ∧ goodB (granted run) t .read = true ∧ isHalted (granted run) 0 = false ∧
       decodeOf (granted run) t .read = .refuse .decodeErr (some 1)) := by decide

/-- Bad parity in the byte of the tag and in another, too few beats, an overrun, each format row; a busy tag, a lock row, a second WATCH; a
request of class 1 with x_URG_N asserted. -/
theorem witness_TenureViolations :
    (let h := head 0 0 0 2 0 0x4 0x1000
     let bad (k : Nat) : Tenure := { ten h [0xFF, 5] with h0 := { good h with adp := (good h).adp ^^^ BitVec.ofNat 8 (2 ^ k) } }
     let l := [(bad 6, 2), (bad 0, 1), ({ ten h [0xFF, 5] with rest := [⟨0xFF, 0xFF⟩, good 5] }, 3), (ten h [0xFF], 4), (ten h [0xFF, 5, 5], 5),
       (ten (head 0 0 7 2 0 0x4 0x1000) [0xFF, 5], 7), (ten (head 0 0 0 2 0 0x4 0x1001) [0xFF, 5], 8),
       (ten (head 0 1 0 2 0 0x4 0x1038) [0xFF, 5, 5], 9), (ten h [0xFF00, 5], 0xB), (ten (head 1 0 0 2 0 0x4 0x1000) [0xFF, 5], 0xC)]
     (granted run).undef = none ∧ soundB (granted run) = true ∧
       (∀ x ∈ l, heldB (granted run) x.1 = true ∧ rowTenure (.write x.1) = some (x.1, .write) ∧ tenureFits .write x.1 = true ∧ tenureCode x.1 = x.2) ∧
       tenureCode (ten (head 0 1 0 2 0 0xC 0x1000) []) = 0xA ∧ tenureCode { ten (head 0 0 0 2 0 0xC 0x1000) [] with who := 8 } = 0xD ∧
       tenureCode (ten (head 0 0 0 2 0 0x3 0x1000) []) = 6 ∧ tenureFits .read (ten (head 0 0 0 2 0 0x3 0x1000) []) = true) ∧
    (let q : Req := { blankReq (ten (head 0 0 0 2 0 0xC 0x1000) []) .watch 0 with target := .region 0 0x800000F8 }
     let s := withReqs (granted run) [q]
     soundB s = true ∧ sequenceCode s (ten (head 0 7 0 2 0 0x0 0x2000) []) .read = 0x0E ∧
       sequenceCode s (ten (head 0 0 0 2 1 0x9 0x2000) []) .lockAbort = 0x0F ∧ sequenceCode s (ten (head 0 0 0 2 1 0xC 0x2000) []) .watch = 0x10) ∧
    (let t : Tenure := { ten (head 0 7 0 1 0 0x0 0x1000) [] with urg := true }
     tenureCode t = 0 ∧ cmdOf (h0Cmd t.h0.ad) = some .read ∧ sequenceCode (granted run) t .read = 0 ∧ h0Class t.h0.ad ≠ 0) := by decide

/-- Every pair asks, pair 3 urgently. -/
def asking : PortPins := { req := 0x3F, urg := 0x08, quietMet := true }
/-- A response to a request of requester `who`. -/
def resp (who : Nat) (counted untagged : Bool) : Resp :=
  { who := who, tag := 0, rsp := .ok, beats := [1, 2], untagged := untagged, retry := false, counted := counted, req := none, cb := none }
def withResps (s : State) (l : List Resp) : State := { s with bus := { s.bus with resps := l } }

theorem witness_OnlyEligiblePairsAreGranted : exec (.grant .A asking .driven) run = .next (after (.grant .A asking .driven) run) ∧
    (after (.grant .A asking .driven) run).out = .grant .A 3 :: run.out := ⟨rfl, by decide⟩

/-- Counted response; urgent pair; response after an agent tenure; pair in round robin; response when no pair asks. -/
theorem witness_ArbitrationOrder :
    (let quiet : PortPins := { asking with urg := 0 }
     let two := withResps run [resp 0 false false, resp 1 true false]
     let one := withResps run [resp 0 false true]
     let prev := withBus one fun b => { b with portA := { b.portA with prevAgent := true } }
     portFree two .A asking = true ∧ portEn two .A = true ∧ portEn one .A = true ∧ portEn prev .A = true ∧ (port two .A).again = none ∧ two.pwr.fullRdy = true ∧
     (readyResps two .A).find? (·.counted) = some (resp 1 true false) ∧ arbitrate two .A asking = .respond (resp 1 true false) ∧
     (readyResps run .A).find? (·.counted) = none ∧ arbitrate run .A asking = .grant 3 true ∧
     (∀ k, k < 6 → (eligible run .A quiet k && quiet.urg.getLsbD k) = false) ∧ arbitrate run .A quiet = .grant 0 false ∧
     readyResps prev .A = [resp 0 false true] ∧ (port prev .A).prevAgent = true ∧ arbitrate prev .A quiet = .respond (resp 0 false true) ∧
     (∀ k, k < 6 → eligible one .A { quiet with req := 0 } k = false) ∧ arbitrate one .A { quiet with req := 0 } = .respond (resp 0 false true)) := by
  decide

theorem witness_ResponseHeaderLayout : (resp 11 true true).beats.length ≤ 8 ∧ (resp 11 true true).who < 12 := by decide

theorem witness_StrayPinsAndResetSense :
    (run.up ∧ pinsLive run = true ∧ (port run .A).granted = none ∧ (port run .A).quiet = false) ∧
    (let s := withRegs run [(0x0000, 0x80002001)]
     s.undef = none ∧ pinsLive s = true ∧ portEn s .A = true ∧ attached s (whoAt .A 5) = false) ∧
    (let s := withBus (withResps run [resp 0 true false]) fun b => { b with portA := { b.portA with quiet := true, launch := some (3, none) } }
     s.undef = none ∧ s.pwr.phase = .on ∧ portEn s .A = true ∧ launchOpen s .A = true ∧
       arbitrate (atLaunch s .A) .A { asking with quietMet := true } = .respond (resp 0 true false)) ∧
    (pinsLive (locked run) = true ∧ inReset (locked run) 0 = false ∧ lockOf (locked run) 0 = some 8) ∧
    (inReset (withBus run fun b => { b with rsns := 0x800 }) 11 = true ∧ pinsLive asleep = false) :=
  ⟨⟨run_up, by decide⟩, by decide⟩

theorem witness_PortSettingsFixedWhileEnabled :
    (let s : State := { run with cfg := { run.cfg with unlocked := some 0 } }
     s.undef = none ∧ s.pwr.phase = .on ∧ s.cfg.unlocked = some (0 : Fin 8).val ∧ portEn s .A = true ∧
       readyRow s 0 (rAgpCfg .A) 0x8000003F = true ∧ readyRow s 0 (rAgpCfg .A) 0x8000203E = true ∧ readyRow s 0 (rAgpCfg .A) 0x0000203F = true ∧
       fld (reg s (rAgpCfg .A)) 13 12 ≠ fld (0x8000003F : Reg32) 13 12 ∧ fld (reg s (rAgpCfg .A)) 5 0 ≠ fld (0x8000203E : Reg32) 5 0 ∧
       (0x0000203F : Reg32).getLsbD 31 = false ∧ fld (reg s (rAgpCfg .A)) 13 12 = fld (0x0000203F : Reg32) 13 12 ∧
       fld (0x0000203F : Reg32) 13 12 ≠ 3 ∧ fld (reg s (rAgpCfg .A)) 5 0 = fld (0x0000203F : Reg32) 5 0) := by decide

/-! ### Witnesses: probes and boundaries -/

/-- The walk over the tags has been made: the cache may be enabled. -/
def walked : State := { run with cch := { run.cch with invDone := true } }
/-- The cache has been enabled: an INV_ALL is queued to every agent. -/
def probing : State := after (.cacheEnable 0) walked
/-- It has been sent on port A. -/
def sent : State := after (.probeSend .A false) probing
/-- The cache is enabled and no probe waits. -/
def caching : State := { walked with cch := { walked.cch with enabled := true } }
/-- Every probe outstanding has waited `q` boundaries. -/
def aged (s : State) (q : Nat) : State :=
  { s with prb := { s.prb with probes := s.prb.probes.map fun x => { x with out := x.out.map fun o => (o.1, q) } } }
def withWrb (s : State) (f : Wrb → Wrb) : State := { s with wrb := f s.wrb }

theorem witness_ProbeWordLayout : probeRgn run (8 * 512) = some 0 ∧ probeRgn run (0x20000000 * 512) = none ∧
    probeRgn run 0x100000000 = some 1 ∧ probeRgn (withRegs run []) 0 = some 0 ∧ attrEn (rgnAttr (withRegs run []) 0) = false := by decide

theorem witness_ProbesSentInOrder : (probing.undef = none ∧ pinsLive probing = true ∧ (nextProbe probing .A).isSome = true) ∧
    (∃ x ∈ probing.prb.probes, (probeTargets probing x).getLsbD 3 = true) ∧
    (∃ x ∈ probing.prb.probes, ∃ y ∈ probing.prb.probes, y.port ≠ x.port ∧ y.id < x.id) := by decide

theorem witness_ProbeAcknowledgementAndTimeout :
    (sent.undef = none ∧ pinsLive sent = true ∧ attached sent 3 = true ∧ inReset sent 3 = false ∧ portOf 3 = .A ∧
      (probesAt sent .A 3).length = 1) ∧
    (attached (withRegs run []) 3 = false ∧ probesAt run (portOf 3) (pairOf 3) = [] ∧
      inReset (withBus run fun b => { b with rsns := 8 }) 3 = true) ∧
    ((aged sent 500).undef = none ∧ (aged sent 500).pwr.phase = .on ∧ (aged sent 500).qtk.running = true ∧
      probeOverdue (aged sent 500) 3 = true ∧ probeOverdue sent 3 = false) ∧
    (let s := after (.probeTimeout 3) (aged sent 500)
     s.undef = none ∧ s.pwr.phase = .on ∧ readyRow s 0 0x1008 (BitVec.setWidth 32 (8 : BitVec 8)) = true ∧ (8 : BitVec 8).getLsbD 3 = true ∧
       s.prb.unresp.getLsbD 3 = true ∧ attached s 3 = true ∧ inReset s 3 = false) := by decide

/-- A store of agent 0 in its queue. -/
def stored : State := after (.write (ten (head 0 0 0 2 0 0x4 0x1000) [0xFF, 5])) (granted run)
/-- It has retired into a merge buffer entry. -/
def merged : State := after (.storeRetirement 0 false) stored
/-- Members 16 to the last. -/
def atTick (s : State) (n : Nat) : State := { s with cfg := { s.cfg with live := [(cntTick, BitVec.ofNat 64 n)] } }

theorem witness_BoundaryItems :
    ((merged.undef = none ∧ merged.pwr.phase = .on ∧ merged.qtk.running = true) ∧ (merged.wrb.entries.map (·.id)) = [0] ∧
      (let s := withWrb merged fun w => { w with entries := w.entries.map fun e => { e with age := 4 } }
       ∃ e ∈ s.wrb.entries, s.qtk.ageMax ≤ e.age ∧ e.nt = false ∧ e.fetching = false) ∧
      ∀ x ∈ merged.wrb.entries, agedOut merged x = false) ∧
    (let s := withWrb run fun w => { w with locks := [(2, 8, 64)] }
     s.wrb.locks.find? (fun l => l.1 == (2 : Fin 8).val && decide (lockTmo s ≤ l.2.2)) = some (2, 8, 64)) ∧
    (let s : State := { run with err := { run.err with buckets := List.replicate 6 { level := 3, leak := 255, rst := false } } }
     s.err.buckets[5]? = some { level := 3, leak := 255, rst := false } ∧ bktLeak s 5 ≠ 0 ∧ bktLeak s 5 ≤ 255) ∧
    (let s : State := { run with cfg := { run.cfg with window := true, winQt := 64, unlocked := some 3, unlkQt := 2 } }
     s.cfg.window = true ∧ 64 ≤ s.cfg.winQt ∧ s.cfg.unlocked.isSome = true ∧ 2 ≤ s.cfg.unlkQt) ∧
    (run.cfg.parBad = [] ∧ run.cfg.passWait = false ∧ ({ run with cfg := { run.cfg with passWait := true } } : State).cfg.passWait = true) := by decide

/-- Every code of R125, and 0. -/
theorem witness_CacheEnableAndDisable :
    (run.undef = none ∧ run.pwr.phase = .on ∧ run.cch.enabled = false ∧ readyRow run 0 0x2104 1 = true ∧ run.cch.invDone = false) ∧
    (let s := regPut run 0x2100 4
     3 < fld (reg s 0x2100) 2 0 ∧ readyRow s 0 0x2104 1 = true) ∧
    (let s := regPut run 0x9000 0x300
     ¬ 3 < fld (reg s 0x2100) 2 0 ∧ cspCapacity s < 2 ^ (27 + fld (reg s 0x2100) 2 0) ∧ readyRow s 0 0x2104 1 = true) ∧
    (let s : State := { walked with csp := { run.csp with ready := false } }
     ¬ 3 < fld (reg s 0x2100) 2 0 ∧ 2 ^ (27 + fld (reg s 0x2100) 2 0) ≤ cspCapacity s ∧ s.csp.ready = false ∧ readyRow s 0 0x2104 1 = true) ∧
    (let s : State := { walked with cch := { walked.cch with bypass := true } }
     s.csp.ready = true ∧ s.cch.bypass = true ∧ s.cfg.okSince = false ∧ readyRow s 0 0x2104 1 = true) ∧
    (walked.cch.enabled = false ∧ readyRow walked 0 0x2104 1 = true ∧ walked.cch.invDone = true ∧ walked.cfg.parBad = [] ∧
      probeable walked 0 false = true) ∧
    (caching.undef = none ∧ caching.pwr.phase = .on ∧ caching.cch.enabled = true ∧ readyRow caching 0 0x2104 1 = true ∧
      readyRow caching 0 0x2104 0 = true) ∧
    (∃ h ∈ (after (.read (ten (head 0 7 0 2 0 0x0 0x1000) [])) (granted caching)).cch.handlers, isFill h.kind = true) := by decide

/-- A read that missed: a demand fill in flight. -/
def reading : State := after (.read (ten (head 0 7 0 2 0 0x0 0x1000) [])) (granted caching)
/-- Its data has come. -/
def filled : State :=
  { reading with mem := { reading.mem with reads := [] }, cch := { reading.cch with
      handlers := reading.cch.handlers.map fun h => { h with data := some (7, 0) } } }
/-- Reads wait for a handler: one counted as class 0, one not. -/
def waitingReads : State :=
  let q : Req := { blankReq (ten (head 0 7 0 2 0 0x0 0x1000) []) .read 0 with target := .region 0 0x800000F8, pool := 0x1000, phase := .handler }
  withReqs caching [q, { q with id := 1, who := 1, counted := true, cls := 0, pool := 0x2000, addr := 0x2000 }]
/-- A unit of ring 0's PRELOAD waits for a handler. -/
def preloading : State :=
  let w : UnitWait := { unit := 0, attr := 0x800000F8, cb := 8, age := some 5, again := false }
  let x : Running := { descRun 2 with addr := 0x1000, len := 0x800, region := 0, total := 4, issued := 1, waiting := [w] }
  updRing caching 0 fun r => { r with run := some x }
def candidate : State :=
  { withRegs caching ((0x2114, 0x80200801) :: run.cfg.regs) with cch := { caching.cch with cands := [⟨64, 0, 0x800000F8⟩] } }

theorem witness_MissHandlersAndFills :
    ((waitingReads.undef = none ∧ waitingReads.pwr.phase = .on) ∧ (handlerFor waitingReads).isSome = true ∧
      (∃ q ∈ waitingReads.bus.reqs, q.counted = false ∧ q.phase = .handler) ∧
      (turn waitingReads .reenter 1).isSome = true ∧ (turn (withReqs caching (waitingReads.bus.reqs.take 1)) .reenter 1).isSome = true ∧
      (handlerFor (withReqs caching (waitingReads.bus.reqs.take 1))).isSome = true ∧
      (match handlerFor preloading with | some (.unit 0 _ _, _) => true | _ => false) = true ∧ (turn preloading .reenter 1).isSome = true) ∧
    ((filled.undef = none ∧ filled.pwr.phase = .on ∧ soundB filled = true) ∧
      (match getHandler filled 8 with
       | some h => decide (h.data = some (7, 0) ∧ h.kind = .demand ∧ h.pos = some 128 ∧ 128 < filled.cch.known ∧ backBusy filled h.cb = false ∧
           h.cancelled = false ∧ badWays filled h.cb = 0 ∧ (overlay filled h.cb h.later 7).2 = false)
       | none => false) = true ∧ filled.cch.enabled = true ∧ filled.csp.ready = true ∧ filled.bus.reqs.length = 1 ∧
      (turn filled (.install 8) 1).isSome = true) ∧
    (({ filled with cch := { filled.cch with enabled := false } } : State).cch.enabled = false ∧
      (turn { filled with cch := { filled.cch with enabled := false } } (.install 8) 1).isSome = true) ∧
    ((candidate.undef = none ∧ candidate.pwr.phase = .on) ∧ candidate.cch.cands = [⟨64, 0, 0x800000F8⟩] ∧ prefetchOpen candidate = true ∧
      candidateOk candidate ⟨64, 0, 0x800000F8⟩ = true ∧ (turn candidate .candidate 1).isSome = true ∧
      (turn { candidate with cfg := run.cfg } .candidate 1).isSome = true ∧
      prefetchOpen { candidate with pwr := { candidate.pwr with st := .offrdy } } = false ∧
      pfEn { candidate with cfg := run.cfg } = false) := by decide

/-- A command of the wake of cc: one access of each kind waits at the Cache Store Port. -/
def acc (id : Nat) (kind : AccKind) (pos : Nat) (sectors : List Nat) (mask : BlockMask) (counted issued : Bool) : Acc :=
  { id := id, kind := kind, pos := pos, sectors := sectors, data := 0, mask := mask, counted := counted, cls := if counted then 0 else 2,
    left := sectors, issued := issued }
def withAccs (s : State) (l : List Acc) : State := { s with csp := { s.csp with accs := l } }
def zeroWords (k : Nat) : List (BitVec 64 × BitVec 8) := List.replicate (8 * k) (0, secEncode 0)

theorem witness_CacheStoreAccesses :
    (let l := [acc 0 (.hit 0) 5 [1] 0 false false, acc 1 (.install 8) 6 [0, 1] (BitVec.allOnes 512) true false, acc 2 (.hit 1) 7 [1] 0 true false]
     let pick (s : State) (r : List Nat) := (pickAcc s r).map (·.1.id)
     caching.undef = none ∧ caching.csp.ready = true ∧ pick (withAccs caching l) [0, 1, 2] = some 2 ∧ pick (withAccs caching l) [0, 1] = some 1 ∧
       pick (withAccs caching l) [0] = some 0 ∧ pick (withAccs caching [acc 0 .store 5 [1] 1 false false]) [0] = some 0 ∧
       partialWord (accMask (acc 0 .store 5 [1] (2 ^ 64) false false) 1) = true ∧ isWrite (acc 0 .store 5 [1] (2 ^ 64) false false) = true ∧
       partialWord (accMask (acc 1 (.install 8) 6 [0, 1] (BitVec.allOnes 512) true false) 0) = false) ∧
    (let a := acc 0 (.hit 0) 5 [1] 0 false true
     let s := withAccs (withReqs caching [{ blankReq (ten (head 0 7 0 2 0 0x0 0x1040) []) .read 0 with phase := .hit 0 }]) [a]
     s.csp.accs.find? (fun x => x.id == a.id && x.issued) = some a ∧ (zeroWords 1).length = 8 * (todo a).length ∧ isWrite a = false ∧
       (match getReq s 0 with | some q => decide (responded s q = false ∧ q.who < 12 ∧ silenced s q.who = false) | none => false) = true ∧
       (sectorsRead s a.pos a.sectors (zeroWords 1)).2.2 = [] ∧ (sectorsRead s a.pos a.sectors (List.replicate 8 (3, secEncode 0))).2.2 = [1]) := by
  decide

theorem witness_CodesCorrectAndDetect : (0 < 64 ∧ 63 < 64 ∧ 0 ≠ 63) ∧ (0 : BitVec 3).toNat ≤ 5 ∧ (5 : BitVec 3).toNat ≤ 5 ∧
    1 % 2 ^ 35 ≠ 0 % 2 ^ 35 := by decide

theorem witness_FaultHandlingOperations :
    (let s : State := { caching with cch := { caching.cch with secClr := [(128, 7)], setClr := [(8, 2)], tags := [(128, tagWord ⟨0, 0, false, false, 0, 0xFF⟩)] } }
     s.undef = none ∧ s.pwr.phase = .on ∧ soundB s = true ∧ s.cch.secClr = [(128, 7)] ∧ 128 < s.cch.known ∧ s.cch.setClr = [(8, 2)] ∧
       probeRoom s (attachedAgents s) = true ∧ liveWays s 8 ≠ [] ∧ posOf s 8 0 < s.cch.known ∧
       (turn s .setClear 1).isSome = true ∧ (turn { s with cch := { s.cch with setClr := [] } } .sectorClear 1).isSome = true) ∧
    (let s : State := { caching with err := { caching.err with retire := [(128, 1)] } }
     s.err.retire = [(128, 1)] ∧ (turn s .retirement 1).isSome = true ∧ s.err.scree.length < 1024 ∧ screeStale s = false ∧
       screeStale { s with err := { s.err with scree := [1], screeWays := 3 } } = true) := by decide

/-- Initialization of the Cache Store Port stands at step `k`. -/
def inStep (k : Nat) (trial : Bool) : State :=
  { run with csp := { Csp.reset with busy := true, step := BitVec.ofNat 4 k, trial := trial } }
def waking (w3 w4 w5 w7 : Bool) : State :=
  { run with pwr := { run.pwr with st := .waking, wake := some { w3 := w3, w4 := w4, w5 := w5, w7 := w7, outcome := .none },
                                   c0Rdy := false, fullRdy := false } }

/-- Each step of the initialization, with each branch of steps 1, 5, 7 and 8. -/
theorem witness_CacheStorePortStates :
    (∀ k ∈ List.range 9, 1 ≤ k → (inStep k false).undef = none ∧ (inStep k false).pwr.phase = .on ∧ (inStep k false).csp.busy = true ∧
      (inStep k false).csp.step = BitVec.ofNat 4 k ∧ k ≤ 8) ∧
    (timOk (inStep 1 false) = true ∧ cspDens (inStep 1 false) ≠ 3 ∧ cspDens (withRegs (inStep 1 false) [(0x9000, 0x300)]) = 3) ∧
    (vaultRecord (inStep 5 false)).isSome = false ∧ (inStep 7 true).csp.trial = true ∧ run.csp.busy = false ∧ caching.cch.enabled = true ∧
    (run.csp.ready = true ∧ (0 : Fin 2).val < cspRanks run ∧ ¬ (1 : Fin 2).val < cspRanks run) ∧
    (let s := withRegs { run with csp := { run.csp with zq0 := 16, zq1 := 16 } } [(0x900C, 0x100), (0x9000, 0x1000)]
     0 < zqIvl s ∧ (1 : Fin 2).val < cspRanks s) ∧
    (let s := { withRegs run [(0x9000, 0x1000)] with
       csp := { run.csp with zq0 := 16, zq1 := 16, ivl := 1 }, qtk := { run.qtk with quanta := true } }
     s.csp.ready = true ∧ s.qtk.quanta = true ∧ 0 < s.csp.ivl ∧ s.csp.ivl * 16 ≤ s.csp.zq0 ∧ s.csp.ivl * 16 ≤ s.csp.zq1 ∧ (1 : Fin 2).val < cspRanks s) ∧
    readyRow run 0 0x9010 0x80000000 = true ∧ (waking false false false false).clk.xoOk = true ∧
    ((waking false false false false).undef = none ∧ (waking false false false false).pwr.phase = .on ∧ (waking false false false false).csp.vddqLow = false) ∧
    asleep.undef = none ∧ asleep.pwr.phase = .sleep := by decide

/-! ### Witnesses: the write path -/

/-- The oldest entry of agent 0's queue waits for no mark, and `p` holds of it. -/
def heads (s : State) (p : Req → Bool) : Bool :=
  s.undef.isNone && s.pwr.phase == .on && match (storeQueue s 0).head? with
    | some q => q.phase == .queue && markMet s q && p q
    | none => false
def storeAt (a : Nat) : State := after (.write (ten (head 0 0 0 2 0 0x4 a) [0xFF, 5])) (granted run)
/-- A record of the newest Vault slot that this configuration's training fits. -/
def recorded : State :=
  let s := withRegs (inStep 5 true) [(0x9000, 0x00100001)]
  let slot := BitVec.ofNat 65536 (2 ^ 64 + (trainStamp s).toNat * 2 ^ 512)
  { s with vlt := { s.vlt with valid := 1, slots := slot :: List.replicate 7 0 } }

theorem witness_VaultRecord : recorded.csp.step = 5 ∧ (vaultRecord recorded).isSome = true := by decide

theorem witness_StoreRetires :
    (let meets (s : State) := heads s fun q => decide ((q.cmd = .write ∨ q.cmd = .writeNt ∨ q.cmd = .lockWrite) ∧ isNormal q = true ∧
       brokenFor s q = false ∧ storeMayRetire s q false = true ∧ storeMayRetire s q true = true ∧ (turn s (.store 0) 1).isSome = true)
     meets stored = true ∧ meets (after (.writeNt (ten (head 0 0 0 2 0 0x5 0x1038) [0x80 * 2 ^ 56, 5])) (granted run)) = true ∧
       meets (after (.lockWrite (ten (head 0 0 0 2 0 0x6 0x1000) [0xFF, 5])) (granted (locked run))) = true ∧
       meets (withBus stored fun b => { b with reqs := b.reqs.map fun q => { q with mark := .durable, dur := .met } }) = true) := by decide

theorem witness_OtherQueueEntriesRetire :
    (let s := after (.lockAbort (ten (head 0 0 0 2 0 0x9 0x1000) [])) (granted (locked run))
     heads s (fun q => decide (q.cmd = .lockAbort ∧ brokenFor s q = false)) = true ∧
       heads (withWrb s fun w => { w with brk := 1 }) (fun q => decide (q.cmd = .lockAbort ∧ q.who < 8)) = true) ∧
    (let s := after (.watch (ten (head 0 0 0 2 0 0xC 0x1000) [])) (granted run)
     heads s (fun q => decide (q.cmd = .watch ∧ brokenFor s q = false ∧ lockedByOther s (reqCb q) q.who = false)) = true ∧
       heads { s with wrb := { s.wrb with arms := List.replicate 8 (some 8), armWr := 1 } } (fun q => decide (s.wrb.arms.length = 8 ∧ reqCb q = 8)) = true) ∧
    (heads (storeAt 0x100000000) (fun q => match q.target with
        | .region _ a => decide (q.cmd = .write ∧ a.getLsbD 0 = true ∧ a.getLsbD 4 = true ∧ q.mark ≠ .durable ∧
            writeOrderMet (storeAt 0x100000000) q = true ∧ writesHeld (storeAt 0x100000000) = false ∧ deviceSlot (storeAt 0x100000000) q = true)
        | _ => false) = true ∧
      heads (storeAt 0x200000000) (fun q => match q.target with
        | .region _ a => decide (a.getLsbD 0 = true ∧ a.getLsbD 4 = false ∧ writeOrderMet (storeAt 0x200000000) q = true)
        | _ => false) = true) ∧
    (let s := after (.write (ten (head 0 0 0 0 0 0x4 0xFFFFFFF85110) [0x0F * 2 ^ 16, 5])) (granted run)
     heads s (fun q => decide (q.cmd = .write ∧ q.target = .window 0x5110 ∧ writeOrderMet s q = true ∧ isDoorbell 0x5110 = true ∧ releaseMet s q = true ∧
       regWriteRoom s 0x5110 (q.data.extractLsb' (8 * (0x5110 % 64)) 32) = true)) = true) := by decide

/-- An ATOMIC (add of one byte at 0x1000) whose codeblock is in an open entry. -/
def fetched : State :=
  let s := after (.atomic (ten (head 1 0 0 2 1 0xA 0x1000) [1, 5])) (granted merged)
  withBus s fun b => { b with reqs := b.reqs.map fun q => if q.cmd == .atomic then { q with phase := .fetched } else q }

theorem witness_AtomicAndLockReads :
    (let meets (s : State) := match (storeQueue s 0).head? with
       | some q => decide (q.phase = .fetched ∧ (turn s (.pass 0) 1).isSome = true ∧ (openEntry s (reqCb q)).isSome = true ∧ passWaits s q = false ∧ passBad s q = none ∧ q.fail = 0 ∧
           (q.cmd = .lockRead ∨ q.cmd = .atomic)) | none => false
     let op (k : Nat) := withBus fetched fun b => { b with reqs := b.reqs.map fun q => { q with op := BitVec.ofNat 2 k } }
     let result (k : Nat) : Bool := match (storeQueue (op k) 0).head? with
       | some q => match openEntry (op k) (reqCb q) with | some e => (atomicResult q (entrySector e q)).isSome | none => false
       | none => false
     (fetched.undef = none ∧ fetched.pwr.phase = .on) ∧ meets fetched = true ∧ result 1 = true ∧ result 2 = false ∧
       meets (withBus fetched fun b => { b with reqs := b.reqs.map fun q => { q with cmd := .lockRead } }) = true) ∧
    firstBeat 0x1038 < 8 ∧ atomicMaskOk 0x1038 (0x80 * 2 ^ 56) = true ∧ atomicMaskOk 0x1000 0xFF = true ∧ atomicMaskOk 0x1000 3 = true := by decide

/-- Its entry is marked for a drain. -/
def draining : State := withWrb merged fun w => { w with entries := w.entries.map fun e => { e with mark := some .other } }
/-- The drain has started, with a lookup to do for the missing bytes. -/
def started : State := after (.drainStart false) draining
/-- Its bytes are complete. -/
def complete : State := withWrb started fun w => { w with slots := w.slots.map fun x => { x with stage := .ready } }
def cached (s : State) : State :=
  { s with cch := { caching.cch with tags := [(128, tagWord ⟨0, 0, false, false, 0, 0xFF⟩)] } }

theorem witness_DrainStartsAndLookups :
    ((draining.undef = none ∧ draining.pwr.phase = .on) ∧ draining.tst.quiescing = false ∧ (drainPick draining).isSome = true ∧ drainSlotLeft draining = true) ∧
    (let look (s : State) (p : Slot → Bool) : Bool := match getSlot s 0 with | some x => x.kind == .drain && x.stage == .lookup && p x && (turn s (.completion 0) 1).isSome | none => false
     (started.undef = none ∧ started.pwr.phase = .on) ∧ look started (fun x => !lookable started x.cacheable x.cb) = true ∧
       look (cached started) (fun x => decide (lookable (cached started) x.cacheable x.cb = true ∧ clearingDue (cached started) x.cb = false ∧
         lookup (cached started) x.cb ((missingSectors x).foldl (fun m k => setBit m k true) 0) = .hit 0 ∧
         secDue (cached started) (posOf (cached started) (setOf (cached started) x.cb) 0) ((missingSectors x).foldl (fun m k => setBit m k true) 0) = false ∧
         (cached started).csp.ready = true ∧ accRoomFor (cached started) false (sectorRuns (missingSectors x)).length = true)) = true) := by decide

/-- A completion of zero length for tag 16. -/
def zeroCpl (m : MRead) : Cpl :=
  { tag := 16, ridOk := true, status := .sc, ep := false, byteCount := 1, lowerAddr := BitVec.ofNat 7 m.addr, data := [0, 0, 0, 0], header := [] }
/-- A flush read is outstanding. -/
def flushing : State :=
  after .flushRead (withBus stored fun b => { b with reqs := b.reqs.map fun q => { q with mark := .durable, dur := .needFlush } })

theorem witness_DrainWritesAndFlushReads :
    ((complete.undef = none ∧ complete.pwr.phase = .on) ∧ (pickDrain complete).isSome = true) ∧
    (let s := withBus stored fun b => { b with reqs := b.reqs.map fun q => { q with mark := .durable, dur := .needFlush } }
     flushWaiting s ≠ [] ∧ slotFree s true = true) ∧
    (match flushing.mem.reads with
      | [m] => decide (flushing.undef = none ∧ flushing.pwr.phase = .on ∧ flushing.mem.dlUp = true ∧ matching flushing (zeroCpl m) = some m ∧ m.owner = .flush 0 ∧
          m.quar = false ∧ zeroLenOk m (zeroCpl m) = true ∧ zeroLenOk m { zeroCpl m with status := .ur } = false) &&
          (match getSlot flushing 0 with | some x => x.kind == .flush [0] false | none => false)
      | _ => false) = true := by decide

/-! ### Witnesses: the memory port -/

def withMem (s : State) (f : Mem → Mem) : State := { s with mem := f s.mem }
/-- A completion for the read `m`: its whole data. -/
def cplFor (m : MRead) : Cpl :=
  { tag := BitVec.ofNat 8 (m.tag.getD 0), ridOk := true, status := .sc, ep := false, byteCount := m.bytes, lowerAddr := BitVec.ofNat 7 m.addr,
    data := List.replicate m.bytes 0, header := [] }
/-- The granule read of a demand fill is outstanding; the codeblock has come. -/
def granuleLeft : State :=
  { reading with mem := { reading.mem with reads := reading.mem.reads.drop 1 }, cch := { reading.cch with
      handlers := reading.cch.handlers.map fun h => { h with cbData := some 0 } } }
def stray : Cpl := { tag := 5, ridOk := true, status := .sc, ep := false, byteCount := 64, lowerAddr := 0, data := [], header := [] }

theorem witness_PoolReadCompletions :
    ((run.undef = none ∧ run.pwr.phase = .on ∧ run.mem.dlUp = true) ∧ matching run stray = none) ∧
    (match reading.mem.reads with
      | [m, g] => decide (matching reading (cplFor m) = some m ∧ m.quar = false ∧ ownerIsFlush m.owner = false ∧ cplCode m (cplFor m) = 0 ∧
          cplCode m { cplFor m with data := List.replicate 64 0 } = 0 ∧ m.got.length + 64 < m.bytes ∧ cplCode m { cplFor m with status := .crs } ≠ 0) &&
          (let s := withMem reading fun x => { x with reads := [{ m with quar := true }, g] }
           decide (matching s (cplFor m) = some { m with quar := true } ∧ m.bytes ≤ m.got.length + (cplFor m).data.length))
      | _ => false) = true ∧
    (match granuleLeft.mem.reads with
      | [m] => decide (m.quar = false ∧ m.owner = .handler 8 true ∧ matching granuleLeft (cplFor m) = some m ∧ cplCode m (cplFor m) = 0 ∧
          m.got.length + (cplFor m).data.length = m.bytes) &&
          (match getHandler granuleLeft 8 with | some h => decide (h.dev = none ∧ h.cbData = some 0 ∧ h.kind = .demand) | none => false)
      | _ => false) = true := by decide

def recovering (r : Recovery) (up : Bool) : State :=
  withMem run fun m => { m with recov := r, dlUp := up, cause := 1, retryDue := true, reads :=
    [{ owner := .probe, tag := some 16, addr := 4096, bytes := 0, got := [], cls := 1, quar := false, lost := false }] }

theorem witness_TimeoutsAndLinkRecovery :
    ((match reading.mem.reads.head? with
        | some m => decide (reading.mem.reads.find? (fun x => x.tag == some (16 : BitVec 8).toNat && !x.quar) = some m ∧ m.owner ≠ .probe)
        | none => false) = true ∧ reading.undef = none ∧ reading.pwr.phase = .on) ∧
    ((recovering .training false).undef = none ∧ (recovering .training false).pwr.phase = .on ∧ (recovering .training false).mem.recov = .training ∧
      (recovering .training false).mem.dlUp = false) ∧
    (match (recovering .probing true).mem.reads with
      | [m] => decide ((recovering .probing true).mem.reads.find? (fun x => x.owner == .probe && !x.quar) = some m ∧ (zeroCpl m).ridOk = true ∧
          m.tag = some (zeroCpl m).tag.toNat ∧ zeroLenOk m (zeroCpl m) = true ∧ zeroLenOk m { zeroCpl m with ep := true } = false)
      | _ => false) = true ∧
    (let s : State := { recovering .idle true with err := { run.err with fPoolDown := true } }
     s.undef = none ∧ s.pwr.phase = .on ∧ s.mem.retryDue = true ∧ s.err.fPoolDown = true ∧ s.mem.recov = .idle ∧ linkEn s = true) ∧
    ((recovering .idle true).err.fPoolDown = false ∧ (recovering .idle true).mem.retryDue = true) := by decide

theorem witness_DataLinkLayer : run.up ∧ run.mem.dlUp = true ∧
    ((recovering .training false).undef = none ∧ (recovering .training false).pwr.phase = .on ∧ (recovering .training false).pwr.st ≠ .offrdy ∧
      trainDue (recovering .training false) = true ∧ freeTagFor (recovering .training false) .probe = some 17) ∧
    (let s := withRegs run [(0x8010, 0x10000)]
     s.undef = none ∧ s.pwr.phase = .on ∧ (reg s 0x8010).getLsbD 16 = true ∧ s.mem.reads = [] ∧ s.mem.cfgBusy = false ∧ s.mem.recov = .idle ∧
       s.mem.dlUp = true ∧ s.mem.pstate = 0) := ⟨run_up, rfl, by decide⟩

theorem witness_LinkControlAndConfiguration : run.up ∧ run.sound ∧ run.mem.dlUp = true ∧
    ((0xC0000000 : Reg32).getLsbD 28 = false ∧ (0xC0000000 : Reg32).getLsbD 29 = false ∧ (0x40000000 : Reg32).getLsbD 31 = false ∧
      (reg run 0x8014).getLsbD 31 = true ∧ run.mem.recov = .idle) ∧
    ((0x8000010F : Reg32).getLsbD 31 = true ∧ run.mem.cfgBusy = false ∧ (withMem run fun m => { m with cfgBusy := true, cfgRead := true, cfgTag := some 16 }).mem.cfgTag.isSome = true) ∧
    (readyRow run 0 0x8014 0xC0000000 = true ∧ readyRow run 0 0x8014 0x40000000 = true ∧ readyRow run 0 0x8014 (linkAction run 28) = true ∧
      readyRow run 0 0x8014 (linkAction run 29) = true ∧ readyRow run 0 0x8024 0x8000010F = true ∧
      readyRow (withMem run fun m => { m with cfgBusy := true }) 0 0x8024 0x8000010F = true ∧ ∃ tag ∈ sharedTags, tagUsed run tag = false) :=
  ⟨run_up, run_sound, rfl, by decide⟩

theorem witness_LinkErrorsAndBridgeRequests : run.up ∧ linkEn run = true ∧ run.mem.dlUp = true ∧ (corBit .receiver).isSome = true ∧
    corBit .surpriseDown = none ∧ corBit .flowControl = none ∧ asleep.undef = none ∧ asleep.pwr.phase = .sleep :=
  ⟨run_up, by decide⟩

/-! ### Witnesses: the command engine -/

def withEng (s : State) (f : Eng → Eng) : State := { s with eng := f s.eng }
def withRing (s : State) (n : Nat) (f : Ring → Ring) : State := updRing s n f
/-- The engine runs. -/
def engine : State := withEng caching fun e => { e with en := true, starts := true }
/-- A read of agent 0 that is not performed. -/
def behind (s : State) : State := withReqs s reading.bus.reqs

theorem witness_EngineRegisters :
    (run.up ∧ run.sound ∧ (∀ n : Fin 4, readyRow run 0 (0x5110 + 4 * n.val) 3 = true) ∧ ringSize run 0 ≠ 0 ∧ ringSize run 1 = 0) ∧
    ((behind run).undef = none ∧ rowOpen (behind run) 0 = true ∧ rowFree (behind run) (rowWrite (behind run) 0 0x5110 3) = false ∧
      rowOpen (withRegs run []) 0 = false) ∧
    ((1 : Reg32).getLsbD 0 = true ∧ readyRow run 0 0x5100 1 = true ∧ ringSize (regPut run 0x5048 0) 4 = 0 ∧
      readyRow (regPut run 0x5048 0) 0 0x5100 1 = true ∧ readyRow run 0 0x5100 (ctrlValue run 15 8) = true ∧
      readyRow run 0 0x5100 (ctrlValue run 15 4) = true ∧ readyRow run 0 0x5130 3 = true ∧ readyRow run 0 0x5138 3 = true ∧
      readyRow run 0 0x510C 0x40000000 = true) ∧
    (let s : State := { run with cfg := { run.cfg with unlocked := some 0 } }
     s.undef = none ∧ s.pwr.phase = .on ∧ soundB s = true ∧ s.cfg.unlocked = some (0 : Fin 8).val ∧ s.eng.en = false ∧
       readyRow s 0 0x5058 15 = true ∧ readyRow { s with eng := { s.eng with en := true } } 0 0x5000 0 = true) ∧
    engine.eng.en = true ∧ (3 < ringSize run 4 ∧ (3 + ringSize run 4 - 0) % ringSize run 4 ≤ (5 + ringSize run 4 - 0) % ringSize run 4) :=
  ⟨⟨run_up, run_sound, by decide, by decide, by decide⟩, by decide⟩

/-- A command of 4 units at address 0x1000, on ring 0 with buffer and walker. -/
def command (op : Nat) : Running :=
  { opcode := op, irq := true, fence := false, wmask := false, repair := false, cmdId := 7, addr := 0x1000, len := 0x800, ways := 1, param := 0,
    region := 0, attr := 0x800000F8, pool := 0x1000, total := 4, issued := 0, doneN := 0, waiting := [], count0 := 0, count1 := 0, errAddr := none,
    stop := none, stuckQt := 0, progQt := 0, progDone := 0, keyed := false, redo := [], user := 0, src := 0, req := none, got := [],
    image := none, skip := false, final := false, good := false, begun := false, num := 0 }
def runs (s : State) (x : Running) : State :=
  withEng (withRing s 0 fun r => { r with run := some x }) fun e => { e with buffer := some 0, walker := some 0 }
def meetsUp (s : State) : Bool := s.undef.isNone && s.pwr.phase == .on && soundB s

/-- A descriptor read is due; it has been issued; its data is there, or failed. -/
def accepting : State := withRing engine 0 fun r => { r with pend := 1, acc := 1 }
def described (fail : Nat) : State :=
  let s := after (.descriptorRead 0) accepting
  withBus s fun b => { b with reqs := b.reqs.map fun q => { q with phase := .done, fail := fail } }
def entry : CEntry :=
  { typ := 3, ring := 0, opcode := 0, status := 0, cmdId := 7, accTail := 1, pct := 1024, next := 0, count0 := 0, count1 := 0, errAddr := 0,
    tick := 0, final := true, irq := false, durable := true }
def entries (tail : Nat) : State := withEng engine fun e => { e with cents := [entry], cqTail := tail }
def eventsWait (tail : Nat) : State :=
  withEng engine fun e => { e with events := [{ block := 0, code := 4, tick := 0, payload := 0 }], eqTail := tail }
/-- The base registers of the rings name no region. -/
def lostRings (s : State) : State :=
  regPut (regPut (regPut s 0x5004 0x6000) 0x5044 0x6000) 0x5054 0x6000

theorem witness_DescriptorsAndEntries :
    (meetsUp accepting = true ∧ descDue accepting 0 = true ∧ (engDecode accepting .read (ringBase accepting 0 + 64 * (getRing accepting 0).head)).isSome = true ∧
      meetsUp (lostRings accepting) = true ∧
      (let s := lostRings accepting
       descDue s 0 = true ∧ engDecode s .read (ringBase s 0 + 64 * (getRing s 0).head) = none)) ∧
    (meetsUp (described 0) = true ∧ (match descDone (described 0) 0 with | some r => r.fail == 0 | none => false) = true ∧
      meetsUp (described 2) = true ∧ (match descDone (described 2) 0 with | some r => r.fail == 2 | none => false) = true) ∧
    (meetsUp (entries 15) = true ∧ entriesOpen (entries 15) = true ∧ entriesOpen (eventsWait 0) = true ∧ probesOwed (entries 0) entry = false ∧ cqFree (entries 15) = 0 ∧ cqFree (entries 0) ≠ 0 ∧ (storeQueue (entries 0) 12).length < 8 ∧
      (engDecode (entries 0) .write (ringBase (entries 0) 4 + 64 * (entries 0).eng.cqTail)).isSome = true ∧
      cqFree (lostRings (entries 0)) ≠ 0 ∧ meetsUp (lostRings (entries 0)) = true ∧
      engDecode (lostRings (entries 0)) .write (ringBase (lostRings (entries 0)) 4 + 64 * (entries 0).eng.cqTail) = none ∧
      cqFree (withEng (entries 15) fun e => { e with cqHead := 3 }) ≠ 0) ∧
    (meetsUp (eventsWait 0) = true ∧ (eventsWait 0).eng.marker = false ∧ 2 ≤ eqFree (eventsWait 0) ∧ 2 ≤ eqFree (eventsWait 13) ∧
      eqFree (eventsWait 14) < 2 ∧ (storeQueue (eventsWait 0) 12).length < 8 ∧ (eventsWait 0).eng.eqLost = 0 ∧
      (engDecode (eventsWait 0) .write (ringBase (eventsWait 0) 5 + 64 * (eventsWait 0).eng.eqTail)).isSome = true ∧ eqFree (eventsWait 14) ≠ 0) := by decide

/-- The last unit of the walk, and the one before it. -/
theorem witness_TagWalkCommands :
    (meetsUp (runs engine (command 0)) = true ∧ (stepDue (runs engine (command 0)) 0 0).isSome = true) ∧
    (let x : Running := { command 1 with doneN := 32767 }
     let s := runs engine x
     meetsUp s = true ∧ stepDue s 0 1 = some x ∧ x.doneN < 32768 ∧ (turn s (.step 0) 1).map (·.2) = some 1 ∧ 1 = min 1 (32768 - x.doneN) ∧ 64 * x.doneN ≤ s.cch.known ∧ x.doneN + 1 = 32768 ∧
       probeRoom s (attachedAgents s) = true) ∧
    (let x : Running := { command 5 with doneN := 32766 }
     let s := runs engine x
     meetsUp s = true ∧ stepDue s 0 5 = some x ∧ (turn s (.step 0) 1).map (·.2) = some 1 ∧ 1 = min 1 (32768 - x.doneN) ∧
       64 * (x.doneN + 1) ≤ s.cch.known) ∧
    (let s := runs (cached engine) (command 5)
     meetsUp s = true ∧ stepDue s 0 5 = some (command 5) ∧ (turn s (.step 0) 3).map (·.2) = some 3 ∧ 3 = min 3 (32768 - 0) ∧
       (walk (updRun (dropRecent s (0x1000, 0x1800)) 0 fun x => { x with begun := true }) 0 192 (fun cb => inPool (0x1000, 0x1800) (cb * 512)) { ring := some 0 }).room = true ∧
       valid (tagAt s 128) = true) := by decide

/-- Hit, miss with room, not looked up, no region; an unlocked way within LOCK_MAX and beyond it; a way outside the mask. -/
theorem witness_PreloadAndLockCommands :
    (let x := command 2
     let hit := runs (cached engine) x
     let miss := runs engine x
     let off := runs (withEng run fun e => { e with en := true, starts := true }) x
     let none' := runs (withRegs engine []) x
     (∀ s ∈ [hit, miss, off, none'], meetsUp s = true ∧ stepDue s 0 2 = some x ∧ reentry s 0 x = none ∧ x.issued < x.total ∧
       (turn s (.step 0) 1).isSome = true) ∧
       unitBlock none' x 0 = none ∧ unitBlock hit x 0 = some (0x800000F8, 8) ∧ unitBlock miss x 0 = some (0x800000F8, 8) ∧ unitBlock off x 0 = some (0x800000F8, 8) ∧
       lookable off (attrCacheable 0x800000F8) 8 = false ∧ lookable hit (attrCacheable 0x800000F8) 8 = true ∧ lookup hit 8 0xFF = .hit 0 ∧
       posOf hit (setOf hit 8) 0 < hit.cch.known ∧ lookup miss 8 0xFF = .miss ∧ fillOf miss 8 = none ∧ fillRoom (admitUnit miss 0 0 0x800000F8).1 8 false none = true ∧ unitHandlers miss 0 < mhMax miss ∧
       (pickHandler (admitUnit miss 0 0 0x800000F8).1 (admitUnit miss 0 0 0x800000F8).2).isSome = true ∧ miss.err.fPoolDown = false) ∧
    (let x := command 3
     let s := runs (cached engine) x
     let y : Running := { command 4 with ways := 2 }
     let full := runs (regPut (cached engine) 0x2110 0) x
     meetsUp s = true ∧ meetsUp full = true ∧ stepDue s 0 3 = some x ∧ unitBlock s x 0 = some (0x800000F8, 8) ∧ clearingDue s 8 = false ∧ lookup s 8 0 = .hit 0 ∧ (turn s (.step 0) 1).isSome = true ∧
       (turn full (.step 0) 1).isSome = true ∧ (turn (runs (cached engine) y) (.step 0) 1).isSome = true ∧
       (tagAt s 128).lock = false ∧ lockedWays s (setOf s 8) + 1 ≤ lockMax s ∧ lockMax full < lockedWays full (setOf full 8) + 1 ∧ stepDue full 0 3 = some x ∧
       stepDue (runs (cached engine) y) 0 4 = some y ∧ y.ways.getLsbD 0 = false ∧ lookup (runs engine x) 8 0 = .miss) := by decide

/-- VERIFY has read its first codeblock. -/
def arrived (f : Nat) : State :=
  let s := after (.verify 0) (runs engine (command 7))
  { s with mem := { s.mem with reads := [] }, cch := { s.cch with handlers := s.cch.handlers.map fun h => { h with data := some (0, f) } } }

theorem witness_RestrengthAndVerify :
    (let x := command 6
     let w : Window := { region := 0, old := 0, new := 3, first := 8, cbs := 4, converted := [], busy := [] }
     let s := withEng (runs engine x) fun e => { e with window := some w }
     meetsUp s = true ∧ stepDue s 0 6 = some x ∧ x.issued < x.total ∧ unitBlock s x 0 = some (0x800000F8, 8) ∧ s.eng.window = some w ∧
       (turn s (.step 0) 1).isSome = true ∧ rewriteRoom s 8 (admitUnit s 0 0 0x800000F8).2 = true ∧ windowBusy s 8 = false) ∧
    (let x := command 7
     let s := runs engine x
     meetsUp s = true ∧ stepDue s 0 7 = some x ∧ x.issued < x.total ∧ unitBlock s x 0 = some (0x800000F8, 8) ∧ s.wrb.slots = [] ∧ windowBusy s 8 = false ∧
       unitHandlers s 0 < mhMax s ∧ (turn s (.step 0) 1).isSome = true ∧
       (pickHandler (admitUnit s 0 0 0x800000F8).1 (admitUnit s 0 0 0x800000F8).2).isSome = true) ∧
    (∀ f ∈ [0, 1], meetsUp (arrived f) = true ∧ (match getRun (arrived f) 0, (arrived f).cch.handlers with
        | some x, [h] => decide (x.opcode = 7 ∧ x.repair = false ∧ x.got = [] ∧ (arrived f).wrb.entries = [] ∧ f ≠ 2 ∧ h.kind = .unit 0 0 ∧ h.data = some (0, f))
        | _, _ => false) = true) := by decide

/-- The last two units of a save; a save that fetches user bytes; the sixteenth Scree unit of a load. -/
theorem witness_VaultCommands :
    (let img : BitVec 65536 := 0
     let x (k : Nat) : Running := { command 8 with image := some (7, img), doneN := k, total := 32 }
     ∀ k ∈ [30, 31], meetsUp (runs engine (x k)) = true ∧ stepDue (runs engine (x k)) 0 8 = some (x k) ∧ (x k).req = none ∧ (x k).param.getLsbD 3 = false) ∧
    (let x : Running := { command 8 with param := 8, total := 32 }
     stepDue (runs engine x) 0 8 = some x ∧ x.param.getLsbD 3 = true ∧ x.src < x.len ∧ (engDecode (runs engine x) .read (x.addr + x.src)).isSome = true) ∧
    (let x : Running := { command 9 with param := 4, image := some (0, 0), doneN := 15, total := 16 }
     let s := runs { engine with vlt := { engine.vlt with valid := 1, slots := BitVec.ofNat 65536 (4 * 2 ^ 64) :: List.replicate 7 0 } } x
     meetsUp s = true ∧ stepDue s 0 9 = some x ∧ x.req = none ∧ x.src = 0 ∧ x.param.getLsbD 2 = true ∧ newestWith s 2 = some 0) := by decide

/-- A save's last unit changes its slot. -/
theorem test_vault_slot : (let s := runs engine { command 8 with image := some (7, 1), doneN := 31, total := 32 }
     slotAt (after (.vaultSave 0) s) 7 ≠ slotAt s 7) := by decide

def epoch (s : State) (started : Bool) (page : Option Block) (decided : Option Outcome3) : State :=
  withEng (runs s (command 10)) fun e => { e with
    epoch := some { ring := 0, started := started, page := List.replicate 8 page, failed := false, decided := decided, epochV := 9, units := 0 } }

theorem witness_WakeEpochSteps :
    (let s := epoch engine false none none
     meetsUp s = true ∧ (match epochOf s (.ring 0) with | some e => e.started == false | none => false) = true ∧ holds s 0 false = true ∧
       s.mem.dlUp = true ∧ s.mem.pstate = 0 ∧ s.err.fPoolDown = false) ∧
    (let s := epoch engine true (some 0) none
     meetsUp s = true ∧ (match epochOf s (.ring 0) with | some e => e.started && e.decided.isNone && pageOver s e | none => false) = true) ∧
    (let s := epoch engine true (some 0) (some .none)
     meetsUp s = true ∧ (match epochOf s (.ring 0) with | some e => e.started && e.decided.isSome && epochOver e | none => false) = true ∧
       s.prb.probes = []) := by decide

/-! ### Witnesses: registers -/

def unlocked (s : State) : State := { s with cfg := { s.cfg with unlocked := some 0 } }
/-- A store of agent 0 waits before it. -/
def withWait (s : State) : State := withReqs s stored.bus.reqs
def busyDomains : State := { run with pwr := { run.pwr with busyPhy := true, busyBr := true } }

/-- The low half of a counter at a multiple of 8. -/
theorem witness_CountersReadWhole : isCounter 0x4800 = true ∧ 0x4800 % 8 = 0 := by decide

theorem witness_RegisterReads : isMember 0x0000 = true ∧ isMember 0xE010 = true ∧ (0xF280 ≤ 0xFFFC ∧ 0xFFFC < 0x10000) ∧ run.cfg.parBad = [] ∧
    (let q : Req := { blankReq (ten (head 0 0 0 2 0 0x0 0xFFFFFFF80000) []) .read 0 with target := .window 0 }
     let s := withReqs run [q]
     getReq s 0 = some q ∧ responded s q = false ∧ q.who < 12 ∧ silenced s q.who = false) := by decide

theorem witness_RegisterWrites : run.up ∧ run.sound ∧ (∀ off ∈ [0x2114, 0xA010, 0xE004], readyRow run 0 off 5 = true) ∧
    (unlocked run).cfg.unlocked = some (0 : Fin 8).val ∧ (∀ off ∈ [0x1000, 0x4008, 0xB004], readyRow (unlocked run) 0 off 5 = true) ∧ readyRow run 0 0xB004 5 = true ∧
    (rowOpen (withWait run) 0 = true ∧ rowFree (withWait run) (rowWrite (withWait run) 0 0x2114 5) = false ∧ rowOpen (withRegs run []) 0 = false) ∧ (0xB004 % 4 = 0 ∧ isKeyed 0xB004 = true) ∧
    run.cfg.unlocked ≠ some (0 : Fin 8).val ∧ (0xEFFC < 0xF000 ∧ storedRow 0xEFFC = none) := ⟨run_up, run_sound, by decide⟩

theorem witness_KeyReferenceAndClears : run.up ∧ (0 : Reg32) ≠ 0x0000C3A5 ∧
    (readyRow run 0 0xD000 0xC3A5 = true ∧ readyRow run 0 0xD000 0 = true ∧ readyRow run 0 0xD010 5 = true ∧
      readyRow run 0 0x700C (word [(8, (15 : BitVec 4).toNat)]) = true ∧ readyRow run 7 0x7070 0x80000000 = true ∧
      readyRow (unlocked run) 0 0x7070 0x80000000 = true ∧ readyRow (unlocked caching) 0 0x7070 0x80000000 = true) ∧ run.cfg.unlocked ≠ some (7 : Fin 8).val ∧
    ((unlocked run).cch.enabled = false ∧ (unlocked caching).cch.enabled = true) := ⟨run_up, by decide⟩

/-- A SEQ that matches and one that does not; a write of the block changes a holding copy by SNAP. -/
theorem witness_SnapshotsWriteBacksAliases : run.up ∧ (isRsq 0x0014 = true ∧ fld (regRead0 run 0x0014) 31 24 = fld (0 : Reg32) 31 24 ∧
      fld (regRead0 run 0x0014) 31 24 ≠ fld (0x01000000 : Reg32) 31 24) ∧ (4 < 5 ∧ 31 < 32) ∧ 863 < 864 ∧
    (readyRow run 0 0xD00C 0x80000000 = true ∧ readyRow run 0 0xD00C 0xC0000000 = true ∧ readyRow run 0 0x0014 0 = true ∧
      readyRow run 0 0x0014 0x01000000 = true ∧ readyRow run 0 (0xF000 + 128 * 4 + 4 * 31) 1 = true ∧ readyRow run 0 (0xF280 + 4 * 863) 1 = true) ∧
    (let s := atTick run 9
     exec (.snap 0) s = .next (after (.snap 0) s) ∧ held (after (.snap 0) s) cntTick ≠ held s cntTick) := ⟨run_up, by decide, by decide, by decide, by decide, rfl, by decide⟩

theorem witness_PostedWrites : run.up ∧ run.pwr.busyPhy = false ∧ run.pwr.busyBr = false ∧ busyDomains.up ∧ busyDomains.pwr.busyPhy = true ∧
    busyDomains.pwr.busyBr = true ∧ run.cch.enabled = false ∧ caching.up ∧ caching.cch.enabled = true ∧ caching.pwr.busyBr = false ∧
    (∀ s ∈ [run, busyDomains, caching], ∀ off ∈ [0xE010, 0xB008, 0x8030, 0x8034], readyRow s 0 off 5 = true) :=
  ⟨run_up, rfl, rfl, ⟨rfl, rfl⟩, rfl, rfl, rfl, ⟨rfl, rfl⟩, rfl, rfl, by decide⟩

/-! ### Witnesses: power and test -/

def entryAt (step : EStep) (off : Bool) : State :=
  { run with pwr := { run.pwr with st := if off then .preparing else .entering,
                                   entry := some { off := off, step := step, ticks := 65535, flushed := true } } }

theorem witness_SleepAndOffRequests : run.up ∧ run.pwr.entry = none ∧ run.pwr.st = .run ∧ run.eng.en = false ∧
    (∀ r ∈ run.eng.rings.take 4, r.run = none ∧ r.pend = r.acc) ∧ (readyRow run 0 0xB000 0x80000000 = true ∧ readyRow run 0 0xB000 0x40000000 = true) ∧
    (let s : State := { run with pwr := { run.pwr with entry := some { off := true, step := .armed, ticks := 0, flushed := false } } }
     s.undef = none ∧ s.pwr.phase = .on ∧ readyRow s 0 0xB000 0x80000000 = true ∧ readyRow s 0 0xB000 0x40000000 = true) ∧
    (let s := locked (entryAt .e2 false)
     s.undef = none ∧ s.pwr.phase = .on ∧ s.pwr.st ≠ .run ∧ readyRow s 0 0xB000 0x80000000 = true ∧ readyRow s 0 0xB000 0x40000000 = true) ∧
    (engine.up ∧ engine.pwr.entry = none ∧ engine.pwr.st = .run ∧ engine.eng.en = true ∧ readyRow engine 0 0xB000 0x80000000 = true ∧
      readyRow engine 0 0xB000 0x40000000 = true) :=
  ⟨run_up, rfl, rfl, rfl, by decide, by decide, by decide, by decide, ⟨rfl, rfl⟩, by decide⟩

theorem witness_SleepEntrySteps :
    (let s := entryAt .armed false
     s.undef = none ∧ s.pwr.phase = .on ∧ s.qtk.running = true ∧ s.qtk.syncIn = false ∧ s.tst.busy = false) ∧
    (quietE2 (entryAt .e2 false) = true ∧ entriesOut (entryAt .e2 false) = true ∧ (entryAt .e2 false).undef = none) ∧
    ({ entryAt .e2 false with bus := stored.bus } : State).bus.reqs ≠ [] ∧
    (drained ({ entryAt .e3 false with wrb := merged.wrb } : State) = false ∧ quietE2 (entryAt .e3 false) = true ∧ drained (entryAt .e3 false) = true ∧ (entryAt .e3 false).csp.accs = [] ∧
      slotFree (entryAt .e3 false) true = true) ∧
    ((∀ m ∈ (entryAt .e3flush false).mem.reads, m.quar = false) ∧
      ∃ m ∈ (withMem (entryAt .e3flush false) fun m => { m with reads := [{ owner := .probe, tag := some 16, addr := 0, bytes := 512, got := [], cls := 1,
                                                                             quar := true, lost := false }] }).mem.reads, m.quar = true) ∧
    (entryTmo (entryAt .e3 true) ≤ 65535 ∧ EStep.e3 ≠ .armed ∧ EStep.e3 ≠ .turnOff) := by decide

theorem witness_SleepAndOffReady :
    ((entryAt .e4 false).undef = none ∧ (entryAt .e4 false).pwr.phase = .on ∧ portIdle (entryAt .e4 false) = true ∧ quietE2 (entryAt .e4 false) = true ∧ drained (entryAt .e4 false) = true ∧ (entryAt .e4 false).pwr.latchWake = false) ∧
    (asleep.undef = none ∧ asleep.pwr.phase = .sleep) ∧
    ((entryAt .e3flush true).undef = none ∧ (entryAt .e3flush true).pwr.phase = .on ∧ screeUnsaved (entryAt .e3flush true) = false ∧
      (entryAt .e3flush true).mem.dlUp = true ∧ (withMem (entryAt .e3flush true) fun m => { m with dlUp := false }).mem.dlUp = false) ∧
    ((entryAt .turnOff true).undef = none ∧ (entryAt .turnOff true).pwr.phase = .on) := by decide

theorem witness_WakeBegins : asleep.undef = none ∧ asleep.pwr.phase = .sleep ∧ (entryAt .e2 false).up ∧ (entryAt .e2 false).pwr.st = .entering ∧
    run.up ∧ run.pwr.st ≠ .entering := ⟨rfl, rfl, ⟨rfl, rfl⟩, rfl, run_up, by decide⟩

/-- The wake's own WAKE_EPOCH, decided and walked. -/
def ownRun : State :=
  let s := waking true true true true
  let x : Running := { command 10 with doneN := 8 }
  withEng (withRing s 4 fun r => { r with run := some x }) fun e => { e with
    en := true, buffer := some 4, walker := some 4
    epoch := some { ring := 4, started := true, page := List.replicate 8 (some 0), failed := true, decided := some .full, epochV := 0, units := 0 } }

theorem witness_WakeEnds :
    (let s : State := { waking false true false false with clk := { run.clk with lock := false, relocking := true, trigger := 2 } }
     s.undef = none ∧ s.pwr.phase = .on ∧ s.clk.relocking = true ∧ s.clk.xoOk = true) ∧
    (meetsUp (waking true true false false) = true ∧ (waking true true false false).mem.dlUp = true ∧ (waking true true false false).err.fPoolDown = false) ∧
    (let s := waking true true true true
     meetsUp s = true ∧ s.pwr.wake = some ⟨true, true, true, true, .none⟩ ∧ s.pwr.c0Rdy = false) ∧
    (meetsUp ownRun = true ∧ (ownEpoch ownRun).isSome = true ∧ (getRun ownRun 4).isSome = true ∧
      fullDue { ownRun with pwr := { ownRun.pwr with c0Rdy := true } } = true) ∧
    (run.undef = none ∧ run.pwr.phase = .on ∧ run.pwr.wake = none) := by decide

/-- The TAP stands in Run-Test/Idle with an instruction in force. -/
def tapAt (i : TapInstr) : State := { run with tst := { run.tst with tap := { run.tst.tap with st := .runTestIdle, instr := i } } }

/-- A scan brings each instruction into force, by its opcode; one cycle keeps it. -/
theorem witness_TapInstructions : run.undef = none ∧ tapOn run = true ∧ asleep.undef = none ∧ asleep.pwr.phase = .sleep ∧
    ((0xFF : BitVec 8) ∉ ([0x00, 0x01, 0x02, 0x03, 0x04, 0x05, 0x06, 0x20] : List (BitVec 8))) ∧
    (∀ p ∈ [(0, TapInstr.extest), (1, .sample), (2, .idcode), (3, .highz), (4, .clamp), (5, .pulse), (6, .train), (0x20, .mbist), (7, .bypass)],
      inForce p.2 (tapRun (tapAt .idcode) (tck (irScan (BitVec.ofNat 8 p.1)))) = true) ∧
    inForce .extest (tapRun (tapAt .idcode) (tck [])) = false ∧ (tapAt .idcode).tst.tap.st = .runTestIdle ∧ tapActs (tapAt .idcode) = .idcode ∧
    tapReg (tapActs (tapAt .highz)) = .bypass ∧ tapReg (tapActs (tapAt .train)) = .boundary ∧
    tapActs (regPut (tapAt .mbist) 0xE000 1) = .bypass ∧ ({ run with undef := some .r414 } : State).undef = some .r414 := by decide

/-- The boundary cells are numbered 0 to 1,111 (18 R418). -/
theorem test_cells : (cellOf 1111).isSome = true ∧ (cellOf 1112).isSome = false := by decide

theorem witness_MbistRuns : run.up ∧ rowReady run (0 : Fin 8) 0xE008 0x80000000 ∧
    ((tapAt .mbist).up ∧ (tapAt .mbist).tst.tap.st = .runTestIdle ∧ tapActs (tapAt .mbist) = .mbist ∧ (0x80000001 : BitVec 32).getLsbD 31 = true) ∧ run.tst.busy = false ∧
    (let s : State := { run with tst := { run.tst with busy := true, tested := 0x101 } }
     s.undef = none ∧ s.pwr.phase = .on ∧ s.tst.busy = true ∧ quietE2 s = true ∧ drained s = true ∧ s.tst.tested.getLsbD 0 = true ∧ s.tst.tested.getLsbD 8 = true) :=
  ⟨run_up, ready_of (by decide), ⟨⟨rfl, rfl⟩, by decide⟩, by decide⟩

/-! ### A few results -/

/-- A read, its data, and its response: the bytes of the pool, header first (02 R53). -/
theorem test_read_answers : (let s := filled
     ((after (.fillInstall 8) s).bus.resps.map fun r => (r.who, r.rsp, r.beats.length)) = [(0, .ok, 8)]) := by decide

end Sys2Proof.Tests
end

/-! SUPPORT. Proofs of the statements of `00_scope.md`: every step keeps the state sound, what makes the behaviour undefined, and register
writes. -/

namespace Sys2Proof.Machine
set_option Elab.async false

/-! ## What each command may change -/

/-- The parts of `Part` that a register write may change: those that some register acts on. -/
def regWriteChanges (p : Part) : Bool := match p with | .regs | .tick | .clk | .sync | .undef => true | _ => false

/-- The parts that a run of TCK may change: scanning a pin-control instruction breaks an obligation (18 R414). -/
def tapChanges (p : Part) : Bool := match p with | .tap | .undef => true | _ => false

/-- The parts that a command may change which is neither a register write of a row of its own nor one of the TAP's. -/
def ownChanges (c : Instr) (p : Part) : Bool :=
  match c with
  | .storeRetirement _ _ => regWriteChanges p
  | .porstNAssert | .bedrockSupplyLoss | .suppliesRemoved => match p with | .slots => false | _ => true
  | .coldReset _ => match p with | .phase | .undef => true | _ => false
  | .xoStable => match p with | .phase | .clk => true | _ => false
  | .relockComplete => match p with | .phase | .regs | .tick | .clk | .sync | .rate => true | _ => false
  | .tickBoundary _ | .syncEdge _ _ _ | .syncLoss _ => match p with | .tick | .clk | .sync | .rate => true | _ => false
  | .lockMonitorWindow _ | .driftWindow _ | .syncMeasRunEnd _ | .crystalStop => match p with | .clk => true | _ => false
  | .configCompletion _ | .wakeEpoch _ _ | .fullReady _ => match p with | .regs => true | _ => false
  | .vaultSave _ | .sleepEntry => match p with | .slots => true | _ => false
  | .linkL12Reached => match p with | .phase | .tap | .clk | .sync => true | _ => false
  | .wakeReq => match p with | .phase | .tap | .clk => true | _ => false
  | _ => false

/-- Command `c` may change part `p`. -/
def mayChange (c : Instr) (p : Part) : Bool :=
  (writesRegister c && regWriteChanges p) || (tapCommand c && tapChanges p) || ownChanges c p

/-- What any command keeps: every part but the ones it may change, with a sound state staying sound. -/
theorem exec_calm {c : Instr} {s t : State} (h : exec c s = .next t) : Calm (mayChange c · = false) s t := by
  cases c
  case' porstNAssert => apply execPorstNAssert_calm h
  case' coldReset => apply execColdReset_calm _ h
  case' xoStable => apply execXoStable_calm h
  case' relockComplete => apply execRelockComplete_calm h
  case' lockMonitorWindow => apply execLockMonitorWindow_calm _ h
  case' relock => apply execRelock_calm _ h
  case' refback => apply execRefback_calm _ h
  case' driftWindow => apply execDriftWindow_calm _ h
  case' syncMeasRunEnd => apply execSyncMeasRunEnd_calm _ h
  case' crystalStop => apply execCrystalStop_calm h
  case' tickBoundary => apply execTickBoundary_calm _ h
  case' syncEdge => apply execSyncEdge_calm _ _ _ h
  case' syncLoss => apply execSyncLoss_calm _ h
  case grant => exact execGrant_calm _ _ _ h
  case read => exact execRead_calm _ h
  case readFetch => exact execReadFetch_calm _ h
  case readSpec => exact execReadSpec_calm _ h
  case write => exact execWrite_calm _ h
  case writeNt => exact execWriteNt_calm _ h
  case lockRead => exact execLockRead_calm _ h
  case lockWrite => exact execLockWrite_calm _ h
  case lockAbort => exact execLockAbort_calm _ h
  case atomic => exact execAtomic_calm _ h
  case watch => exact execWatch_calm _ h
  case barrier => exact execBarrier_calm _ h
  case avldOutOfTenure => exact execAvldOutOfTenure_calm _ h
  case responseTenure => exact execResponseTenure_calm _ _ _ _ h
  case resetSenseAssert => exact execResetSenseAssert_calm _ h
  case resetSenseDeassert => exact execResetSenseDeassert_calm _ h
  case' portDisable => apply execPortDisable_calm _ _ _ h
  case probeSend => exact execProbeSend_calm _ _ h
  case probeAck => exact execProbeAck_calm _ _ _ h
  case probeTimeout => exact execProbeTimeout_calm _ h
  case' prbRevive => apply execPrbRevive_calm _ _ h
  case missHandlerGrant => exact execMissHandlerGrant_calm h
  case poolReadCompletion => exact execPoolReadCompletion_calm _ _ h
  case fillInstall => exact execFillInstall_calm _ h
  case cacheStoreAccess => exact execCacheStoreAccess_calm _ h
  case cacheStoreReadDone => exact execCacheStoreReadDone_calm _ _ h
  case sectorClear => exact execSectorClear_calm h
  case tagSetClearing => exact execTagSetClearing_calm h
  case prefetchCandidate => exact execPrefetchCandidate_calm h
  case' storeRetirement => apply execStoreRetirement_calm _ _ h
  case atomicPerformingPass => exact execAtomicPerformingPass_calm _ h
  case mergeAgeMark => exact execMergeAgeMark_calm h
  case drainStart => exact execDrainStart_calm _ h
  case completionLookup => exact execCompletionLookup_calm _ h
  case drainWrite => exact execDrainWrite_calm _ _ h
  case flushRead => exact execFlushRead_calm h
  case flushReadDone => exact execFlushReadDone_calm _ h
  case lockTimeout => exact execLockTimeout_calm _ h
  case bucketLeak => exact execBucketLeak_calm _ h
  case suspectExpire => exact execSuspectExpire_calm h
  case screeRetirement => exact execScreeRetirement_calm h
  case completionTimeout => exact execCompletionTimeout_calm _ h
  case linkTrainTimeout => exact execLinkTrainTimeout_calm h
  case probeReadDone => exact execProbeReadDone_calm _ h
  case poolDownRetry => exact execPoolDownRetry_calm h
  case linkDown => exact execLinkDown_calm h
  case linkError => exact execLinkError_calm _ h
  case bridgeMessage => exact execBridgeMessage_calm _ _ h
  case assertIntx => exact execAssertIntx_calm h
  case deassertIntx => exact execDeassertIntx_calm h
  case bridgeRequest => exact execBridgeRequest_calm _ _ h
  case clkreqInSleep => exact execClkreqInSleep_calm h
  case aspmL1Entry => exact execAspmL1Entry_calm h
  case' configRequest => apply execConfigRequest_calm _ _ h
  case' configCompletion => apply execConfigCompletion_calm _ h
  case' linkEnable => apply execLinkEnable_calm _ _ h
  case' perstOff => apply execPerstOff_calm _ _ h
  case' retrain => apply execRetrain_calm _ _ _ h
  case' hotrst => apply execHotrst_calm _ h
  case pmeToAck => exact execPmeToAck_calm _ h
  case' cspInit => apply execCspInit_calm _ h
  case cspInitStepDone => exact execCspInitStepDone_calm _ h
  case ddrRefresh => exact execDdrRefresh_calm _ h
  case zqcs => exact execZqcs_calm _ h
  case ddrAlert => exact execDdrAlert_calm _ h
  case vddqLowInSleep => exact execVddqLowInSleep_calm h
  case' cmdSqDb => apply execCmdSqDb_calm _ _ _ h
  case descriptorRead => exact execDescriptorRead_calm _ h
  case descriptorReadDone => exact execDescriptorReadDone_calm _ h
  case completionEntryWrite => exact execCompletionEntryWrite_calm h
  case eventEntryWrite => exact execEventEntryWrite_calm h
  case commandUnitDone => exact execCommandUnitDone_calm _ _ h
  case nop => exact execNop_calm _ h
  case invalidateAll => exact execInvalidateAll_calm _ _ h
  case preload => exact execPreload_calm _ h
  case lockWays => exact execLockWays_calm _ h
  case unlockWays => exact execUnlockWays_calm _ h
  case regionDrop => exact execRegionDrop_calm _ _ h
  case restrength => exact execRestrength_calm _ h
  case verify => exact execVerify_calm _ h
  case' vaultSave => apply execVaultSave_calm _ h
  case vaultLoad => exact execVaultLoad_calm _ h
  case' wakeEpoch => apply execWakeEpoch_calm _ _ h
  case' cmdEnable => apply execCmdEnable_calm _ _ h
  case' abort => apply execAbort_calm _ _ h
  case' restart => apply execRestart_calm _ _ h
  case' cmdRingWrite => apply execCmdRingWrite_calm _ _ _ h
  case' ringHeadWrite => apply execRingHeadWrite_calm _ _ _ h
  case' rswClr => apply execRswClr_calm _ h
  case' cacheEnable => apply execCacheEnable_calm _ h
  case' cacheDisable => apply execCacheDisable_calm _ h
  case crcPassStart => exact execCrcPassStart_calm h
  case commitWindowExpire => exact execCommitWindowExpire_calm h
  case' cfgRefWrite => apply execCfgRefWrite_calm _ _ h
  case' keyUnlock => apply execKeyUnlock_calm _ _ h
  case keyLapse => exact execKeyLapse_calm h
  case' snap => apply execSnap_calm _ h
  case' snapClr => apply execSnapClr_calm _ h
  case' seqWriteBack => apply execSeqWriteBack_calm _ _ _ h
  case' bitAliasWrite => apply execBitAliasWrite_calm _ _ _ h
  case postedWriteTaken => exact execPostedWriteTaken_calm _ h
  case' registerWrite => apply execRegisterWrite_calm _ _ _ h
  case' dmaRestart => apply execDmaRestart_calm _ _ h
  case' screeClr => apply execScreeClr_calm _ h
  case sleepReq => exact execSleepReq_calm h
  case' sleep => apply execSleep_calm _ h
  case' sleepEntry => apply execSleepEntry_calm h
  case' linkL12Reached => apply execLinkL12Reached_calm h
  case sleepEntryTimeout => exact execSleepEntryTimeout_calm _ h
  case sleepHeartbeatToggle => exact execSleepHeartbeatToggle_calm h
  case' wakeReq => apply execWakeReq_calm h
  case cspWake => exact execCspWake_calm _ h
  case l12ExitDone => exact execL12ExitDone_calm _ h
  case class0Ready => exact execClass0Ready_calm _ h
  case' fullReady => apply execFullReady_calm _ h
  case' offprep => apply execOffprep_calm _ h
  case' bedrockSupplyLoss => apply execBedrockSupplyLoss_calm h
  case' mbistStart => apply execMbistStart_calm _ h
  case mbistDone => exact execMbistDone_calm _ h
  case' tapReset => apply execTapReset_calm h
  case' extest => apply execExtest_calm _ h
  case' samplePreload => apply execSamplePreload_calm _ h
  case' idcode => apply execIdcode_calm _ h
  case' highz => apply execHighz_calm _ h
  case' clamp => apply execClamp_calm _ h
  case' extestPulse => apply execExtestPulse_calm _ h
  case' extestTrain => apply execExtestTrain_calm _ h
  case' mbist => apply execMbist_calm _ h
  case' bypass => apply execBypass_calm _ h
  case unattachedRequest => exact execUnattachedRequest_calm _ _ h
  case dlUp => exact execDlUp_calm _ _ h
  case' suppliesRemoved => apply execSuppliesRemoved_calm h
  -- what is left asks that each part the command may change is one that `mayChange` names
  all_goals exact nofun

/-- Settles O3: every command keeps a sound state sound (`exec_calm`), and taking a command off the queue touches nothing that soundness
speaks of. -/
theorem stepKeepsSound : Obligations.StepKeepsSound := by
  intro s t hs h
  unfold step at h
  split at h
  · cases h
    exact hs
  · exact (exec_calm h).sound hs

/-! ## When a command has a meaning

Four shapes: power and PORST_N always act; the TAP's commands act unless another block's obligation is broken; every other command acts
unless the behaviour is undefined; and a request row whose tenure is not its own is refused before anything else. -/

theorem exec_of_outlastsBreach {c : Instr} (h : outlastsBreach c = true) (s : State) : ∃ t, exec c s = .next t := by
  cases c
  case porstNAssert | coldReset | suppliesRemoved => exact ⟨_, rfl⟩
  all_goals cases h

theorem exec_of_tapCommand {c : Instr} (h : tapCommand c = true) : ∃ f, ∀ s, exec c s = tapGuarded s f := by
  cases c
  case tapReset | extest | samplePreload | idcode | highz | clamp | extestPulse | extestTrain | mbist | bypass =>
    exact ⟨_, fun _ => rfl⟩
  all_goals cases h

theorem exec_of_illFormed {c : Instr} (h : wellFormed c = false) (s : State) : exec c s = .refused .illFormed := by
  cases c
  case read | readFetch | readSpec | write | writeNt | lockRead | lockWrite | lockAbort | atomic | watch | barrier =>
    exact if_neg (ne_true_of_eq_false h)
  all_goals cases h

theorem exec_of_wellFormed {c : Instr} (hw : wellFormed c = true) (ho : outlastsBreach c = false) (ht : tapCommand c = false) :
    ∃ f, ∀ s, exec c s = guarded s f := by
  cases c
  case read | readFetch | readSpec | write | writeNt | lockRead | lockWrite | lockAbort | atomic | watch | barrier =>
    exact ⟨_, fun _ => if_pos hw⟩
  case porstNAssert | coldReset | suppliesRemoved => cases ho
  case tapReset | extest | samplePreload | idcode | highz | clamp | extestPulse | extestTrain | mbist | bypass => cases ht
  all_goals exact ⟨_, fun _ => rfl⟩

theorem guarded_of_undef {s : State} {u : UndefCause} (h : s.undef = some u) (f : State → State) :
    guarded s f = .fault (.undefinedBehaviour u) := by simp [guarded, h]

theorem guarded_of_defined {s : State} (h : s.undef = none) (f : State → State) : guarded s f = .next (f s) := by simp [guarded, h]

theorem tapGuarded_of_defined {s : State} (h : s.undef = none) (f : State → State) : tapGuarded s f = .next (f s) := by
  simp [tapGuarded, h]

theorem tapGuarded_of_undef {s : State} {u : UndefCause} (hs : s.undef = some u) (hu : u ≠ .r414) (f : State → State) :
    tapGuarded s f = .fault (.undefinedBehaviour u) := by
  unfold tapGuarded
  split
  · next h => cases hs.symm.trans h
  · next h => exact absurd (Option.some.inj (hs.symm.trans h)) hu
  · next h => rw [Option.some.inj (hs.symm.trans h)]

/-- Any command that is well formed acts while the behaviour is defined. -/
theorem exec_of_defined {c : Instr} {s : State} (hs : s.undef = none) (hw : wellFormed c = true) : ∃ t, exec c s = .next t := by
  cases ho : outlastsBreach c with
  | true => exact exec_of_outlastsBreach ho s
  | false =>
    cases ht : tapCommand c with
    | true =>
      obtain ⟨f, hf⟩ := exec_of_tapCommand ht
      exact ⟨f s, (hf s).trans (tapGuarded_of_defined hs f)⟩
    | false =>
      obtain ⟨f, hf⟩ := exec_of_wellFormed hw ho ht
      exact ⟨f s, (hf s).trans (guarded_of_defined hs f)⟩

/-- While the behaviour is undefined nothing but power and PORST_N acts, and the TAP's commands only where `r414` broke it. -/
theorem exec_of_undef {c : Instr} {s : State} {u : UndefCause} (hs : s.undef = some u) (hw : wellFormed c = true)
    (ho : outlastsBreach c = false) (ht : tapCommand c = true → u ≠ .r414) : exec c s = .fault (.undefinedBehaviour u) := by
  cases h : tapCommand c with
  | true =>
    obtain ⟨f, hf⟩ := exec_of_tapCommand h
    exact (hf s).trans (tapGuarded_of_undef hs (ht h) f)
  | false =>
    obtain ⟨f, hf⟩ := exec_of_wellFormed hw ho h
    exact (hf s).trans (guarded_of_undef hs f)

theorem undef_when {s : State} (b : Bool) (f : State → State) (hs : s.undef = none) (hf : (f s).undef = none) :
    (when s b f).undef = none := by
  unfold when
  split <;> assumption

/-- What leaves the behaviour undefined that was defined: register writes, of a row of their own or from a store queue, and scans of the
TAP. The resets may change `undef` too, but leave it clear. -/
theorem undef_set_by {c : Instr} {s t : State} (h : exec c s = .next t) (hs : s.undef = none) (ht : t.undef ≠ none) :
    writesRegister c = true ∨ (∃ r p, c = .storeRetirement r p) ∨ tapCommand c = true := by
  have hm : mayChange c .undef = true :=
    eq_true_of_ne_false fun hk => ht (((exec_calm h).undef hk).trans hs)
  simp only [mayChange, Bool.or_eq_true, Bool.and_eq_true] at hm
  obtain (⟨hw, -⟩ | ⟨hp, -⟩) | ho := hm
  · exact .inl hw
  · exact .inr (.inr hp)
  · cases c
    case storeRetirement => exact .inr (.inl ⟨_, _, rfl⟩)
    case porstNAssert | suppliesRemoved =>
      cases h
      exact absurd rfl ht
    case coldReset =>
      cases h
      exact absurd (undef_when _ _ hs rfl) ht
    case bedrockSupplyLoss =>
      have h' := (guarded_of_defined hs _).symm.trans h
      cases h'
      exact absurd (undef_when _ _ hs rfl) ht
    all_goals cases ho

/-- Settles O7: by the shape of the command's meaning (`exec_of_illFormed`, `exec_of_undef`, `exec_of_defined`), and by what it may
change (`undef_set_by`). -/
theorem whatMakesBehaviourUndefined : Obligations.WhatMakesBehaviourUndefined :=
  ⟨⟨fun _ s hw => exec_of_illFormed hw s, fun _ _ _ hs hw ho ht => exec_of_undef hs hw ho ht, fun _ _ hs hw => exec_of_defined hs hw⟩,
    fun _ _ _ h hs ht => undef_set_by h hs ht⟩

/-! ## Register rows

A register row is performed at once, waits in its agent's queue, or does not reach the block. -/

theorem exec_registerWrite {s : State} (hs : s.up) (who : Fin 8) {off : BitVec 16} (val : Reg32) (h4 : off.toNat % 4 = 0) :
    exec (.registerWrite who off val) s = .next (regRow s who off.toNat val) :=
  (guarded_of_defined hs.1 _).trans (congrArg _ (if_pos (beq_iff_eq.2 h4)))

theorem exec_registerWrite_unaligned {s : State} (hs : s.up) (who : Fin 8) {off : BitVec 16} (val : Reg32) (h4 : off.toNat % 4 ≠ 0) :
    exec (.registerWrite who off val) s = .next s :=
  (guarded_of_defined hs.1 _).trans (congrArg _ (if_neg (mt beq_iff_eq.1 h4)))

theorem regRow_of_closed {s : State} {who : Nat} (off : Nat) (val : Reg32) (h : rowOpen s who = false) : regRow s who off val = s :=
  if_neg (ne_true_of_eq_false h)

theorem regRow_of_ready {s : State} {who off : Nat} {val : Reg32} (h : rowReady s who off val) :
    regRow s who off val = settle (performRegWrite s who off val) := by
  obtain ⟨ho, hf, hr⟩ := h
  simp [regRow, when, ho, hf, hr]

/-- The state with the WRITE of a register row queued. -/
def queueRow (s : State) (who off : Nat) (val : Reg32) : State :=
  addReq { s with bus := { s.bus with nextReq := s.bus.nextReq + 1 } } (rowWrite s who off val)

theorem regRow_of_waiting {s : State} {who off : Nat} {val : Reg32} (ho : rowOpen s who = true)
    (hw : rowFree s (rowWrite s who off val) = false ∨ regWriteRoom s off val = false) :
    regRow s who off val = settle (queueRow s who off val) := by
  rcases hw with h | h <;> simp [regRow, when, queueRow, ho, h]

/-! ### What waiting work keeps of the registers -/

theorem settle_extends (a : State) : Ext a (settle a) := settle_ext (Ext.refl a)

/-- Waiting work changes five fields of the register block only: the live counts, the parity causes said, two flags of the CRC pass, and
the list of regions to drop. -/
theorem Ext.cfg {α : Type} {a s : State} (h : Ext a s) (f : Cfg → α)
    (hf : ∀ (c : Cfg) l p o n st, f { c with live := l, parSeen := p, okSince := o, passNew := n, stale := st } = f c := by intros; rfl) :
    f s.cfg = f a.cfg :=
  calc f s.cfg = f (settleFixed s).cfg := (hf ..).symm
    _ = f (settleFixed a).cfg := congrArg (fun x => f x.cfg) h.fixed
    _ = f a.cfg := hf ..

theorem Ext.reg {a s : State} (h : Ext a s) (o : Nat) : reg s o = reg a o := h.cfg fun c => mget resetVal c.regs o
theorem Ext.vlt {a s : State} (h : Ext a s) : s.vlt = a.vlt := congrArg (fun x => x.vlt) h.fixed
theorem Ext.clk {a s : State} (h : Ext a s) : s.clk = a.clk := congrArg (fun x => x.clk) h.fixed
theorem Ext.pwr {a s : State} (h : Ext a s) : s.pwr = a.pwr := congrArg (fun x => x.pwr) h.fixed

theorem Ext.kept {a s : State} (h : Ext a s) : kept a s := ⟨h.cfg Cfg.regs, h.vlt, h.clk⟩

/-! ### Requests still owed an answer -/

theorem silenced_congr {s t : State} (hb : t.bus.rsns = s.bus.rsns) (hr : ∀ p, reg t (rAgpCfg p) = reg s (rAgpCfg p)) :
    silenced t = silenced s := by
  funext who
  simp [silenced, inReset, portEn, hb, hr]

theorem owed_congr {s t : State} (hb : t.bus = s.bus) (hr : ∀ p, reg t (rAgpCfg p) = reg s (rAgpCfg p)) : owed t = owed s := by
  simp only [owed, silenced_congr (congrArg Bus.rsns hb) hr, hb]

theorem rowWrite_answered (s : State) (who off : Nat) (val : Reg32) : (rowWrite s who off val).answered = true :=
  (apply_ite Req.answered ..).trans (ite_self _)

/-- A queued register row is owed no answer. -/
theorem owed_queueRow (s : State) (who off : Nat) (val : Reg32) : owed (queueRow s who off val) = owed s := by
  show ((s.bus.reqs ++ [rowWrite s who off val]).filter fun r => _ && _ && !silenced s r.who).map admitted = _
  simp [owed, List.filter_append, rowWrite_answered]

/-! ### What a register write does -/

theorem isKeyed_not_posted {off : Nat} (h : isKeyed off = true) : off < 0xF000 ∧ off ≠ 0xD000 ∧ isPosted off = false := by
  simp [isKeyed] at h
  simp [isPosted, rEpochLo, rEpochHi, rHbCfg, rLane]
  omega

theorem aliased_of_lt {off : Nat} (s : State) (val : Reg32) (h : off < 0xF000) : aliased s off val = some (off, val) := if_pos h

/-- An accepted write, before its effect: one to a member opens the commit window and abandons a running pass (16 R401, R402). -/
def acceptWrite (s : State) (off : Nat) : State := if isMember off then memberWrite s else s

@[simp] theorem acceptWrite_bus (s : State) (off : Nat) : (acceptWrite s off).bus = s.bus := by unfold acceptWrite; split <;> rfl
@[simp] theorem acceptWrite_clk (s : State) (off : Nat) : (acceptWrite s off).clk = s.clk := by unfold acceptWrite; split <;> rfl
@[simp] theorem acceptWrite_vlt (s : State) (off : Nat) : (acceptWrite s off).vlt = s.vlt := by unfold acceptWrite; split <;> rfl
@[simp] theorem acceptWrite_pwr (s : State) (off : Nat) : (acceptWrite s off).pwr = s.pwr := by unfold acceptWrite; split <;> rfl
@[simp] theorem acceptWrite_out (s : State) (off : Nat) : (acceptWrite s off).out = s.out := by unfold acceptWrite; split <;> rfl
@[simp] theorem acceptWrite_reg (s : State) (off o : Nat) : reg (acceptWrite s off) o = reg s o := by unfold acceptWrite; split <;> rfl
@[simp] theorem acceptWrite_live (s : State) (off c : Nat) : live (acceptWrite s off) c = live s c := by unfold acceptWrite; split <;> rfl
@[simp] theorem acceptWrite_unlocked (s : State) (off : Nat) : (acceptWrite s off).cfg.unlocked = s.cfg.unlocked := by
  unfold acceptWrite; split <;> rfl

/-- The holder of the key writes with it: that locks it, and is a keyed change (16 R390, 05 R124). -/
def spendKey (s : State) : State := keyedChange { s with cfg := { s.cfg with unlocked := none } }

/-- A keyed change touches INV_DONE and the engine's rings alone. -/
theorem keyedChange_eq (s : State) : ∃ r, keyedChange s =
    { s with cch := { s.cch with invDone := false }, eng := { s.eng with rings := r } } := by
  unfold keyedChange
  extract_lets _ s1
  suffices h : ∃ r, _ = { s1 with eng := { s1.eng with rings := r } } from h
  refine List.foldlRecOn (motive := fun x => ∃ r, x = { s1 with eng := { s1.eng with rings := r } }) _ _ ?_ ?_
  · exact ⟨s.eng.rings, rfl⟩
  · rintro _ ⟨r, rfl⟩ n -
    split
    · split
      · exact ⟨_, rfl⟩
      · exact ⟨r, rfl⟩
    · exact ⟨r, rfl⟩

theorem performRegWrite_of_unkeyed {s : State} {off : Nat} (who : Nat) (val : Reg32) (hl : off < 0xF000) (hd : off ≠ 0xD000)
    (hp : isPosted off = false) (hk : isKeyed off = false) :
    performRegWrite s who off val = writeEffect (acceptWrite s off) off val := by
  simp [performRegWrite, acceptWrite, aliased_of_lt s val hl, hd, hp, hk]

theorem performRegWrite_of_key {s : State} {who off : Nat} (val : Reg32) (hk : isKeyed off = true) (hu : s.cfg.unlocked = some who) :
    performRegWrite s who off val = writeEffect (acceptWrite (spendKey s) off) off val := by
  obtain ⟨hl, hd, hp⟩ := isKeyed_not_posted hk
  simp [performRegWrite, acceptWrite, spendKey, aliased_of_lt s val hl, hd, hp, hk, hu]

theorem performRegWrite_of_no_key {s : State} {who off : Nat} (val : Reg32) (hk : isKeyed off = true) (hu : s.cfg.unlocked ≠ some who) :
    performRegWrite s who off val = keyRefuse s who off := by
  obtain ⟨hl, hd, hp⟩ := isKeyed_not_posted hk
  simp [performRegWrite, aliased_of_lt s val hl, hd, hp, hk, hu]

/-! ### Registers without an effect of their own -/

/-- Registers whose write stores the value and does nothing else. -/
def plainRegs : List Nat :=
  [0x1000, 0x2110, 0x2114, 0x3000, 0x4000, 0x4008, 0x400C, 0x5104, 0x7004, 0x7060, 0x7064, 0x7068, 0x7074, 0x800C, 0x8010, 0x8020,
   0x8028, 0xA00C, 0xB004, 0xE000, 0xE004]

theorem writeEffect_of_plain {off : Nat} (s : State) (val : Reg32) (h : off ∈ plainRegs) : writeEffect s off val = regPut s off val := by
  fin_cases h <;> rfl

/-- The frequency monitor's register also starts its windows anew. -/
theorem writeEffect_mon (s : State) (val : Reg32) : writeEffect s 0xA010 val = monRestart (regPut s 0xA010 val) := rfl

/-! ### A write that is performed -/

/-- The registers without a key that the statement names. -/
def unkeyedRegs : List Nat :=
  [0x2114, 0x3000, 0x400C, 0x7004, 0x7060, 0x7064, 0x7068, 0x7074, 0x8020, 0x8028, 0xA00C, 0xA010, 0xE000, 0xE004]

theorem forall_portId {P : PortId → Prop} : (∀ p, P p) ↔ P .A ∧ P .B :=
  ⟨fun h => ⟨h .A, h .B⟩, fun ⟨hA, hB⟩ p => match p with | .A => hA | .B => hB⟩

theorem unkeyedRegs_kind : ∀ off ∈ unkeyedRegs, off % 4 = 0 ∧ off < 0xF000 ∧ off ≠ 0xD000 ∧ isPosted off = false ∧ isKeyed off = false ∧
    (∀ p, rAgpCfg p ≠ off) ∧ (off = 0xA010 ∨ off ≠ 0xA010 ∧ off ∈ plainRegs) := by
  simp only [forall_portId]
  decide

/-- What writing one of them does to the state. -/
theorem performRegWrite_unkeyed {off : Nat} (s : State) (who : Nat) (val : Reg32) (h : off ∈ unkeyedRegs) :
    performRegWrite s who off val = { regPut (acceptWrite s off) off val with
      clk := { s.clk with lastWin := if off = 0xA010 then none else s.clk.lastWin } } := by
  obtain ⟨-, hl, hd, hp, hk, -, rfl | ⟨hm, hpl⟩⟩ := unkeyedRegs_kind off h
  · rw [performRegWrite_of_unkeyed who val hl hd hp hk, writeEffect_mon]
    simp [monRestart]
  · rw [performRegWrite_of_unkeyed who val hl hd hp hk, writeEffect_of_plain _ _ hpl, if_neg hm,
      ← acceptWrite_clk s off]
    rfl

theorem registerWrite_unkeyed {s : State} {who : Fin 8} {off : BitVec 16} {val : Reg32} (hs : s.up) (hr : rowReady s who off.toNat val)
    (ho : off.toNat ∈ unkeyedRegs) :
    ∃ t, exec (.registerWrite who off val) s = .next t ∧ reg t off.toNat = val &&& storedMask off.toNat ∧
      (∀ o, o ≠ off.toNat → reg t o = reg s o) ∧ t.cfg.unlocked = s.cfg.unlocked ∧ t.vlt = s.vlt ∧
      t.clk = { s.clk with lastWin := if off.toNat = 0xA010 then none else s.clk.lastWin } ∧ owed t = owed s ∧
      (∀ c, c ∉ settleCounters → live t c = live s c) ∧ t.pwr = s.pwr ∧ s.out <:+ t.out := by
  obtain ⟨h4, -, -, -, -, hagp, -⟩ := unkeyedRegs_kind _ ho
  have hx := settle_extends (performRegWrite s who off.toNat val)
  rw [← regRow_of_ready hr, performRegWrite_unkeyed s who val ho] at hx
  have hreg {o : Nat} (h : o ≠ off.toNat) : reg (regPut (acceptWrite s off.toNat) off.toNat val) o = reg s o :=
    (reg_regPut_ne _ val h).trans (acceptWrite_reg ..)
  refine ⟨_, exec_registerWrite hs who val h4, ?_⟩
  refine ⟨(hx.reg _).trans (reg_regPut_self ..), fun o h => (hx.reg o).trans (hreg h), (hx.cfg Cfg.unlocked).trans (acceptWrite_unlocked ..),
    hx.vlt.trans (acceptWrite_vlt ..), hx.clk, hx.owed.trans (owed_congr (acceptWrite_bus ..) fun p => hreg (hagp p)),
    fun c hc => (hx.counts c hc).trans (acceptWrite_live ..), hx.pwr.trans (acceptWrite_pwr ..), ?_⟩
  exact (acceptWrite_out s off.toNat) ▸ hx.out

/-- The keyed registers that the statement names. -/
def keyedRegs : List Nat := [0x1000, 0x2110, 0x4000, 0x4008, 0x5104, 0x800C, 0x8010, 0xB004]

theorem keyedRegs_kind : ∀ off ∈ keyedRegs, off % 4 = 0 ∧ isKeyed off = true ∧ isMember off = true ∧ off ∈ plainRegs := by decide

/-- What the holder of the key does to the state by writing one of them. -/
theorem performRegWrite_keyed {s : State} {who off : Nat} (val : Reg32) (h : off ∈ keyedRegs) (hu : s.cfg.unlocked = some who) :
    ∃ r, performRegWrite s who off val = regPut (memberWrite { s with
      cch := { s.cch with invDone := false }, eng := { s.eng with rings := r }, cfg := { s.cfg with unlocked := none } }) off val := by
  obtain ⟨-, hk, hm, hpl⟩ := keyedRegs_kind off h
  obtain ⟨r, he⟩ := keyedChange_eq { s with cfg := { s.cfg with unlocked := none } }
  refine ⟨r, ?_⟩
  rw [performRegWrite_of_key val hk hu, writeEffect_of_plain _ _ hpl, acceptWrite, if_pos hm, spendKey, he]

theorem registerWrite_keyed {s : State} {who : Fin 8} {off : BitVec 16} {val : Reg32} (hs : s.up) (hr : rowReady s who off.toNat val)
    (hu : s.cfg.unlocked = some who.val) (ho : off.toNat ∈ keyedRegs) :
    ∃ t, exec (.registerWrite who off val) s = .next t ∧ reg t off.toNat = val &&& storedMask off.toNat ∧
      (∀ o, o ≠ off.toNat → reg t o = reg s o) ∧ t.cfg.unlocked = none ∧ t.cfg.window = true ∧ t.cfg.pass = false ∧
      Ext (performRegWrite s who off.toNat val) t ∧ (performRegWrite s who off.toNat val).cch.invDone = false ∧ t.vlt = s.vlt ∧
      t.clk = s.clk ∧ live t cntKeyRef = live s cntKeyRef := by
  have hx := settle_extends (performRegWrite s who off.toNat val)
  rw [← regRow_of_ready hr] at hx
  refine ⟨_, exec_registerWrite hs who val (keyedRegs_kind _ ho).1, ?_⟩
  obtain ⟨r, hp⟩ := performRegWrite_keyed val ho hu
  rw [hp] at hx ⊢
  exact ⟨(hx.reg _).trans (reg_regPut_self ..), fun o h => (hx.reg o).trans (reg_regPut_ne _ val h), hx.cfg Cfg.unlocked,
    hx.cfg Cfg.window, hx.cfg Cfg.pass, hx, rfl, hx.vlt, hx.clk, hx.counts _ (by decide)⟩

theorem registerWrite_refused {s : State} {who : Fin 8} {off : BitVec 16} {val : Reg32} (hs : s.up) (hr : rowReady s who off.toNat val)
    (h4 : off.toNat % 4 = 0) (hk : isKeyed off.toNat = true) (hu : s.cfg.unlocked ≠ some who.val) :
    ∃ t, exec (.registerWrite who off val) s = .next t ∧ kept s t ∧ t.cfg.refused = true ∧
      t.cfg.seq = s.cfg.seq + 1 ∧ t.cfg.keyLog = word [(16, who.val), (0, off.toNat)] ∧ live t cntKeyRef = live s cntKeyRef + 1 ∧
      t.cfg.unlocked = s.cfg.unlocked ∧ Ext (keyRefuse s who off.toNat) t := by
  have hx := settle_extends (performRegWrite s who off.toNat val)
  rw [← regRow_of_ready hr, performRegWrite_of_no_key val hk hu] at hx
  exact ⟨_, exec_registerWrite hs who val h4, hx.kept, hx.cfg Cfg.refused, hx.cfg Cfg.seq, hx.cfg Cfg.keyLog,
    (hx.counts _ (by decide)).trans (live_count_self ..), hx.cfg Cfg.unlocked, hx⟩

/-! ### A write that waits, and one that does not reach the block -/

theorem registerWrite_waits {s : State} {who : Fin 8} {off : BitVec 16} {val : Reg32} (hs : s.up) (hw : rowOpen s who = true)
    (h4 : off.toNat % 4 = 0) (h : rowFree s (rowWrite s who off.toNat val) = false ∨ regWriteRoom s off.toNat val = false) :
    ∃ t, exec (.registerWrite who off val) s = .next t ∧ kept s t ∧ owed t = owed s ∧ Ext (queueRow s who off.toNat val) t := by
  have hx := settle_extends (queueRow s who off.toNat val)
  rw [← regRow_of_waiting hw h] at hx
  exact ⟨_, exec_registerWrite hs who val h4, hx.kept, hx.owed.trans (owed_queueRow ..), hx⟩

theorem registerWrite_closed {s : State} {who : Fin 8} (off : BitVec 16) (val : Reg32) (hs : s.up) (h : rowOpen s who = false) :
    exec (.registerWrite who off val) s = .next s := by
  by_cases h4 : off.toNat % 4 = 0
  · rw [exec_registerWrite hs who val h4, regRow_of_closed _ _ h]
  · exact exec_registerWrite_unaligned hs who val h4

/-! ### A write to an offset that stores nothing

Such a write may act on many blocks, but every stored register reads as before and the Vault stays as it was. -/

/-- The stored registers read as they did and the Vault is as it was. -/
structure SameStore (a s : State) : Prop where
  reg : ∀ o, reg s o = reg a o
  vlt : s.vlt = a.vlt

namespace SameStore

variable {a s x y : State}

theorem refl (a : State) : SameStore a a := ⟨fun _ => rfl, rfl⟩

theorem ext (h : SameStore a s) (hx : Ext s x) : SameStore a x := ⟨fun o => (hx.reg o).trans (h.reg o), hx.vlt.trans h.vlt⟩

/-- An update of other fields. -/
theorem upd (h : SameStore a s) (hr : x.cfg.regs = s.cfg.regs := by rfl) (hv : x.vlt = s.vlt := by rfl) : SameStore a x :=
  ⟨fun o => (congrArg (fun l => mget resetVal l o) hr).trans (h.reg o), hv.trans h.vlt⟩

theorem ite {c : Prop} [Decidable c] (hx : c → SameStore a x) (hy : ¬ c → SameStore a y) : SameStore a (if c then x else y) := by
  split
  · exact hx ‹_›
  · exact hy ‹_›

theorem foldl {β : Type} (l : List β) (f : State → β → State) (hf : ∀ s b, SameStore a s → SameStore a (f s b)) (h : SameStore a s) :
    SameStore a (l.foldl f s) := List.foldlRecOn (motive := SameStore a) l f h fun s hs b _ => hf s b hs

theorem event (b c : Nat) (p : BitVec 384) (h : SameStore a s) : SameStore a (event s b c p) := h.ext (event_ext _ _ _ (Ext.refl s))

theorem queueProbe (k : ProbeKind) (m : BitVec 8) (f : ProbeFor) (h : SameStore a s) : SameStore a (queueProbe s k m f) :=
  h.ext (queueProbe_ext _ _ _ (Ext.refl s))

theorem raiseInt (n : Nat) (h : SameStore a s) : SameStore a (raiseInt s n) := h.upd

/-! Agent ports, cache and cache store. -/

theorem disableCache (h : SameStore a s) : SameStore a (disableCache s) :=
  .ite (fun _ => (h.upd (x := { s with cch := { s.cch with enabled := false, invDone := false } })).ext (cancelFills_ext _ (Ext.refl _)))
    fun _ => h

theorem dropAccess (c : Acc) (h : SameStore a s) : SameStore a (dropAccess s c) := by
  unfold Machine.dropAccess
  split <;> exact h.upd

theorem cacheLoss (h : SameStore a s) : SameStore a (cacheLoss s) :=
  .foldl _ _ (fun _ _ => .dropAccess _) (.event _ _ _ h.disableCache.upd)

theorem cspStart (h : SameStore a s) : SameStore a (cspStart s) :=
  .ite (fun _ => h) fun _ => .upd (s := cspLost s) (.ite (fun _ => .cacheLoss h.upd) fun _ => .foldl _ _ (fun _ _ => .dropAccess _) h.upd)

theorem reviveWrite (val : Reg32) (h : SameStore a s) : SameStore a (reviveWrite s val) := .ite (fun _ => h) fun _ => h.queueProbe _ _ _

theorem cacheOn (h : SameStore a s) : SameStore a (cacheOn s) := by
  unfold Machine.cacheOn
  split
  · exact .queueProbe _ _ _ h.upd
  · exact h.upd

theorem cchCtrl (val : Reg32) (h : SameStore a s) : SameStore a (cchCtrl s val) :=
  .ite (fun _ => .ite (fun _ => h) fun _ => h.cacheOn) fun _ => h.disableCache.upd

/-! The command engine. -/

theorem engEnable (on : Bool) (h : SameStore a s) : SameStore a (engEnable s on) :=
  .ite (fun _ => .ite (fun _ => h.upd) fun _ => .ite (fun _ => h) fun _ => .foldl _ _ (fun _ _ h => h.upd) h.upd) fun _ => h.upd

theorem cmdCtrl (val : Reg32) (h : SameStore a s) : SameStore a (cmdCtrl s val) :=
  .engEnable _ (.foldl _ _ (fun _ _ h => h.upd) (.foldl _ _ (fun _ _ h => h.upd) h))

theorem rswWrite (val : Reg32) (h : SameStore a s) : SameStore a (rswWrite s val) := by
  unfold Machine.rswWrite
  split
  · exact .ite (fun _ => h.upd) fun _ => h
  · exact h

theorem doorbell (n tail : Nat) (h : SameStore a s) : SameStore a (doorbell s n tail) := .ite (fun _ => h.event _ _ _) fun _ => h.upd

theorem headWrite (eq : Bool) (val : Reg32) (h : SameStore a s) : SameStore a (headWrite s eq val) :=
  .ite (fun _ => .ite (fun _ => h.upd) fun _ => h) fun _ => .ite (fun _ => h.upd) fun _ => h

/-! Faults, clocks, power and test. -/

theorem dmaWrite (val : Reg32) (h : SameStore a s) : SameStore a (dmaWrite s val) :=
  .foldl _ _ (fun _ _ h => .ite (fun _ => h.upd) fun _ => h) h

theorem screeWrite (val : Reg32) (h : SameStore a s) : SameStore a (screeWrite s val) := .ite (fun _ => h.upd) fun _ => h

theorem clkCtrl (val : Reg32) (h : SameStore a s) : SameStore a (clkCtrl s val) := by
  have h1 : SameStore a (if val.getLsbD 31 then startRelock s 4 else s) := .ite (fun _ => h.upd) fun _ => h
  exact .ite (fun _ => .ite (fun _ => h1.upd) fun _ => h1.upd) fun _ => h1

theorem setFail (rsn : Nat) (h : SameStore a s) : SameStore a (setFail s rsn) := .raiseInt _ (.event _ _ _ h.upd)

theorem armEntry (off : Bool) (h : SameStore a s) : SameStore a (armEntry s off) := .ite (fun _ => h) fun _ => h.upd

theorem pwrCtrl (val : Reg32) (h : SameStore a s) : SameStore a (pwrCtrl s val) := by
  have h1 : SameStore a (if val.getLsbD 31 then sleepWrite s else s) :=
    .ite (fun _ => .ite (fun _ => h.upd) fun _ => .ite (fun _ => h.armEntry _) fun _ => h.setFail _) fun _ => h
  exact .ite (fun _ => .ite (fun _ => h1) fun _ => .ite (fun _ => h1.armEntry _) fun _ => h1.setFail _) fun _ => h1

theorem wakeAll (h : SameStore a s) : SameStore a (wakeAll s).1 :=
  List.foldlRecOn (motive := fun p : State × BitVec 8 => SameStore a p.1) _ _ h fun _ hs _ _ =>
    (hs.upd (x := updReq _ _ _)).ext (respond_ext _ _ _ _ (Ext.refl _))

theorem mbistStart (sel : BitVec 9) (h : SameStore a s) : SameStore a (mbistStart s sel) :=
  .ite (fun _ => h) fun _ => .ite (fun _ => h.upd) fun _ => .ite (fun _ => h.upd) fun _ => .ite (fun _ => h.upd) fun _ => .wakeAll h.upd

theorem rsqClear (off : Nat) (h : SameStore a s) : SameStore a (rsqClear s off) := by
  unfold Machine.rsqClear
  split <;> exact h.upd

/-! Keys, members, and values. -/

theorem keyWrite (who : Nat) (val : Reg32) (h : SameStore a s) : SameStore a (keyWrite s who val) := .ite (fun _ => h.upd) fun _ => h.upd

theorem spendKey (h : SameStore a s) : SameStore a (spendKey s) := by
  obtain ⟨r, hr⟩ := keyedChange_eq { s with cfg := { s.cfg with unlocked := none } }
  rw [Machine.spendKey, hr]
  exact h.upd

theorem acceptWrite (off : Nat) (h : SameStore a s) : SameStore a (acceptWrite s off) := .ite (fun _ => h.upd) fun _ => h

/-- Storing to an offset of which no bit is stored. -/
theorem regPut {off : Nat} (val : Reg32) (hn : storedRow off = none) (h0 : Machine.reg a off = 0) (h : SameStore a s) :
    SameStore a (regPut s off val) where
  vlt := h.vlt
  reg o := by
    by_cases ho : o = off
    · subst ho
      rw [reg_regPut_self, h0, storedMask, hn]
      exact BitVec.and_zero
    · rw [reg_regPut_ne _ _ ho, h.reg]

end SameStore

/-! ### The effect of a write where no bit is stored -/

theorem ne_of_unstored {off o : Nat} (hn : storedRow off = none) (ho : (storedRow o).isSome = true) : off ≠ o := by
  rintro rfl
  rw [hn] at ho
  cases ho

theorem not_region_of_unstored {off : Nat} (hn : storedRow off = none) (h4 : off % 4 = 0) : (0x2000 ≤ off && off < 0x2100) ≠ true := by
  intro h
  simp [storedRow, h, h4] at hn

theorem not_bucket_of_unstored {off : Nat} (hn : storedRow off = none) (h4 : off % 4 = 0) : (0x7020 ≤ off && off < 0x7038) ≠ true := by
  intro h
  simp only [Bool.and_eq_true, decide_eq_true_eq] at h
  have : off = 0x7020 ∨ off = 0x7024 ∨ off = 0x7028 ∨ off = 0x702C ∨ off = 0x7030 ∨ off = 0x7034 := by omega
  obtain rfl | rfl | rfl | rfl | rfl | rfl := this <;> cases hn

theorem not_posted_of_unstored {off : Nat} (hn : storedRow off = none) : isPosted off ≠ true := by
  have h1 : off ≠ rEpochLo := ne_of_unstored hn rfl
  have h2 : off ≠ rEpochHi := ne_of_unstored hn rfl
  have h3 : off ≠ rHbCfg := ne_of_unstored hn rfl
  have h4 : off ≠ rLane := ne_of_unstored hn rfl
  simp [isPosted, h1, h2, h3, h4]

theorem not_three_of_unstored {off o₁ o₂ o₃ : Nat} (hn : storedRow off = none) (h₁ : (storedRow o₁).isSome = true)
    (h₂ : (storedRow o₂).isSome = true) (h₃ : (storedRow o₃).isSome = true) : (off = o₁ || off = o₂ || off = o₃) ≠ true := by
  simp [ne_of_unstored hn h₁, ne_of_unstored hn h₂, ne_of_unstored hn h₃]

section
variable {a s : State} {off : Nat} (val : Reg32) (hn : storedRow off = none) (h4 : off % 4 = 0) (h0 : reg a off = 0)
include hn h4 h0

theorem writeLow_sameStore (h : SameStore a s) : SameStore a (writeLow s off val) := by
  have no {o : Nat} {x : State} (ho : (storedRow o).isSome = true) (he : off = o) : SameStore a x := absurd he (ne_of_unstored hn ho)
  refine .ite (no rfl) fun _ => .ite (no rfl) fun _ => .ite (fun _ => h.reviveWrite _) fun _ => ?_
  refine .ite (fun hr => absurd hr (not_region_of_unstored hn h4)) fun _ => .ite (no rfl) fun _ => .ite (fun _ => h.cchCtrl _) fun _ => ?_
  refine .ite (fun _ => .ite (fun hs => by simp [hn] at hs) fun _ => h) fun _ => ?_
  refine .ite (fun _ => h.cmdCtrl _) fun _ => .ite (fun _ => h.rswWrite _) fun _ => .ite (fun _ => h.doorbell _ _) fun _ => ?_
  refine .ite (fun _ => h.headWrite _ _) fun _ => .ite (fun _ => h.headWrite _ _) fun _ => .ite (no rfl) fun _ => h.regPut _ hn h0

theorem writeHigh_sameStore (h : SameStore a s) : SameStore a (writeHigh s off val) := by
  have no {o : Nat} {x : State} (ho : (storedRow o).isSome = true) (he : off = o) : SameStore a x := absurd he (ne_of_unstored hn ho)
  refine .ite (fun _ => h.dmaWrite _) fun _ => .ite (fun hb => absurd hb (not_bucket_of_unstored hn h4)) fun _ => ?_
  refine .ite (fun _ => h.screeWrite _) fun _ => .ite (fun hp => absurd hp (not_three_of_unstored hn rfl rfl rfl)) fun _ => ?_
  refine .ite (no rfl) fun _ => .ite (no rfl) fun _ => .ite (fun hc => absurd hc (not_three_of_unstored hn rfl rfl rfl)) fun _ => ?_
  refine .ite (no rfl) fun _ => .ite (fun _ => .ite (fun _ => h.cspStart) fun _ => h) fun _ => .ite (no rfl) fun _ => ?_
  refine .ite (fun _ => h.clkCtrl _) fun _ => .ite (no rfl) fun _ => .ite (fun _ => h.pwrCtrl _) fun _ => ?_
  refine .ite (fun _ => .ite (fun _ => h.upd) fun _ => h) fun _ => .ite (no rfl) fun _ => ?_
  exact .ite (fun _ => .ite (fun _ => h.mbistStart _) fun _ => h) fun _ => h.regPut _ hn h0

theorem writeEffect_sameStore (h : SameStore a s) : SameStore a (writeEffect s off val) :=
  .ite (fun _ => .ite (fun _ => h.rsqClear _) fun _ => h) fun _ =>
    .ite (fun _ => writeLow_sameStore val hn h4 h0 h) fun _ => writeHigh_sameStore val hn h4 h0 h

theorem performRegWrite_sameStore (who : Nat) (hl : off < 0xF000) (h : SameStore a s) : SameStore a (performRegWrite s who off val) := by
  simp only [performRegWrite, aliased_of_lt s val hl]
  refine .ite (fun _ => h.keyWrite _ _) fun _ => .ite (fun hp => absurd hp (not_posted_of_unstored hn)) fun _ => ?_
  refine .ite (fun _ => .ite (fun _ => ?_) fun _ => h.upd) fun _ => ?_
  · exact writeEffect_sameStore val hn h4 h0 (h.spendKey.acceptWrite off)
  · exact writeEffect_sameStore val hn h4 h0 (h.acceptWrite off)

end

/-- A read finds the default or an entry. -/
theorem mget_default_or_mem {α : Type} (d : Nat → α) (m : List (Nat × α)) (k : Nat) : mget d m k = d k ∨ (k, mget d m k) ∈ m := by
  induction m with
  | nil => exact .inl rfl
  | cons e m ih =>
    obtain ⟨i, v⟩ := e
    by_cases h : i = k
    · simp [mget, h]
    · simpa [mget, h, Ne.symm h] using ih

/-- A sound state holds 0 where no bit is stored. -/
theorem reg_of_unstored {s : State} {off : Nat} (hs : s.sound) (hn : storedRow off = none) : reg s off = 0 := by
  obtain ⟨-, hclear, -⟩ := hs
  rcases mget_default_or_mem resetVal s.cfg.regs off with h | h
  · rw [reg, h, resetVal, hn]
    rfl
  · have hm : storedMask off = 0 := by rw [storedMask, hn]; rfl
    have hv := hclear _ h
    rw [hm] at hv
    exact BitVec.and_allOnes.symm.trans hv

theorem regRow_sameStore {s : State} {off : Nat} (who : Nat) (val : Reg32) (hs : s.sound) (hn : storedRow off = none) (h4 : off % 4 = 0)
    (hl : off < 0xF000) : SameStore s (regRow s who off val) :=
  .ite (fun _ => .ite
    (fun _ => .ext (performRegWrite_sameStore val hn h4 (reg_of_unstored hs hn) who hl (.refl s)) (settle_extends _))
    fun _ => .ext (.upd (.refl s)) (settle_extends (queueRow s who off val))) fun _ => .refl s

theorem registerWrite_unstored {s : State} {who : Fin 8} {off : BitVec 16} (val : Reg32) (hs : s.up) (hd : s.sound)
    (hl : off.toNat < 0xF000) (hn : storedRow off.toNat = none) :
    ∃ t, exec (.registerWrite who off val) s = .next t ∧ (∀ o, reg t o = reg s o) ∧ t.vlt = s.vlt := by
  by_cases h4 : off.toNat % 4 = 0
  · have hx := regRow_sameStore who val hd hn h4 hl
    exact ⟨_, exec_registerWrite hs who val h4, hx.reg, hx.vlt⟩
  · exact ⟨s, exec_registerWrite_unaligned hs who val h4, fun _ => rfl, rfl⟩

/-- Settles O50: a performed write by what it does to the state (`performRegWrite_unkeyed`, `performRegWrite_keyed`,
`performRegWrite_of_no_key`), a write that stores nothing by `regRow_sameStore`, and a write that waits by `regRow_of_waiting`; what waiting
work then keeps is `settle_extends`. -/
theorem registerWrites : Obligations.RegisterWrites :=
  ⟨fun _ _ _ _ hs hr ho => registerWrite_unkeyed hs hr ho, fun _ _ _ _ hs hr hu ho => registerWrite_keyed hs hr hu ho,
    fun _ _ _ _ hs hr h4 hk hu => registerWrite_refused hs hr h4 hk hu, fun _ _ _ val hs hd hl hn => registerWrite_unstored val hs hd hl hn,
    fun _ _ off val hs => ⟨fun ho h4 h => registerWrite_waits hs ho h4 h, fun ho => registerWrite_closed off val hs ho⟩⟩

end Sys2Proof.Machine

/-! SUPPORT. Proofs of the statements of `01_shelf_and_address_map.md`: what becomes of a request tenure that breaks no rule. -/

namespace Sys2Proof.Machine
set_option Elab.async false

/-! ## A good tenure is due, and comes to `acceptReq` -/

/-- Every request row does what its tenure does, and nothing of the row itself. -/
theorem exec_of_rowTenure {i : Instr} {t : Tenure} {c : ReqCmd} (h : rowTenure i = some (t, c)) (s : State) :
    exec i s = requestRow c t s := by
  cases i
  case read | readFetch | readSpec | write | writeNt | lockRead | lockWrite | lockAbort | atomic | watch | barrier =>
    cases h
    rfl
  all_goals cases h

/-- The port after the tenure of its grant (02 R41, R63): nothing is granted, and an agent tenure came last. -/
def endTenure (s : State) (t : Tenure) : State :=
  setPort s (portOf t.who.val) fun q => { q with granted := none, prevAgent := true, collide := false, dead := false }

/-! An update of a port is not seen by what looks at the registers, the requests and the responses only. -/

@[simp] theorem setPort_resps (s : State) (p : PortId) (f : Port → Port) : (setPort s p f).bus.resps = s.bus.resps := by cases p <;> rfl
@[simp] theorem setPort_nextReq (s : State) (p : PortId) (f : Port → Port) : (setPort s p f).bus.nextReq = s.bus.nextReq := by
  cases p <;> rfl
@[simp] theorem live_setPort (s : State) (p : PortId) (f : Port → Port) (n : Nat) : live (setPort s p f) n = live s n := by
  cases p <;> rfl
@[simp] theorem tagBusy_setPort (s : State) (p : PortId) (f : Port → Port) (who : Nat) (tag : BitVec 2) :
    tagBusy (setPort s p f) who tag = tagBusy s who tag := by cases p <;> rfl
@[simp] theorem lockAhead_setPort (s : State) (p : PortId) (f : Port → Port) (who : Nat) :
    lockAhead (setPort s p f) who = lockAhead s who := by cases p <;> rfl
@[simp] theorem lockName_setPort (s : State) (p : PortId) (f : Port → Port) (a : Nat) : lockName (setPort s p f) a = lockName s a := by
  cases p <;> rfl
@[simp] theorem watchBusy_setPort (s : State) (p : PortId) (f : Port → Port) (who : Nat) :
    watchBusy (setPort s p f) who = watchBusy s who := by cases p <;> rfl
@[simp] theorem sequenceCode_setPort (s : State) (p : PortId) (f : Port → Port) (t : Tenure) (c : ReqCmd) :
    sequenceCode (setPort s p f) t c = sequenceCode s t c := by simp [sequenceCode, lockViolation]
@[simp] theorem decodeOf_setPort (s : State) (p : PortId) (f : Port → Port) (t : Tenure) (c : ReqCmd) :
    decodeOf (setPort s p f) t c = decodeOf s t c := by cases p <;> rfl
@[simp] theorem isHalted_setPort (s : State) (p : PortId) (f : Port → Port) (who : Nat) :
    isHalted (setPort s p f) who = isHalted s who := by cases p <;> rfl
@[simp] theorem brokenRecord_setPort (s : State) (p : PortId) (f : Port → Port) (who : Nat) (c : ReqCmd) (attr : Reg32) (cb : Nat) :
    brokenRecord (setPort s p f) who c attr cb = brokenRecord s who c attr cb := by cases p <;> rfl
@[simp] theorem admitsAs_setPort (s : State) (p : PortId) (f : Port → Port) (t : Tenure) (c : ReqCmd) :
    admitsAs (setPort s p f) t c = admitsAs s t c := by simp [admitsAs]
@[simp] theorem silenced_setPort (s : State) (p : PortId) (f : Port → Port) (who : Nat) :
    silenced (setPort s p f) who = silenced s who := by cases p <;> rfl
@[simp] theorem countable_setPort (s : State) (p : PortId) (f : Port → Port) : countable (setPort s p f) = countable s := by
  cases p <;> rfl
@[simp] theorem owed_setPort (s : State) (p : PortId) (f : Port → Port) : owed (setPort s p f) = owed s := by cases p <;> rfl

theorem numbered_setPort {s : State} (p : PortId) (f : Port → Port) (h : s.numbered) : (setPort s p f).numbered := by cases p <;> exact h

section
variable {s : State} {t : Tenure} {c : ReqCmd}

theorem goodTenure.due (hs : s.up) (h : goodTenure s t c) : tenureDue s t = true := by
  obtain ⟨⟨hg, hc, -, ht, -⟩, -⟩ := h
  simp [tenureDue, isOn, hs.2, hg, hc, ht]

theorem goodTenure.fits (h : goodTenure s t c) : tenureFits c t = true := by
  obtain ⟨-, -, hc, -⟩ := h
  simp [tenureFits, hc]

theorem goodTenure.answerable (h : goodTenure s t c) : silenced s t.who.val = false := by
  obtain ⟨⟨-, -, -, -, hs⟩, -⟩ := h
  exact hs

theorem goodTenure.effect (h : goodTenure s t c) : tenureEffect s t = acceptReq (endTenure s t) t c := by
  obtain ⟨⟨-, -, hd, hx, hs⟩, h0, hc, hq, hu⟩ := h
  have hi : inReset s t.who.val = false := (Bool.or_eq_false_iff.1 hs).1
  have hu' : (t.urg && h0Class t.h0.ad != 0) = false := by rcases hu with hu | hu <;> simp [hu]
  have hr : tenureRequest (endTenure s t) t = acceptReq (endTenure s t) t c := by
    simp [tenureRequest, hc, endTenure, hq, hu']
  rw [← hr]
  simp [tenureEffect, hi, hd, hx, h0, endTenure]

/-- What waits goes on after the effect of a good tenure. -/
theorem goodTenure.runs {i : Instr} (hi : rowTenure i = some (t, c)) (hs : s.up) (h : goodTenure s t c) :
    exec i s = .next (settle (tenureEffect s t)) := by
  rw [exec_of_rowTenure hi, requestRow, if_pos h.fits, guarded_of_defined hs.1, tenureRow, when, if_pos (h.due hs)]

end

/-! ## A request takes its number and its place -/

/-- The list of requests takes one more, with the next number. -/
def queueReq (s : State) (r : Req) : State := addReq { s with bus := { s.bus with nextReq := s.bus.nextReq + 1 } } r

theorem owed_queueReq {s : State} {r : Req} (hw : r.who < 12) (ha : r.answered = false) (hs : silenced s r.who = false) :
    owed (queueReq s r) = owed s ++ [admitted r] := by
  show ((s.bus.reqs ++ [r]).filter fun r => _ && _ && !silenced s r.who).map admitted = _
  simp [owed, List.filter_append, hw, ha, hs]

/-- A response changes requests, and adds to the responses. -/
theorem respond_eq (s : State) (id : Nat) (rsp : Rsp) (b : List Beat64) (cb : Option Nat) :
    ∃ l m, respond s id rsp b cb = { s with bus := { s.bus with reqs := l, resps := s.bus.resps ++ m } } := by
  have same : ∃ l m, s = { s with bus := { s.bus with reqs := l, resps := s.bus.resps ++ m } } :=
    ⟨s.bus.reqs, [], by rw [List.append_nil]⟩
  unfold respond
  split
  · exact same
  · split
    · exact same
    · split
      · exact same
      · split
        · exact ⟨_, [], by rw [List.append_nil]; rfl⟩
        · exact ⟨s.bus.reqs, _, rfl⟩

/-- Nothing waiting was ever given the next number. -/
theorem getReq_queueReq {s : State} {r : Req} (hn : s.numbered) (hr : r.id = s.bus.nextReq) :
    getReq (queueReq s r) s.bus.nextReq = some r := by
  have hnone : s.bus.reqs.find? (·.id == s.bus.nextReq) = none :=
    List.find?_eq_none.2 fun q hq => by simpa using (hn.1 q hq).ne
  show (s.bus.reqs ++ [r]).find? _ = _
  simp [List.find?_append, hnone, hr]

theorem not_responded_queueReq {s : State} {r : Req} (hn : s.numbered) (hr : r.id = s.bus.nextReq) (ha : r.answered = false) :
    responded (queueReq s r) r = false := by
  have : ∀ q ∈ s.bus.resps, q.req ≠ some r.id := fun q hq he => (hn.2 q hq _ he).ne hr
  show (r.answered || s.bus.resps.any (·.req == some r.id)) = false
  simpa [ha] using this

/-! ## A request that is only answered -/

section
variable {s : State} {t : Tenure}

theorem answerNow_ext (s : State) (t : Tenure) (c : ReqCmd) (rsp : Rsp) :
    Ext (queueReq s (blankReq t c s.bus.nextReq)) (answerNow s t c rsp) :=
  respond_ext _ _ _ _ (.refl _)

theorem owed_answerNow (c : ReqCmd) (rsp : Rsp) (hs : silenced s t.who.val = false) :
    owed (answerNow s t c rsp) = owed s ++ [blankReq t c s.bus.nextReq] :=
  (answerNow_ext s t c rsp).owed.trans (owed_queueReq t.who.isLt rfl hs)

theorem answerNow_qtk (s : State) (t : Tenure) (c : ReqCmd) (rsp : Rsp) : (answerNow s t c rsp).qtk = s.qtk := by
  obtain ⟨l, m, he⟩ := respond_eq (queueReq s (blankReq t c s.bus.nextReq)) s.bus.nextReq rsp [] none
  show (respond (queueReq s (blankReq t c s.bus.nextReq)) s.bus.nextReq rsp [] none).qtk = _
  rw [he]
  rfl

/-- The answer is without data and not counted, and waits for its tenure. -/
theorem answerNow_resps (c : ReqCmd) (rsp : Rsp) (hn : s.numbered) (hs : silenced s t.who.val = false) :
    (answerNow s t c rsp).bus.resps = s.bus.resps ++ [bareAnswer t rsp s.bus.nextReq] := by
  have hr := getReq_queueReq (r := blankReq t c s.bus.nextReq) hn rfl
  have ha := not_responded_queueReq (r := blankReq t c s.bus.nextReq) hn rfl rfl
  have hw : (blankReq t c s.bus.nextReq).who ≠ 12 := t.who.isLt.ne
  have hq : ¬ silenced (queueReq s (blankReq t c s.bus.nextReq)) (blankReq t c s.bus.nextReq).who = true :=
    ne_true_of_eq_false hs
  show (respond (queueReq s (blankReq t c s.bus.nextReq)) s.bus.nextReq rsp [] none).bus.resps = _
  rw [respond, hr]
  dsimp only
  rw [ha, if_neg Bool.false_ne_true, if_neg hw, if_neg hq]
  rfl

end

/-! ## A request that is admitted -/

/-- The three ways of admission in class `k` (08 R193): another class, class 0 counted, and class 0 demoted. -/
theorem admitClass_cases (s : State) (k : Nat) :
    (k ≠ 0 ∧ admitClass s k = (s, false, k)) ∨
    (k = 0 ∧ countable s = true ∧
      admitClass s k = (count { s with qtk := { s.qtk with budget := s.qtk.budget - 1 } } cntC0, true, 0)) ∨
    (k = 0 ∧ countable s = false ∧ admitClass s k = (count s cntDemote, false, 1)) := by
  unfold admitClass
  split_ifs with hk hc
  · exact .inl ⟨hk, rfl⟩
  · exact .inr (.inl ⟨not_not.1 hk, hc, rfl⟩)
  · exact .inr (.inr ⟨not_not.1 hk, eq_false_of_ne_true hc, rfl⟩)

theorem admitClass_class (s : State) (k : Nat) :
    (admitClass s k).2 = (k == 0 && countable s, if k = 0 then (if countable s then 0 else 1) else k) := by
  obtain ⟨hk, h⟩ | ⟨rfl, hc, h⟩ | ⟨rfl, hc, h⟩ := admitClass_cases s k
  · simp [h, hk]
  · simp [h, hc]
  · simp [h, hc]

theorem admitClass_bus (s : State) (k : Nat) : (admitClass s k).1.bus = s.bus := by
  obtain ⟨-, h⟩ | ⟨-, -, h⟩ | ⟨-, -, h⟩ := admitClass_cases s k <;> rw [h] <;> rfl

theorem admitClass_budget (s : State) (k : Nat) :
    (admitClass s k).1.qtk.budget = s.qtk.budget - (if k == 0 && countable s then 1 else 0) := by
  obtain ⟨hk, h⟩ | ⟨rfl, hc, h⟩ | ⟨rfl, hc, h⟩ := admitClass_cases s k
  · simp [h, hk]
  · simp [h, hc, count]
  · simp [h, hc, count]

theorem live_admitClass_c0 (s : State) (k : Nat) :
    live (admitClass s k).1 cntC0 = live s cntC0 + (if k == 0 && countable s then 1 else 0) := by
  obtain ⟨hk, h⟩ | ⟨rfl, hc, h⟩ | ⟨rfl, hc, h⟩ := admitClass_cases s k
  · simp [h, hk]
  · rw [h, live_count_self]
    simp [hc, live]
  · rw [h, live_count_ne _ (by decide)]
    simp [hc]

theorem live_admitClass_demote (s : State) (k : Nat) :
    live (admitClass s k).1 cntDemote = live s cntDemote + (if k = 0 ∧ countable s = false then 1 else 0) := by
  obtain ⟨hk, h⟩ | ⟨rfl, hc, h⟩ | ⟨rfl, hc, h⟩ := admitClass_cases s k
  · simp [h, hk]
  · rw [h, live_count_ne _ (by decide)]
    simp [hc, live]
  · rw [h, live_count_self]
    simp [hc]

/-- Counting the class comes to the same after the request has its place: budget and counters are nothing that `Ext` holds fixed. -/
theorem queueReq_admitClass_ext (s : State) (k : Nat) (r : Req) : Ext (queueReq s r) (queueReq (admitClass s k).1 r) := by
  obtain ⟨-, h⟩ | ⟨-, -, h⟩ | ⟨-, -, h⟩ := admitClass_cases s k
  · rw [h]
    exact .refl _
  · rw [h]
    exact count_ext (s := { queueReq s r with qtk := { s.qtk with budget := s.qtk.budget - 1 } }) mem_cntC0 { Ext.refl (queueReq s r) with }
  · rw [h]
    exact count_ext mem_cntDemote (Ext.refl (queueReq s r))

/-- The entry of the list of requests that an admitted request gets; `k` says whether it is counted, and its class. -/
def entryOf (s : State) (t : Tenure) (c : ReqCmd) (m : Mark) (target : Target) (pool : Nat) (k : Bool × Nat) : Req :=
  let r := { blankReq t c s.bus.nextReq with mark := m, cls := k.2, counted := k.1, pool := pool, target := target,
                                             phase := .order, queued := takesQueue c }
  if takesQueue c && !heldFull s r then { r with phase := .queue } else r

theorem admitReq_eq (s : State) (t : Tenure) (c : ReqCmd) (m : Mark) (target : Target) (pool k : Nat) :
    admitReq s t c m target pool k =
      (let a := (admitClass s k).1
       let r := entryOf a t c m target pool (admitClass s k).2
       if r.phase = .queue && answerAtOnce r then respond (queueReq a r) a.bus.nextReq .ok [] none else queueReq a r) := rfl

section
variable (s : State) (t : Tenure) (c : ReqCmd) (m : Mark) (target : Target) (pool k : Nat)

theorem entryOf_who (x : Bool × Nat) : (entryOf s t c m target pool x).who = t.who.val := (apply_ite Req.who ..).trans (ite_self _)

theorem entryOf_answered (x : Bool × Nat) : (entryOf s t c m target pool x).answered = false :=
  (apply_ite Req.answered ..).trans (ite_self _)

/-- What stays of it is what the tenure gave, with what decode and admission found. -/
theorem admitted_entryOf (x : Bool × Nat) : admitted (entryOf s t c m target pool x) =
    { blankReq t c s.bus.nextReq with target := target, pool := pool, counted := x.1, cls := x.2 } :=
  (apply_ite admitted ..).trans (ite_self _)

/-- Admission is no more than the entry in the list of requests, and what `Ext` allows: class counting, and an answer at once. -/
theorem admitReq_ext :
    Ext (queueReq s (entryOf (admitClass s k).1 t c m target pool (admitClass s k).2)) (admitReq s t c m target pool k) := by
  have h := queueReq_admitClass_ext s k (entryOf (admitClass s k).1 t c m target pool (admitClass s k).2)
  exact ite_ext (respond_ext _ _ _ _ h) h

/-- On budget and counters admission is `admitClass`, and it takes no response away. -/
theorem admitReq_eq_admitClass : (admitReq s t c m target pool k).qtk = (admitClass s k).1.qtk ∧
    (∀ n, live (admitReq s t c m target pool k) n = live (admitClass s k).1 n) ∧
    s.bus.resps <+: (admitReq s t c m target pool k).bus.resps := by
  rw [← admitClass_bus s k, admitReq_eq]
  dsimp only
  split
  · obtain ⟨l, x, h⟩ := respond_eq (queueReq (admitClass s k).1 (entryOf (admitClass s k).1 t c m target pool (admitClass s k).2))
      (admitClass s k).1.bus.nextReq .ok [] none
    rw [h]
    exact ⟨rfl, fun _ => rfl, List.prefix_append ..⟩
  · exact ⟨rfl, fun _ => rfl, List.prefix_refl _⟩

variable {s t c} in
theorem owed_admitReq (hs : silenced s t.who.val = false) : owed (admitReq s t c m target pool k) =
    owed s ++ [{ blankReq t c s.bus.nextReq with target := target, pool := pool, counted := k == 0 && countable s,
                                                 cls := if k = 0 then (if countable s then 0 else 1) else k }] := by
  rw [(admitReq_ext s t c m target pool k).owed, owed_queueReq _ (entryOf_answered ..), admitted_entryOf, admitClass_class, admitClass_bus]
  · rwa [entryOf_who]
  · rw [entryOf_who]
    exact t.who.isLt

end

/-! ## What decode lets through, and what is answered at once (01 R28) -/

section
variable {s : State} {t : Tenure} {c : ReqCmd}

theorem acceptReq_of_admits {target : Target} {pool k : Nat} (h : admitsAs s t c = some (target, pool, k)) :
    acceptReq s t c = admitReq s t c ((markOf (h0Mark t.h0.ad)).getD .none) target pool k := by
  unfold admitsAs at h
  split_ifs at h with hh hb
  · cases h
    simp [acceptReq, hh, hb]
  · cases hd : decodeOf s t c <;> rw [hd] at h <;> unfold decodeOf at hd
    case refuse => cases h
    case window =>
      cases h
      simp [acceptReq, hh, hb, hd]
    case region =>
      dsimp only at h
      split_ifs at h with hr
      cases h
      simp [acceptReq, hh, hb, hd, hr]

theorem acceptReq_of_halted (h : isHalted s t.who.val = true) : acceptReq s t c = answerNow s t c .channelHalted := if_pos h

theorem acceptReq_of_refuse {rsp : Rsp} {why : Option Nat} (hh : isHalted s t.who.val = false) (hb : c ≠ .barrier)
    (hd : decodeOf s t c = .refuse rsp why) : acceptReq s t c = refuseReq s t c rsp why := by
  unfold decodeOf at hd
  simp [acceptReq, hh, hb, hd]

theorem acceptReq_of_broken {n pool : Nat} {attr : Reg32} (hh : isHalted s t.who.val = false) (hb : c ≠ .barrier)
    (hd : decodeOf s t c = .region n attr pool) (hr : brokenRecord s t.who.val c attr (cbOf pool) = true) :
    acceptReq s t c = answerNow (clearRecord s (cbOf pool)) t c .lockBroken := by
  unfold decodeOf at hd
  simp [acceptReq, hh, hb, hd, hr]

end

/-! ## What a good tenure and the work that waits leave -/

theorem Ext.port {a s : State} (h : Ext a s) (p : PortId) : port s p = port a p := by
  cases p
  · exact congrArg (fun x => x.bus.portA) h.fixed
  · exact congrArg (fun x => x.bus.portB) h.fixed

theorem port_congr {a b : State} (h : b.bus = a.bus) (p : PortId) : port b p = port a p := by
  cases p
  · exact congrArg Bus.portA h
  · exact congrArg Bus.portB h

/-- Whatever request a good tenure put in the list, its port is as the end of the tenure left it. -/
theorem port_after_tenure {s b z : State} {t : Tenure} {r : Req} (hb : b.bus = (endTenure s t).bus) (hz : Ext (queueReq b r) z) :
    (port z (portOf t.who.val)).granted = none ∧ (port z (portOf t.who.val)).prevAgent = true := by
  have hq : port (queueReq b r) (portOf t.who.val) = port b (portOf t.who.val) := by cases portOf t.who.val <;> rfl
  rw [hz.port, hq, port_congr hb, endTenure, port_setPort, if_pos rfl]
  exact ⟨rfl, rfl⟩

/-- Settles O13: a good tenure comes to `admitReq` (`acceptReq_of_admits`), which puts the request in the list (`owed_admitReq`) and
counts it (`admitReq_eq_admitClass`); all else is as `Ext` and the end of the tenure leave it. -/
theorem goodTenureIsAdmitted : Obligations.GoodTenureIsAdmitted := by
  intro i t c s target pool k hi hs hg ha
  set m := (markOf (h0Mark t.h0.ad)).getD .none
  have he : tenureEffect s t = admitReq (endTenure s t) t c m target pool k :=
    hg.effect.trans (acceptReq_of_admits ((admitsAs_setPort ..).trans ha))
  have hz := settle_ext (he ▸ admitReq_ext (endTenure s t) t c m target pool k)
  have hsil : silenced (endTenure s t) t.who.val = false := (silenced_setPort ..).trans hg.answerable
  have howed := owed_admitReq (c := c) m target pool k hsil
  obtain ⟨hqtk, hlive, hresps⟩ := admitReq_eq_admitClass (endTenure s t) t c m target pool k
  rw [← he] at howed hqtk hlive hresps
  obtain ⟨hgrant, hprev⟩ := port_after_tenure rfl hz
  refine ⟨_, hg.runs hi hs, ⟨?_, settle_extends _, ?_, ?_, ?_, ?_⟩, hgrant, hprev, ?_, ?_, ?_, ?_, ?_⟩
  · simpa [endTenure] using (settle_extends _).owed.trans howed
  · simp [hqtk, admitClass_budget, endTenure]
  · simp [hlive, live_admitClass_c0, endTenure]
  · simp [hlive, live_admitClass_demote, endTenure]
  · simpa [endTenure] using hresps
  · exact (hz.cfg Cfg.regs).trans (congrArg Cfg.regs (setPort_cfg ..))
  · exact (congrArg (fun x => x.prb.unresp) hz.fixed).trans (congrArg Prb.unresp (setPort_prb ..))
  · exact hz.vlt.trans (setPort_vlt ..)
  · exact (congrArg (fun x => x.icb) hz.fixed).trans (setPort_icb ..)
  · exact hz.pwr.trans (setPort_pwr ..)

/-- What follows when a good tenure is only answered; `b` is the state in which it is: the end of the tenure, with what the answer itself
logs or clears. -/
theorem goodTenure.answered {i : Instr} {s b : State} {t : Tenure} {c : ReqCmd} {rsp : Rsp} (hi : rowTenure i = some (t, c)) (hd : s.sound)
    (hs : s.up) (hg : goodTenure s t c) (he : tenureEffect s t = answerNow b t c rsp) (hb : b.bus = (endTenure s t).bus)
    (hq : b.qtk = (endTenure s t).qtk) (hr : b.cfg.regs = (endTenure s t).cfg.regs) (hv : b.vlt = (endTenure s t).vlt) :
    ∃ z, exec i s = .next z ∧ Ext (tenureEffect s t) z ∧
      (tenureEffect s t).bus.resps = s.bus.resps ++ [bareAnswer t rsp s.bus.nextReq] ∧ (tenureEffect s t).qtk.budget = s.qtk.budget ∧
      owed z = owed s ++ [blankReq t c s.bus.nextReq] ∧ (port z (portOf t.who.val)).granted = none ∧
      z.cfg.regs = s.cfg.regs ∧ z.vlt = s.vlt := by
  obtain ⟨-, -, -, -, -, -, -, -, hn⟩ := hd
  have hz := settle_ext (he ▸ answerNow_ext b t c rsp)
  have hreg (p : PortId) : reg b (rAgpCfg p) = reg (endTenure s t) (rAgpCfg p) := congrArg (mget resetVal · _) hr
  have hsil : silenced b t.who.val = false := by
    rw [silenced_congr (congrArg Bus.rsns hb) hreg, endTenure, silenced_setPort, hg.answerable]
  have hnum : b.numbered := by
    rw [State.numbered, hb]
    exact numbered_setPort _ _ hn
  refine ⟨_, hg.runs hi hs, settle_extends _, ?_, ?_, ?_, (port_after_tenure hb hz).1, ?_, ?_⟩
  · rw [he, answerNow_resps c rsp hnum hsil, hb, endTenure, setPort_resps, setPort_nextReq]
  · rw [he, answerNow_qtk, hq, endTenure, setPort_qtk]
  · rw [(settle_extends _).owed, he, owed_answerNow c rsp hsil, owed_congr hb hreg, hb, endTenure, owed_setPort, setPort_nextReq]
  · exact (hz.cfg Cfg.regs).trans (hr.trans (congrArg Cfg.regs (setPort_cfg ..)))
  · exact hz.vlt.trans (hv.trans (setPort_vlt ..))

theorem goodTenure.refused {s : State} {t : Tenure} {c : ReqCmd} {rsp : Rsp} {why : Option Nat} (hg : goodTenure s t c)
    (hh : isHalted s t.who.val = false) (hb : c ≠ .barrier) (hd : decodeOf s t c = .refuse rsp why) :
    tenureEffect s t = refuseReq (endTenure s t) t c rsp why :=
  hg.effect.trans (acceptReq_of_refuse ((isHalted_setPort ..).trans hh) hb ((decodeOf_setPort ..).trans hd))

/-- The decode log of a refusal with a reason (01 R29): no work that waits writes it. -/
theorem goodTenure.logged {i : Instr} {s : State} {t : Tenure} {c : ReqCmd} {rsp : Rsp} {reason : Nat} (hi : rowTenure i = some (t, c))
    (hs : s.up) (hg : goodTenure s t c)
    (he : tenureEffect s t = answerNow (decodeLog (endTenure s t) t.who.val (h0Addr t.h0.ad) reason) t c rsp) :
    ∃ z, exec i s = .next z ∧ live z cntDecode = live s cntDecode + 1 ∧
      z.cch.dlog0 = (h0Addr t.h0.ad).extractLsb' 0 32 ∧
      z.cch.dlog1 = word [(24, (fld s.cch.dlog1 31 24 + 1) % 256), (20, t.who.val), (16, reason), (0, fld (h0Addr t.h0.ad) 47 32)] := by
  have hz := settle_ext (he ▸ answerNow_ext _ t c rsp)
  refine ⟨_, hg.runs hi hs, ?_, congrArg (fun x => x.cch.dlog0) hz.fixed, ?_⟩
  · exact (hz.counts _ (by decide)).trans ((live_count_self ..).trans (congrArg (· + 1) (live_setPort ..)))
  · rw [← show (endTenure s t).cch = s.cch from setPort_cch ..]
    exact congrArg (fun x => x.cch.dlog1) hz.fixed

/-- Settles O14: what is answered at once comes to `answerNow`, in the state at the end of the tenure, with the decode log or without the
record of the broken lock (`acceptReq_of_halted`, `acceptReq_of_refuse`, `acceptReq_of_broken`). -/
theorem goodTenureIsRefused : Obligations.GoodTenureIsRefused := by
  intro i t c s hi hd hs hg
  refine ⟨fun rsp h => ?_, fun rsp reason hh hb hdec => hg.logged hi hs (hg.refused hh hb hdec)⟩
  split at h
  · next hh =>
    subst h
    exact hg.answered hi hd hs (hg.effect.trans (acceptReq_of_halted ((isHalted_setPort ..).trans hh))) rfl rfl rfl rfl
  · next hh =>
    have hh := eq_false_of_ne_true hh
    obtain ⟨hb, h⟩ := h
    split at h
    · next r why hdec =>
      subst h
      have he := hg.refused hh hb hdec
      cases why with
      | none => exact hg.answered hi hd hs he rfl rfl rfl rfl
      | some reason => exact hg.answered hi hd hs he rfl rfl rfl rfl
    · exact h.elim
    · next hdec =>
      obtain ⟨hr, rfl⟩ := h
      exact hg.answered hi hd hs (hg.effect.trans (acceptReq_of_broken ((isHalted_setPort ..).trans hh) hb
        ((decodeOf_setPort ..).trans hdec) ((brokenRecord_setPort ..).trans hr))) rfl rfl rfl rfl

end Sys2Proof.Machine

/-! SUPPORT. Proofs of the statements of `02_agent_bus.md`: the ports, their arbiter and their violations, reset sense, and the performing
pass of ATOMIC and LOCK_READ. -/

namespace Sys2Proof.Machine
set_option Elab.async false

/-! ## The response header (02 R53) -/

theorem rspCode_lt (r : Rsp) : rspCode r < 16 := by cases r <;> decide

theorem fld_eq {w : Nat} (x : BitVec w) (hi lo : Nat) : fld x hi lo = x.toNat / 2 ^ lo % 2 ^ (hi + 1 - lo) := by
  rw [fld, BitVec.extractLsb'_toNat, Nat.shiftRight_eq_div_pow]

theorem decide_eq_of_toNat {n : Nat} {b : Bool} (h : n = b.toNat) : decide (n = 1) = b := by
  subst h
  cases b <;> rfl

/-- RH as the sum of its fields in their places, none of which reaches into the next. -/
theorem rhOf_toNat {r : Resp} (retry : Bool) (hl : r.beats.length ≤ 8) (hw : r.who < 12) : (rhOf r retry).toNat =
    32768 * r.untagged.toNat + 16384 * retry.toNat + 1024 * r.beats.length + 64 * rspCode r.rsp +
      16 * (if r.untagged then 0 else r.tag).toNat + r.who := by
  have hc := rspCode_lt r.rsp
  have ht : r.tag.toNat < 4 := r.tag.isLt
  simp only [rhOf, BitVec.toNat_ofNat, Nat.shiftLeft_eq]
  cases r.untagged <;> cases retry <;> simp <;> omega

/-- Settles O18: each field is a quotient and remainder of the sum `rhOf_toNat`. -/
theorem responseHeaderLayout : Obligations.ResponseHeaderLayout := by
  intro r retry hl hw
  have hn := rhOf_toNat retry hl hw
  have hc := rspCode_lt r.rsp
  have ht : (if r.untagged then 0 else r.tag).toNat < 4 := BitVec.isLt _
  have hu := r.untagged.toNat_lt
  have hy := retry.toNat_lt
  simp only [fld_eq, BitVec.getLsbD, Nat.testBit_eq_decide_div_mod_eq, hn]
  refine ⟨BitVec.eq_of_toNat_eq ?_, ?_, ?_, by omega, by omega, BitVec.eq_of_toNat_eq ?_, by omega⟩
  · show _ = 0
    rw [BitVec.extractLsb'_toNat, hn, Nat.shiftRight_eq_div_pow]
    omega
  · exact decide_eq_of_toNat (by omega)
  · exact decide_eq_of_toNat (by omega)
  · rw [BitVec.extractLsb'_toNat, hn, Nat.shiftRight_eq_div_pow]
    omega

/-! ## The rules of a port, a violation and a parity error in a buffer -/

theorem eq_of_guarded {s t : State} {f : State → State} (h : guarded s f = .next t) : f s = t := by
  unfold guarded at h
  split at h
  · cases h
  · cases h
    rfl

@[simp] theorem setPort_reqs (s : State) (p : PortId) (f : Port → Port) : (setPort s p f).bus.reqs = s.bus.reqs := by cases p <;> rfl
@[simp] theorem setPort_rsns (s : State) (p : PortId) (f : Port → Port) : (setPort s p f).bus.rsns = s.bus.rsns := by cases p <;> rfl
@[simp] theorem setPort_rsnsPin (s : State) (p : PortId) (f : Port → Port) : (setPort s p f).bus.rsnsPin = s.bus.rsnsPin := by
  cases p <;> rfl

@[simp] theorem port_emit (s : State) (o : Out) (p : PortId) : port (emit s o) p = port s p := rfl
@[simp] theorem port_setPort_self (s : State) (p : PortId) (f : Port → Port) : port (setPort s p f) p = f (port s p) :=
  (port_setPort ..).trans (if_pos rfl)
@[simp] theorem port_setQuiet (s : State) (p : PortId) (b : Bool) : port (setQuiet s p b) p = { port s p with quiet := b } :=
  port_setPort_self ..

/-- The log of a port after a violation (02 R64). -/
def logged (who : Nat) (v : VSeen) (code : Nat) (q : Port) : Port :=
  { q with
    vlog0 := (v.addr.getD 0).setWidth 32
    vlog1 := put (put (put (put (put (put q.vlog1 31 24 ((fld q.vlog1 31 24 + 1) % 256)) 23 20 who) 19 18 (v.tag.getD 0).toNat)
        17 17 (if v.tag.isSome then 1 else 0)) 16 16 (if v.addr.isSome then 1 else 0)) 15 0 (fld (v.addr.getD 0) 47 32)
    vcode := BitVec.ofNat 8 code }

section
variable (s : State) (p : PortId) (who : Nat) (v : VSeen) (code : Nat)

@[simp] theorem violation_bus : (violation s p who v code).bus = (setPort s p (logged who v code)).bus := rfl
@[simp] theorem violation_out : (violation s p who v code).out = s.out := setPort_out ..
@[simp] theorem violation_vlt : (violation s p who v code).vlt = s.vlt := setPort_vlt ..
@[simp] theorem violation_regs : (violation s p who v code).cfg.regs = s.cfg.regs := by
  cases p <;> rfl

theorem live_violation_self : live (violation s p who v code) (codeCounter p code) = live s (codeCounter p code) + 1 :=
  (live_count_self ..).trans (congrArg (· + 1) (live_setPort ..))

/-- The codes above the format rows are counted as sequence violations (02 R62). -/
theorem codeCounter_of_gt {code : Nat} (h : 0x0D < code) : codeCounter p code = cntAgpSeq p := by
  rw [codeCounter, if_neg (by omega), if_neg (by omega)]

theorem port_violation_self : port (violation s p who v code) p = logged who v code (port s p) := port_setPort_self ..

/-- A violation changes the bus block, the counters and the interrupt sources alone. -/
theorem violation_frame : { violation s p who v code with bus := s.bus, cfg := s.cfg, err := s.err } = s := by cases p <;> rfl

end

/-! ## Arbitration (02 R39, R40) -/

/-! ### Round robin -/

theorem roundRobin_eq_none {last : Nat} {ok : Nat → Bool} (h : ∀ k, k < 6 → ok k = false) : roundRobin last ok = none := by
  rw [roundRobin, List.find?_eq_none]
  intro k hk
  obtain ⟨i, -, rfl⟩ := List.mem_map.1 hk
  exact ne_true_of_eq_false (h _ (Nat.mod_lt _ (by decide)))

theorem ok_of_roundRobin {last k : Nat} {ok : Nat → Bool} (h : roundRobin last ok = some k) : ok k = true :=
  List.find?_some (p := ok) h

/-- It takes the first pair after `last` that may be taken. -/
theorem roundRobin_of_first {last k : Nat} {ok : Nat → Bool} (h : ∃ i, i < 6 ∧ k = (last + 1 + i) % 6 ∧ ok k = true ∧
    ∀ j, j < i → ok ((last + 1 + j) % 6) = false) : roundRobin last ok = some k := by
  obtain ⟨i, hi, rfl, hk, hj⟩ := h
  have : (List.range 6).find? (ok ∘ fun i => (last + 1 + i) % 6) = some i :=
    List.find?_range_eq_some.2 ⟨hk, List.mem_range.2 hi, fun j h => by simp [hj j h]⟩
  rw [roundRobin, List.find?_map, this, Option.map_some]

/-! ### What a handover starts -/

theorem eligible_iff {s : State} {p : PortId} {pins : PortPins} {k : Nat} (h : eligible s p pins k = true) :
    portEn s p = true ∧ attached s (whoAt p k) = true ∧ pins.req.getLsbD k = true ∧ inReset s (whoAt p k) = false ∧
    (storeQueue s (whoAt p k)).length < 8 ∧ (port s p).untag.getLsbD k = false := by
  simp only [eligible, Bool.and_eq_true, Bool.not_eq_true', decide_eq_true_eq] at h
  obtain ⟨⟨⟨⟨⟨⟨⟨he, ha⟩, hq⟩, hr⟩, hs⟩, hu⟩, -⟩, -⟩ := h
  exact ⟨he, ha, hq, hr, hs, hu⟩

theorem eligible_atLaunch (s : State) (p : PortId) (pins : PortPins) (k : Nat) :
    eligible (atLaunch s p) p pins k = eligible s p pins k := by
  unfold atLaunch
  split <;> rfl

/-- Only an eligible pair is chosen. -/
theorem eligible_of_arbitrate {s : State} {p : PortId} {pins : PortPins} {k : Nat} {u : Bool} (h : arbitrate s p pins = .grant k u) :
    eligible s p pins k = true := by
  unfold arbitrate at h
  extract_lets q ready any at h
  split at h
  · split at h <;> cases h
  · cases h
  · split at h
    · next hr =>
      cases h
      exact (Bool.and_eq_true_iff.1 (ok_of_roundRobin hr)).1
    · split at h <;> cases h
      next hr =>
      obtain ⟨-, hr⟩ := Option.ite_none_right_eq_some.1 hr
      exact ok_of_roundRobin hr

/-- The grant row leaves the state as it is, or grants an eligible pair. -/
theorem grantRow_cases (s : State) (p : PortId) (pins : PortPins) (h0 : H0Cycle) : grantRow s p pins h0 = s ∨
    ∃ k u, eligible s p pins k = true ∧ grantRow s p pins h0 = grantPair s p k u h0 (!portFree s p pins) := by
  unfold grantRow
  extract_lets hit
  split
  · exact .inl rfl
  · split
    · next k u ha =>
      have he := eligible_of_arbitrate ha
      refine .inr ⟨k, u, ?_, rfl⟩
      split at he
      · rwa [eligible_atLaunch] at he
      · exact he
    · exact .inl rfl

/-- The port at a grant to pair `k`; `hit` when it is at the handover of an overrun. -/
def handedTo (k : Nat) (urgent hit : Bool) (q : Port) : Port :=
  { q with quiet := hit, launch := none, lastUrg := if urgent then k else q.lastUrg, lastAny := k }

theorem grantPair_driven (s : State) (p : PortId) (k : Nat) (u hit : Bool) : grantPair s p k u .driven hit =
    setPort (emit s (.grant p k)) p fun q => { handedTo k u hit q with granted := some k, collide := hit, dead := false } := by
  cases p <;> rfl

theorem grantPair_forfeited (s : State) (p : PortId) (k : Nat) (u asked hit : Bool) : grantPair s p k u (.forfeited asked) hit =
    if asked then violation (setPort (emit s (.grant p k)) p (handedTo k u hit)) p (whoAt p k) { tag := none, addr := none } 0x11
    else setPort (emit s (.grant p k)) p (handedTo k u hit) := rfl

theorem grantPair_out (s : State) (p : PortId) (k : Nat) (u : Bool) (h0 : H0Cycle) (hit : Bool) :
    (grantPair s p k u h0 hit).out = .grant p k :: s.out := by
  cases h0 with
  | driven => simp [grantPair_driven]
  | forfeited asked =>
    rw [grantPair_forfeited]
    split <;> simp

/-- Settles O16: a row that adds a grant to the trace has granted an eligible pair (`grantRow_cases`), and it is the pair of that grant. -/
theorem onlyEligiblePairsAreGranted : Obligations.OnlyEligiblePairsAreGranted := by
  intro s t p pins h0 k h ho
  obtain rfl : grantRow s p pins h0 = t := eq_of_guarded (f := fun s => grantRow s p pins h0) h
  obtain hs | ⟨k', u, he, hg⟩ := grantRow_cases s p pins h0
  · rw [hs] at ho
    exact absurd ho.symm (List.cons_ne_self _ _)
  · rw [hg, grantPair_out] at ho
    cases ho
    exact eligible_iff he

/-! ### The order of R40 -/

section
variable {s : State} {p : PortId} {pins : PortPins} (ha : (port s p).again = none)
include ha

theorem arbitrate_of_counted {r : Resp} (hc : (readyResps s p).find? (·.counted) = some r) : arbitrate s p pins = .respond r := by
  simp [arbitrate, ha, hc]

variable (hc : (readyResps s p).find? (·.counted) = none)
include hc

theorem arbitrate_of_urgent {k : Nat}
    (hu : roundRobin (port s p).lastUrg (fun k => eligible s p pins k && pins.urg.getLsbD k) = some k) :
    arbitrate s p pins = .grant k true := by
  simp [arbitrate, ha, hc, hu]

variable (hu : roundRobin (port s p).lastUrg (fun k => eligible s p pins k && pins.urg.getLsbD k) = none)
include hu

theorem arbitrate_after_agent {r : Resp} {l : List Resp} (hr : readyResps s p = r :: l) (hp : (port s p).prevAgent = true) :
    arbitrate s p pins = .respond r := by
  rw [hr] at hc
  simp [arbitrate, ha, hc, hu, hr, hp]

theorem arbitrate_of_eligible {k : Nat} (hf : s.pwr.fullRdy = true) (hk : roundRobin (port s p).lastAny (eligible s p pins) = some k)
    (hp : readyResps s p = [] ∨ (port s p).prevAgent = false) : arbitrate s p pins = .grant k false := by
  obtain hp | hp := hp
  · simp [arbitrate, ha, hu, hf, hk, hp]
  · simp [arbitrate, ha, hc, hu, hf, hk, hp]

theorem arbitrate_last {r : Resp} {l : List Resp} (hr : readyResps s p = r :: l)
    (hk : roundRobin (port s p).lastAny (eligible s p pins) = none) : arbitrate s p pins = .respond r := by
  rw [hr] at hc
  cases hp : (port s p).prevAgent <;> simp [arbitrate, ha, hc, hu, hk, hr, hp]

end

/-- A grant starts on a free port as soon as the arbiter chooses it. -/
theorem exec_grant_of_free {s : State} {p : PortId} {pins : PortPins} {k : Nat} {u : Bool} (hs : s.up) (hf : portFree s p pins = true)
    (ha : arbitrate s p pins = .grant k u) (h0 : H0Cycle) : exec (.grant p pins h0) s = .next (grantPair s p k u h0 false) := by
  refine (guarded_of_defined hs.1 fun s => grantRow s p pins h0).trans (congrArg _ ?_)
  simp [grantRow, hf, ha]

/-! ### Response tenures (02 R53, R54) -/

/-- A bucket's event changes the error block, and may be told to the engine. -/
theorem bucketEvent_eq (s : State) (n : Nat) : ∃ e g, bucketEvent s n = { s with err := e, eng := g } := by
  unfold bucketEvent event
  dsimp only
  split
  · exact ⟨_, s.eng, rfl⟩
  · split
    · exact ⟨_, _, rfl⟩
    · exact ⟨_, s.eng, rfl⟩

section
variable (s : State) (n : Nat)

@[simp] theorem bucketEvent_bus : (bucketEvent s n).bus = s.bus := by obtain ⟨_, _, h⟩ := bucketEvent_eq s n; rw [h]
@[simp] theorem bucketEvent_out : (bucketEvent s n).out = s.out := by obtain ⟨_, _, h⟩ := bucketEvent_eq s n; rw [h]
@[simp] theorem bucketEvent_wrb : (bucketEvent s n).wrb = s.wrb := by obtain ⟨_, _, h⟩ := bucketEvent_eq s n; rw [h]
@[simp] theorem bucketEvent_cfg : (bucketEvent s n).cfg = s.cfg := by obtain ⟨_, _, h⟩ := bucketEvent_eq s n; rw [h]

end

@[simp] theorem bufParity_bus (s : State) (k who : Nat) : (bufParity s k who).bus = s.bus := by simp [bufParity]
@[simp] theorem bufParity_out (s : State) (k who : Nat) : (bufParity s k who).out = s.out := by simp [bufParity]
@[simp] theorem bufParity_regs (s : State) (k who : Nat) : (bufParity s k who).cfg.regs = s.cfg.regs := by
  simp [bufParity, count, countN]

/-- The requests once the answer to `req` has had its tenure. -/
def markAnswered (l : List Req) (req : Option Nat) : List Req :=
  match req with
  | some i => updIf l (·.id == i) fun q => { q with answered := true }
  | none => l

/-- The port after a response tenure: `again` is the response that it must repeat. -/
def afterResponse (r : Resp) (again : Option Resp) (q : Port) : Port :=
  { q with prevAgent := false, launch := none, again := again, untag := if r.untagged then setBit q.untag (pairOf r.who) false else q.untag }

/-- What a response tenure does, but for the parity of its buffer. -/
def tenureSent (s : State) (p : PortId) (r : Resp) (collided : Bool) (upset : List Beat64) : State :=
  setPort { s with
    out := .response p { ad := rhOf r r.retry, adp := beatPar (rhOf r r.retry) } (respBeats r upset) :: s.out
    bus := { s.bus with reqs := markAnswered s.bus.reqs r.req, resps := s.bus.resps.erase r } }
    p (afterResponse r (if collided then some { r with retry := true } else none))

section
variable (s : State) (p : PortId) (r : Resp) (c : Bool) (upset : List Beat64)

theorem sendResp_eq : sendResp s p r c upset =
    if (respBeats r upset).any fun b => badBytes b != 0 then bufParity (tenureSent s p r c upset) 5 r.who else tenureSent s p r c upset := by
  unfold sendResp tenureSent markAnswered
  cases r.req <;> rfl

theorem sendResp_bus : (sendResp s p r c upset).bus = (tenureSent s p r c upset).bus := by
  rw [sendResp_eq]
  split
  · exact bufParity_bus ..
  · rfl

theorem sendResp_regs : (sendResp s p r c upset).cfg.regs = s.cfg.regs := by
  rw [sendResp_eq]
  split <;> simp [tenureSent]

/-- The header and the beats go out. -/
theorem sendResp_out : (sendResp s p r c upset).out =
    .response p { ad := rhOf r r.retry, adp := beatPar (rhOf r r.retry) } (respBeats r upset) :: s.out := by
  rw [sendResp_eq]
  split <;> simp [tenureSent]

theorem port_sendResp : port (sendResp s p r c upset) p =
    afterResponse r (if c then some { r with retry := true } else none) (port s p) := by
  rw [port_congr (sendResp_bus ..), tenureSent, port_setPort, if_pos rfl]
  cases p <;> rfl

end

theorem mem_owed {s : State} {q : Req} (h : q ∈ owed s) :
    ∃ x ∈ s.bus.reqs, x.id = q.id ∧ x.who = q.who ∧ x.answered = false ∧ silenced s x.who = false := by
  obtain ⟨x, hx, rfl⟩ := List.mem_map.1 h
  obtain ⟨hx, hb⟩ := List.mem_filter.1 hx
  simp only [Bool.and_eq_true, Bool.not_eq_true'] at hb
  exact ⟨x, hx, rfl, rfl, hb.1.2, hb.2⟩

/-- The request answered is owed no answer any more. -/
theorem not_owed_after_sendResp {s : State} {p : PortId} {r : Resp} {c : Bool} {upset : List Beat64} {i : Nat} (hr : r.req = some i) :
    ∀ q ∈ owed (sendResp s p r c upset), q.id ≠ i := by
  rintro q hq rfl
  obtain ⟨x, hx, hi, -, ha, -⟩ := mem_owed hq
  rw [sendResp_bus, tenureSent, setPort_reqs, hr] at hx
  obtain ⟨y, -, rfl⟩ := List.mem_map.1 hx
  split at hi <;> simp_all

/-- A response chosen on a free port, enabled, starts its tenure, and what waits goes on. -/
theorem exec_response_of_free {s : State} {p : PortId} {pins : PortPins} {r : Resp} (hs : s.up) (hf : portFree s p pins = true)
    (he : portEn s p = true) (ha : arbitrate s p pins = .respond r) (upset : List Beat64) :
    exec (.responseTenure p pins false upset) s = .next (settle (sendResp (setQuiet s p false) p r false upset)) := by
  refine (guarded_of_defined hs.1 fun s => responseRow s p pins false upset).trans (congrArg _ ?_)
  simp [responseRow, hf, he, ha]

/-- Settles O17: the order is that of the branches of `arbitrate` (`arbitrate_of_counted` to `arbitrate_last`); what is chosen starts with
`grantPair` or `sendResp`. -/
theorem arbitrationOrder : Obligations.ArbitrationOrder := by
  intro s p pins hs hf ha hr
  refine ⟨⟨fun r h => arbitrate_of_counted ha h, fun k hc h => arbitrate_of_urgent ha hc (roundRobin_of_first h), fun ⟨hc, h⟩ => ?_⟩,
    fun k u h => ⟨_, exec_grant_of_free hs hf h _, ?_⟩, fun k u asked h => ⟨_, exec_grant_of_free hs hf h _, ?_⟩,
    fun r upset h he => ⟨_, exec_response_of_free hs hf he h upset, ?_⟩⟩
  · have hu := roundRobin_eq_none (last := (port s p).lastUrg) h
    exact ⟨fun r l hl hp => arbitrate_after_agent ha hc hu hl hp,
      fun k hk hp => arbitrate_of_eligible ha hc hu hr (roundRobin_of_first hk) hp,
      fun r l hl hk => arbitrate_last ha hc hu hl (roundRobin_eq_none hk)⟩
  · rw [grantPair_driven, port_setPort_self]
    exact ⟨setPort_out .., rfl, rfl, rfl, rfl, rfl, rfl, by cases p <;> rfl⟩
  · rw [grantPair_forfeited]
    cases asked with
    | true =>
      rw [if_pos rfl, port_violation_self, port_setPort_self]
      refine ⟨rfl, by simp, ?_, rfl, by simp⟩
      rw [← codeCounter_of_gt p (code := 0x11) (by decide), live_violation_self]
      simp
    | false =>
      rw [if_neg Bool.false_ne_true, port_setPort_self]
      exact ⟨rfl, by simp, by simp, rfl, by simp⟩
  · have hx := settle_extends (sendResp (setQuiet s p false) p r false upset)
    have hp := hx.port p
    rw [port_sendResp, port_setQuiet] at hp
    refine ⟨?_, ?_, ?_, ?_, ?_, ?_⟩
    · have := hx.out
      rw [sendResp_out] at this
      simpa [setQuiet] using this
    · rw [hp]
      rfl
    · rw [hp]
      rfl
    · intro hu
      rw [hp]
      exact if_pos hu
    · intro i hi
      rw [hx.owed]
      exact not_owed_after_sendResp hi
    · refine (hx.cfg Cfg.regs).trans ((sendResp_regs ..).trans ?_)
      simp [setQuiet]

/-! ## What a violation reports (02 R62, R64) -/

theorem getLsbD_put {x : Reg32} {hi lo v i : Nat} (hi32 : i < 32) :
    (put x hi lo v).getLsbD i = if lo ≤ i ∧ i ≤ hi then v.testBit (i - lo) else x.getLsbD i := by
  have hn : i - lo < hi + 1 - lo ↔ i ≤ hi ∧ (lo ≤ i ∨ lo ≤ hi) := by omega
  simp only [put, BitVec.getLsbD_or, BitVec.getLsbD_and, BitVec.getLsbD_not, BitVec.getLsbD_ofNat, Nat.testBit_shiftLeft,
    Nat.testBit_two_pow_sub_one, hi32, decide_true, Bool.true_and, hn]
  by_cases h1 : lo ≤ i <;> by_cases h2 : i ≤ hi <;> simp [h1, h2]

theorem fld_put_of_disjoint {x : Reg32} {hi lo v h l : Nat} (h32 : h < 32) (hd : hi < l ∨ h < lo) :
    fld (put x hi lo v) h l = fld x h l := by
  refine congrArg BitVec.toNat (BitVec.eq_of_getLsbD_eq fun i hi' => ?_)
  rw [BitVec.getLsbD_extractLsb', BitVec.getLsbD_extractLsb', getLsbD_put (by omega), if_neg (by omega)]

theorem fld_put_self {x : Reg32} {hi lo v : Nat} (h32 : hi < 32) : fld (put x hi lo v) hi lo = v % 2 ^ (hi + 1 - lo) := by
  rw [← BitVec.toNat_ofNat]
  refine congrArg BitVec.toNat (BitVec.eq_of_getLsbD_eq fun i hi' => ?_)
  rw [BitVec.getLsbD_extractLsb', BitVec.getLsbD_ofNat, getLsbD_put (by omega), if_pos (by omega), Nat.add_sub_cancel_left]

theorem logged_who {who : Nat} (v : VSeen) (code : Nat) (q : Port) (hw : who < 16) : fld (logged who v code q).vlog1 23 20 = who := by
  simp only [logged, fld_put_of_disjoint (h := 23) (l := 20), fld_put_self, Nat.reduceLT, true_or]
  exact Nat.mod_eq_of_lt hw

/-- A violation of `code` by requester `who` stands in the log of port `p`, is counted and has raised its source. -/
structure Reported (s t : State) (p : PortId) (who code : Nat) : Prop where
  logCode : (port t p).vcode = BitVec.ofNat 8 code
  logWho  : fld (port t p).vlog1 23 20 = who
  counted : live t (codeCounter p code) = live s (codeCounter p code) + 1
  raised  : t.err.intStatus.getLsbD (srcAgpViol p) = true

theorem srcAgpViol_lt (p : PortId) : srcAgpViol p < 20 := by cases p <;> decide

theorem reported_violation (s : State) (p : PortId) {who : Nat} (v : VSeen) (code : Nat) (hw : who < 16) :
    Reported s (violation s p who v code) p who code where
  logCode := by rw [port_violation_self]; rfl
  logWho := by rw [port_violation_self, logged_who v code _ hw]
  counted := live_violation_self ..
  raised := getLsbD_setBit_self _ _ (srcAgpViol_lt p)

theorem codeCounter_not_settle (p : PortId) (code : Nat) : codeCounter p code ∉ settleCounters := by
  unfold codeCounter
  split_ifs <;> cases p <;> decide

namespace Reported
variable {s a b : State} {p : PortId} {who code : Nat}

/-- Nothing that waits touches the log. -/
theorem ext (h : Reported s a p who code) (hx : Ext a b) : Reported s b p who code where
  logCode := by rw [hx.port, h.logCode]
  logWho := by rw [hx.port, h.logWho]
  counted := (hx.counts _ (codeCounter_not_settle p code)).trans h.counted
  raised := hx.ints _ h.raised

theorem congr (h : Reported s a p who code) (hc : (port b p).vcode = (port a p).vcode) (hv : (port b p).vlog1 = (port a p).vlog1)
    (hl : live b (codeCounter p code) = live a (codeCounter p code)) (he : b.err = a.err) : Reported s b p who code where
  logCode := hc.trans h.logCode
  logWho := (congrArg (fld · 23 20) hv).trans h.logWho
  counted := hl.trans h.counted
  raised := by rw [he, h.raised]

theorem seq (h : Reported s a p who code) (hc : 0x0D < code) : live a (cntAgpSeq p) = live s (cntAgpSeq p) + 1 := by
  rw [← codeCounter_of_gt p hc, h.counted]

end Reported

/-! ## Pins out of place (02 R62, R63) -/

theorem strayPin {s : State} {p : PortId} (hs : s.up) (hl : pinsLive s = true) (hg : (port s p).granted = none)
    (hq : (port s p).quiet = false) :
    exec (.avldOutOfTenure p) s = .next (setQuiet (violation s p 15 { tag := none, addr := none } 0x14) p true) := by
  refine (guarded_of_defined hs.1 fun s => strayRow s p).trans (congrArg _ ?_)
  simp [strayRow, when, hl, hg, hq]

theorem unattachedPin {s : State} {p : PortId} {k : Fin 6} (hs : s.up) (hl : pinsLive s = true) (he : portEn s p = true)
    (ha : attached s (whoAt p k) = false) :
    exec (.unattachedRequest p k) s = .next (violation s p (whoAt p k) { tag := none, addr := none } 0x13) := by
  refine (guarded_of_defined hs.1 fun s => unattachedRow s p k).trans (congrArg _ ?_)
  simp [unattachedRow, when, hl, he, ha]

theorem exec_avldOutOfTenure {s : State} {p : PortId} (hs : s.up) (hl : pinsLive s = true) (hg : (port s p).granted = none)
    (hq : (port s p).quiet = false) :
    ∃ t, exec (.avldOutOfTenure p) s = .next t ∧ (port t p).quiet = true ∧ (port t p).vcode = 0x14 ∧ fld (port t p).vlog1 23 20 = 15 ∧
      live t (cntAgpSeq p) = live s (cntAgpSeq p) + 1 ∧ t.err.intStatus.getLsbD (srcAgpViol p) = true ∧
      { t with bus := s.bus, cfg := s.cfg, err := s.err } = s ∧ t.bus.reqs = s.bus.reqs ∧ t.bus.resps = s.bus.resps ∧ t.cfg.regs = s.cfg.regs := by
  have hr := (reported_violation s p { tag := none, addr := none } 0x14 (by decide : 15 < 16)).congr
    (b := setQuiet (violation s p 15 { tag := none, addr := none } 0x14) p true) (by rw [port_setQuiet]) (by rw [port_setQuiet])
    (live_setPort ..) (setPort_err ..)
  exact ⟨_, strayPin hs hl hg hq, by rw [port_setQuiet], hr.logCode, hr.logWho, hr.seq (by decide), hr.raised, by cases p <;> rfl,
    by simp [setQuiet], by simp [setQuiet], by simp [setQuiet]⟩

theorem whoAt_lt (p : PortId) {k : Nat} (hk : k < 6) : whoAt p k < 12 := by
  unfold whoAt
  split <;> split <;> omega

theorem exec_unattachedRequest {s : State} {p : PortId} {k : Fin 6} (hs : s.up) (hl : pinsLive s = true) (he : portEn s p = true)
    (ha : attached s (whoAt p k) = false) :
    ∃ t, exec (.unattachedRequest p k) s = .next t ∧ (port t p).vcode = 0x13 ∧ fld (port t p).vlog1 23 20 = whoAt p k ∧
      live t (cntAgpSeq p) = live s (cntAgpSeq p) + 1 ∧ t.err.intStatus.getLsbD (srcAgpViol p) = true ∧
      { t with bus := s.bus, cfg := s.cfg, err := s.err } = s ∧ t.bus.reqs = s.bus.reqs ∧ t.bus.resps = s.bus.resps ∧ t.cfg.regs = s.cfg.regs := by
  have hr := reported_violation s p { tag := none, addr := none } 0x13 ((whoAt_lt p k.isLt).trans (by decide : 12 < 16))
  exact ⟨_, unattachedPin hs hl he ha, hr.logCode, hr.logWho, hr.seq (by decide), hr.raised, violation_frame .., by simp, by simp, by simp⟩

/-- A response chosen at the handover of an overrun collides. -/
theorem exec_response_collided {s : State} {p : PortId} {pins : PortPins} {r : Resp} (hs : s.up) (he : portEn s p = true)
    (hl : launchOpen s p = true) (ha : arbitrate (atLaunch s p) p pins = .respond r) (upset : List Beat64) :
    exec (.responseTenure p pins true upset) s = .next (settle (sendResp s p r true upset)) := by
  refine (guarded_of_defined hs.1 fun s => responseRow s p pins true upset).trans (congrArg _ ?_)
  simp [responseRow, hl, he, ha]

/-! ## Tenures that break a rule (02 R61 to R64) -/

/-! What looks at the registers, the requests and the responses only does not see a violation. -/

section
variable (s : State) (p : PortId) (who : Nat) (v : VSeen) (code : Nat)

theorem silenced_violation (w : Nat) : silenced (violation s p who v code) w = silenced s w := silenced_setPort s p (logged who v code) w
theorem owed_violation : owed (violation s p who v code) = owed s := owed_setPort s p (logged who v code)
theorem numbered_violation {s : State} (h : s.numbered) : (violation s p who v code).numbered := numbered_setPort p (logged who v code) h

end

section
variable {s : State} {t : Tenure}

theorem heldCleanly.due (hs : s.up) (h : heldCleanly s t) : tenureDue s t = true := by
  obtain ⟨hg, hc, -, ht, -⟩ := h
  simp [tenureDue, isOn, hs.2, hg, hc, ht]

theorem heldCleanly.runs {i : Instr} {c : ReqCmd} (hi : rowTenure i = some (t, c)) (hs : s.up) (h : heldCleanly s t)
    (hf : tenureFits c t = true) : exec i s = .next (settle (tenureEffect s t)) := by
  rw [exec_of_rowTenure hi, requestRow, if_pos hf, guarded_of_defined hs.1, tenureRow, when, if_pos (h.due hs)]

theorem heldCleanly.answerable (h : heldCleanly s t) : silenced s t.who.val = false := by
  obtain ⟨-, -, -, -, hs⟩ := h
  exact hs

theorem heldCleanly.effect (h : heldCleanly s t) : tenureEffect s t =
    if tenureCode t = 0 then tenureRequest (endTenure s t) t
    else
      let a := protocolAnswer (violation (endTenure s t) (portOf t.who.val) t.who.val (seenOf t) (tenureCode t)) t
      if tenureCode t = 5 then overrunQuiet a (portOf t.who.val) t.who.val (some s.bus.nextReq) else a := by
  obtain ⟨-, -, hd, hx, hs⟩ := h
  have hi : inReset s t.who.val = false := (Bool.or_eq_false_iff.1 hs).1
  simp only [tenureEffect, hi, hd, hx, Bool.or_self, Bool.false_eq_true, if_false]
  rfl

theorem tenureCode_of_bad6 (h : (badBytes t.h0).getLsbD 6 = true) : tenureCode t = 2 := if_pos h

theorem port_endTenure : port (endTenure s t) (portOf t.who.val) =
    { port s (portOf t.who.val) with granted := none, prevAgent := true, collide := false, dead := false } := port_setPort_self ..

/-- A violation by the tenure, once its port has taken the tenure's end. -/
def tenureViolates (s : State) (t : Tenure) (code : Nat) : State :=
  violation (endTenure s t) (portOf t.who.val) t.who.val (seenOf t) code

theorem reported_tenureViolates (s : State) (t : Tenure) (code : Nat) :
    Reported s (tenureViolates s t code) (portOf t.who.val) t.who.val code := by
  obtain ⟨hc, hw, hn, hr⟩ := reported_violation (endTenure s t) (portOf t.who.val) (seenOf t) code
    (t.who.isLt.trans (by decide : 12 < 16))
  exact ⟨hc, hw, hn.trans (congrArg (· + 1) (live_setPort ..)), hr⟩

theorem port_tenureViolates (s : State) (t : Tenure) (code : Nat) : port (tenureViolates s t code) (portOf t.who.val) =
    logged t.who.val (seenOf t) code (port (endTenure s t) (portOf t.who.val)) := port_violation_self ..

theorem tenureViolates_regs (s : State) (t : Tenure) (code : Nat) : (tenureViolates s t code).cfg.regs = s.cfg.regs :=
  (violation_regs ..).trans (congrArg Cfg.regs (setPort_cfg ..))

theorem tenureViolates_vlt (s : State) (t : Tenure) (code : Nat) : (tenureViolates s t code).vlt = s.vlt :=
  (violation_vlt ..).trans (setPort_vlt ..)

theorem silenced_tenureViolates (s : State) (t : Tenure) (code w : Nat) : silenced (tenureViolates s t code) w = silenced s w :=
  (silenced_violation ..).trans (silenced_setPort ..)

theorem owed_tenureViolates (s : State) (t : Tenure) (code : Nat) : owed (tenureViolates s t code) = owed s :=
  (owed_violation ..).trans (owed_setPort ..)

theorem tenureViolates_resps (s : State) (t : Tenure) (code : Nat) : (tenureViolates s t code).bus.resps = s.bus.resps :=
  (setPort_resps ..).trans (setPort_resps ..)

theorem tenureViolates_nextReq (s : State) (t : Tenure) (code : Nat) : (tenureViolates s t code).bus.nextReq = s.bus.nextReq :=
  (setPort_nextReq ..).trans (setPort_nextReq ..)

theorem numbered_tenureViolates {s : State} (t : Tenure) (code : Nat) (h : s.numbered) : (tenureViolates s t code).numbered :=
  numbered_violation _ _ _ _ (numbered_setPort _ _ h)

theorem port_queueReq (s : State) (r : Req) (p : PortId) : port (queueReq s r) p = port s p := by cases p <;> rfl

/-- What `x` has of a violation by tenure `t`: the report, an end of the grant, and nothing of the registers and the Vault. -/
structure Violates (s x : State) (t : Tenure) (code : Nat) : Prop where
  reported : Reported s x (portOf t.who.val) t.who.val code
  granted  : (port x (portOf t.who.val)).granted = none
  regs     : x.cfg.regs = s.cfg.regs
  vlt      : x.vlt = s.vlt

theorem Violates.ext {x y : State} {code : Nat} (h : Violates s x t code) (hx : Ext x y) : Violates s y t code where
  reported := h.reported.ext hx
  granted := by rw [hx.port, h.granted]
  regs := (hx.cfg Cfg.regs).trans h.regs
  vlt := hx.vlt.trans h.vlt

theorem Violates.congr {x y : State} {code : Nat} (h : Violates s x t code)
    (hg : (port y (portOf t.who.val)).granted = (port x (portOf t.who.val)).granted)
    (hc : (port y (portOf t.who.val)).vcode = (port x (portOf t.who.val)).vcode)
    (hv : (port y (portOf t.who.val)).vlog1 = (port x (portOf t.who.val)).vlog1)
    (hcfg : y.cfg = x.cfg) (herr : y.err = x.err) (hvlt : y.vlt = x.vlt) : Violates s y t code where
  reported := h.reported.congr hc hv (by rw [live, live, hcfg]) herr
  granted := hg.trans h.granted
  regs := (congrArg Cfg.regs hcfg).trans h.regs
  vlt := hvlt.trans h.vlt

theorem violates_tenureViolates (s : State) (t : Tenure) (code : Nat) : Violates s (tenureViolates s t code) t code where
  reported := reported_tenureViolates s t code
  granted := by rw [port_tenureViolates, port_endTenure]; rfl
  regs := tenureViolates_regs ..
  vlt := tenureViolates_vlt ..

theorem Violates.queueReq {x : State} {code : Nat} (h : Violates s x t code) (r : Req) : Violates s (queueReq x r) t code :=
  h.congr (by rw [port_queueReq]) (by rw [port_queueReq]) (by rw [port_queueReq]) rfl rfl rfl

/-- PROTOCOL_ERR to a tenure whose violation has been reported. -/
theorem violates_answerNow (s : State) (t : Tenure) (c : ReqCmd) (code : Nat) :
    Violates s (answerNow (tenureViolates s t code) t c .protocolErr) t code :=
  ((violates_tenureViolates s t code).queueReq _).ext (answerNow_ext ..)

theorem port_answerNow (s : State) (t : Tenure) (c : ReqCmd) (rsp : Rsp) (p : PortId) : port (answerNow s t c rsp) p = port s p :=
  ((answerNow_ext ..).port p).trans (port_queueReq ..)

theorem protocolErr_resps (c : ReqCmd) (code : Nat) (hn : s.numbered) (hs : silenced s t.who.val = false) :
    (answerNow (tenureViolates s t code) t c .protocolErr).bus.resps = s.bus.resps ++ [bareAnswer t .protocolErr s.bus.nextReq] := by
  rw [answerNow_resps c .protocolErr (numbered_tenureViolates t code hn) ((silenced_tenureViolates ..).trans hs),
    tenureViolates_resps, tenureViolates_nextReq]

/-- The state with the UNTAGGED response to requester `who` queued. -/
def queueUntagged (a : State) (who : Nat) : State :=
  let b := setPort a (portOf who) fun q => { q with untag := setBit q.untag (pairOf who) true }
  { b with bus := { b.bus with resps := b.bus.resps ++ [{ who := who, tag := 0, rsp := .protocolErr, beats := [], untagged := true,
                                                          retry := false, counted := false, req := none, cb := none }] } }

theorem answerUntagged_of_answerable {a : State} {who : Nat} (hs : silenced a who = false) :
    answerUntagged a who = queueUntagged a who := by
  unfold silenced at hs
  simp only [answerUntagged, hs, Bool.false_eq_true, if_false]
  rfl

theorem port_queueUntagged (a : State) (who : Nat) : port (queueUntagged a who) (portOf who) =
    { port a (portOf who) with untag := setBit (port a (portOf who)).untag (pairOf who) true } := by
  unfold queueUntagged
  cases portOf who <;> rfl

theorem owed_queueUntagged (a : State) (who : Nat) : owed (queueUntagged a who) = owed a := owed_setPort ..

theorem violates_queueUntagged (s : State) (t : Tenure) (code : Nat) :
    Violates s (queueUntagged (tenureViolates s t code) t.who.val) t code :=
  (violates_tenureViolates s t code).congr (by rw [port_queueUntagged]) (by rw [port_queueUntagged]) (by rw [port_queueUntagged])
    (setPort_cfg ..) (setPort_err ..) (setPort_vlt ..)

variable (h : heldCleanly s t)
include h

/-- Bad parity in the byte of the tag: the answer is UNTAGGED. -/
theorem heldCleanly.effect_of_bad6 (hb : (badBytes t.h0).getLsbD 6 = true) :
    tenureEffect s t = queueUntagged (tenureViolates s t (tenureCode t)) t.who.val := by
  have hc := tenureCode_of_bad6 hb
  have hs : silenced (tenureViolates s t (tenureCode t)) t.who.val = false := (silenced_tenureViolates ..).trans h.answerable
  rw [h.effect, if_neg (by omega), if_neg (by omega), protocolAnswer, if_pos hb]
  exact answerUntagged_of_answerable hs

/-- A readable tag: the answer has it, and an overrun makes the port quiet. -/
theorem heldCleanly.effect_of_tagged (hb : ¬ (badBytes t.h0).getLsbD 6 = true) (hc : tenureCode t ≠ 0) :
    tenureEffect s t = let a := answerNow (tenureViolates s t (tenureCode t)) t .barrier .protocolErr
      if tenureCode t = 5 then overrunQuiet a (portOf t.who.val) t.who.val (some s.bus.nextReq) else a := by
  rw [h.effect, if_neg hc, protocolAnswer, if_neg hb]
  rfl

theorem heldCleanly.untagged (hb : (badBytes t.h0).getLsbD 6 = true) :
    Violates s (tenureEffect s t) t (tenureCode t) ∧ owed (tenureEffect s t) = owed s ∧ port (tenureEffect s t) (portOf t.who.val) =
      { port (tenureViolates s t (tenureCode t)) (portOf t.who.val) with
        untag := setBit (port s (portOf t.who.val)).untag (pairOf t.who.val) true } := by
  rw [h.effect_of_bad6 hb, port_queueUntagged, port_tenureViolates, port_endTenure]
  exact ⟨violates_queueUntagged .., (owed_queueUntagged ..).trans (owed_tenureViolates ..), rfl⟩

theorem heldCleanly.protocolErr (hn : s.numbered) (hb : ¬ (badBytes t.h0).getLsbD 6 = true) (hc : tenureCode t ≠ 0) :
    Violates s (tenureEffect s t) t (tenureCode t) ∧
    (tenureEffect s t).bus.resps = s.bus.resps ++ [bareAnswer t .protocolErr s.bus.nextReq] ∧
    port (tenureEffect s t) (portOf t.who.val) =
      (let q := port (tenureViolates s t (tenureCode t)) (portOf t.who.val)
       if tenureCode t = 5 then { q with quiet := true, launch := some (t.who.val, some s.bus.nextReq) } else q) := by
  have ha := violates_answerNow s t .barrier (tenureCode t)
  have hr := protocolErr_resps .barrier (tenureCode t) hn h.answerable
  rw [h.effect_of_tagged hb hc]
  dsimp only
  split
  · rw [overrunQuiet, port_setPort_self, port_answerNow, setPort_resps]
    exact ⟨ha.congr (by rw [port_setPort_self]) (by rw [port_setPort_self]) (by rw [port_setPort_self]) (setPort_cfg ..) (setPort_err ..)
      (setPort_vlt ..), hr, rfl⟩
  · exact ⟨ha, hr, port_answerNow ..⟩

omit h in
theorem sequenceCode_cases (s : State) (t : Tenure) (c : ReqCmd) :
    sequenceCode s t c = 0 ∨ sequenceCode s t c = 0x0E ∨ sequenceCode s t c = 0x0F ∨ sequenceCode s t c = 0x10 := by
  unfold sequenceCode
  extract_lets who
  split_ifs <;> simp

variable {c : ReqCmd} (h0 : tenureCode t = 0) (hc : cmdOf (h0Cmd t.h0.ad) = some c)
include h0 hc

/-- A busy tag is reported and not answered; a lock or WATCH out of sequence is answered. -/
theorem heldCleanly.effect_of_sequence (hq : sequenceCode s t c ≠ 0) : tenureEffect s t =
    if sequenceCode s t c = 0x0E then tenureViolates s t (sequenceCode s t c)
    else answerNow (tenureViolates s t (sequenceCode s t c)) t c .protocolErr := by
  have he : sequenceCode (endTenure s t) t c = sequenceCode s t c := sequenceCode_setPort ..
  rw [h.effect, if_pos h0]
  simp only [tenureRequest, hc, Option.getD_some, he]
  obtain hs | hs | hs | hs := sequenceCode_cases s t c
  · exact absurd hs hq
  all_goals
    rw [hs]
    rfl

theorem heldCleanly.outOfSequence (hq : sequenceCode s t c ≠ 0) (hn : s.numbered) :
    Violates s (tenureEffect s t) t (sequenceCode s t c) ∧
    if sequenceCode s t c = 0x0E then owed (tenureEffect s t) = owed s ∧ (tenureEffect s t).bus.resps = s.bus.resps
    else (tenureEffect s t).bus.resps = s.bus.resps ++ [bareAnswer t .protocolErr s.bus.nextReq] := by
  rw [h.effect_of_sequence h0 hc hq]
  split
  · exact ⟨violates_tenureViolates .., owed_tenureViolates .., tenureViolates_resps ..⟩
  · exact ⟨violates_answerNow .., protocolErr_resps c _ hn h.answerable⟩

theorem heldCleanly.effect_of_urgent (hq : sequenceCode s t c = 0) (hu : t.urg = true) (hk : h0Class t.h0.ad ≠ 0) :
    tenureEffect s t = acceptReq (tenureViolates s t 0x12) t c := by
  have he : sequenceCode (endTenure s t) t c = 0 := (sequenceCode_setPort ..).trans hq
  rw [h.effect, if_pos h0]
  simp [tenureRequest, hc, he, hu, hk, tenureViolates]

end

/-- `x` is `b` with request `r` of tenure `t` queued, and what `Ext` allows; `b` is `s` with a decode log, or without the record of a broken
lock. -/
structure Queues (s b x : State) (t : Tenure) (r : Req) : Prop where
  ext      : Ext (queueReq b r) x
  who      : r.who = t.who.val
  tag      : r.tag = h0Tag t.h0.ad
  answered : r.answered = false
  bus      : b.bus = s.bus
  err      : b.err = s.err
  regs     : b.cfg.regs = s.cfg.regs
  live     : ∀ n, n ≠ cntDecode → live b n = live s n

theorem queues_answerNow (s : State) (t : Tenure) (c : ReqCmd) (rsp : Rsp) :
    Queues s s (answerNow s t c rsp) t (blankReq t c s.bus.nextReq) :=
  ⟨answerNow_ext .., rfl, rfl, rfl, rfl, rfl, rfl, fun _ _ => rfl⟩

theorem queues_admitReq (s : State) (t : Tenure) (c : ReqCmd) (m : Mark) (target : Target) (pool k : Nat) :
    Queues s s (admitReq s t c m target pool k) t (entryOf (admitClass s k).1 t c m target pool (admitClass s k).2) :=
  ⟨admitReq_ext .., entryOf_who .., (apply_ite Req.tag ..).trans (ite_self _), entryOf_answered .., rfl, rfl, rfl, fun _ _ => rfl⟩

theorem Queues.from {s a b x : State} {t : Tenure} {r : Req} (h : Queues a b x t r) (hb : a.bus = s.bus) (he : a.err = s.err)
    (hr : a.cfg.regs = s.cfg.regs) (hl : ∀ n, n ≠ cntDecode → Machine.live a n = Machine.live s n) : Queues s b x t r :=
  ⟨h.ext, h.who, h.tag, h.answered, h.bus.trans hb, h.err.trans he, h.regs.trans hr, fun n hn => (h.live n hn).trans (hl n hn)⟩

theorem queues_refuseReq (s : State) (t : Tenure) (c : ReqCmd) (rsp : Rsp) (why : Option Nat) :
    ∃ b r, Queues s b (refuseReq s t c rsp why) t r := by
  cases why with
  | none => exact ⟨_, _, queues_answerNow ..⟩
  | some x => exact ⟨_, _, (queues_answerNow ..).from rfl rfl rfl fun n hn => live_count_ne _ hn⟩

/-- Whatever becomes of a request, it gets its place in the list of requests. -/
theorem queues_acceptReq (s : State) (t : Tenure) (c : ReqCmd) : ∃ b r, Queues s b (acceptReq s t c) t r := by
  unfold acceptReq
  extract_lets h who m
  split
  · exact ⟨_, _, queues_answerNow ..⟩
  · split
    · exact ⟨_, _, queues_admitReq ..⟩
    · split
      · exact queues_refuseReq ..
      · exact ⟨_, _, queues_admitReq ..⟩
      · split
        · exact ⟨_, _, (queues_answerNow ..).from rfl rfl rfl fun _ _ => rfl⟩
        · exact ⟨_, _, queues_admitReq ..⟩

theorem Queues.owed {s b x : State} {t : Tenure} {r : Req} (h : Queues s b x t r) (hs : silenced s t.who.val = false) :
    owed x = Machine.owed s ++ [admitted r] := by
  have hreg (p : PortId) : reg b (rAgpCfg p) = reg s (rAgpCfg p) := congrArg (mget resetVal · _) h.regs
  rw [h.ext.owed, owed_queueReq (h.who ▸ t.who.isLt) h.answered, owed_congr h.bus hreg]
  rw [silenced_congr (congrArg Bus.rsns h.bus) hreg, h.who, hs]

theorem Queues.reported {a s b x : State} {t : Tenure} {r : Req} {p : PortId} {who code : Nat} (h : Queues s b x t r)
    (hr : Reported a s p who code) (hc : codeCounter p code ≠ cntDecode) : Reported a x p who code := by
  have hp : port (queueReq b r) p = port s p := (port_queueReq ..).trans (port_congr h.bus p)
  exact (hr.congr (b := queueReq b r) (by rw [hp]) (by rw [hp]) (h.live _ hc) h.err).ext h.ext

theorem tenureFits_of_cmd {t : Tenure} {c : ReqCmd} (hc : cmdOf (h0Cmd t.h0.ad) = some c) : tenureFits c t = true := by
  simp [tenureFits, hc]

/-- Settles O15: a bad format or a request out of sequence leaves what `Violates` says, which waiting work keeps; an urgent tenure of
another class is reported and gets its place by `queues_acceptReq`. -/
theorem tenureViolations : Obligations.TenureViolations := by
  refine ⟨fun i t c s hi hf hd hs h hc => ?_, fun i t c s hi hd hs h h0 hc hq => ?_, fun i t c s hi hs h h0 hc hq hu hk => ?_⟩
  · obtain ⟨-, -, -, -, -, -, -, -, hn⟩ := hd
    have hx := settle_extends (tenureEffect s t)
    refine ⟨_, h.runs hi hs hf, ?_⟩
    by_cases hb : (badBytes t.h0).getLsbD 6 = true
    · obtain ⟨hv, ho, hp⟩ := h.untagged hb
      have hv' := hv.ext hx
      have h2 := tenureCode_of_bad6 hb
      refine ⟨⟨hv'.granted, hv'.reported.logCode, hv'.reported.logWho, ?_, ?_, hv'.reported.counted, hv'.reported.raised, hx, ?_⟩,
        hv'.regs, hv'.vlt⟩
      · rw [hx.port, hp, port_tenureViolates, port_endTenure, h2]
        exact (Bool.or_false _).symm
      · intro h5
        omega
      · rw [if_pos hb, hx.port, hp, hx.owed, ho]
        exact ⟨rfl, rfl⟩
    · obtain ⟨hv, hr, hp⟩ := h.protocolErr hn hb hc
      have hv' := hv.ext hx
      refine ⟨⟨hv'.granted, hv'.reported.logCode, hv'.reported.logWho, ?_, ?_, hv'.reported.counted, hv'.reported.raised, hx, ?_⟩,
        hv'.regs, hv'.vlt⟩
      · rw [hx.port, hp, port_tenureViolates, port_endTenure]
        by_cases h5 : tenureCode t = 5 <;> simp [h5, logged]
      · intro h5
        rw [hx.port, hp]
        exact congrArg Port.launch (if_pos h5)
      · rw [if_neg hb, hr]
  · obtain ⟨-, -, -, -, -, -, -, -, hn⟩ := hd
    have hx := settle_extends (tenureEffect s t)
    refine ⟨_, h.runs hi hs (tenureFits_of_cmd hc), ?_⟩
    obtain ⟨hv, ha⟩ := h.outOfSequence h0 hc hq hn
    have hv' := hv.ext hx
    have hlt : 0x0D < sequenceCode s t c := by
      have := sequenceCode_cases s t c
      omega
    refine ⟨⟨hv'.granted, hv'.reported.logCode, hv'.reported.seq hlt, hv'.reported.raised, hx, ?_⟩, hv'.regs, hv'.vlt⟩
    rwa [hx.owed]
  · have hx := settle_extends (tenureEffect s t)
    refine ⟨_, h.runs hi hs (tenureFits_of_cmd hc), ?_⟩
    obtain ⟨b, r, hr⟩ := queues_acceptReq (tenureViolates s t 0x12) t c
    have hrep := (hr.reported (reported_tenureViolates s t 0x12) (by cases portOf t.who.val <;> decide))
    have ho := hr.owed ((silenced_tenureViolates ..).trans h.answerable)
    rw [← h.effect_of_urgent h0 hc hq hu hk] at hrep ho
    have hrep := hrep.ext hx
    refine ⟨⟨hrep.logCode, hrep.seq (by decide), hrep.raised⟩, admitted r, ?_, hr.who, hr.tag⟩
    rw [hx.owed, ho, owed_tenureViolates]

/-! ## Reset sense (02 R60; 03 R87; 11 R277, R278) -/

/-! ### One bit set or cleared -/

theorem getElem_bit {w j : Nat} (i : Nat) (hj : j < w) : (bit true i : BitVec w)[j] = decide (i = j) := by
  rw [bit, if_pos rfl, ← BitVec.getLsbD_eq_getElem, BitVec.getLsbD_ofNat, Nat.one_shiftLeft, Nat.testBit_two_pow, decide_eq_true hj, Bool.true_and]

theorem setBit_getLsbD {w : Nat} (x : BitVec w) (i : Nat) : setBit x i (x.getLsbD i) = x := by
  refine BitVec.eq_of_getElem_eq fun j hj => ?_
  cases h : x.getLsbD i <;> by_cases hij : i = j <;> simp_all [setBit, getElem_bit]

theorem getLsbD_setBit_false {w : Nat} (x : BitVec w) (i : Nat) : (setBit x i false).getLsbD i = false := by
  by_cases h : i < w <;> simp [setBit, getElem_bit, h]

/-! ### Its steps -/

/-- Discarding responses takes them, and marks requests. -/
theorem discardResps_eq (s : State) (p : Resp → Bool) : ∃ l, discardResps s p =
    { s with bus := { s.bus with reqs := l, resps := s.bus.resps.filter fun r => !p r } } := by
  unfold discardResps
  extract_lets d s1
  refine List.foldlRecOn (motive := fun x : State => ∃ l, x = { s with bus := { s.bus with reqs := l, resps := _ } }) d _ ⟨_, rfl⟩ ?_
  rintro _ ⟨l, rfl⟩ r -
  split
  · exact ⟨_, rfl⟩
  · exact ⟨l, rfl⟩

/-- Dropping a command touches the requests and the open entries. -/
theorem dropReset_eq (s : State) (r : Req) : ∃ l e, dropReset s r =
    { s with bus := { s.bus with reqs := l }, wrb := { s.wrb with entries := e } } := by
  unfold dropReset
  extract_lets s1
  split
  · unfold fetchOver
    extract_lets others
    split
    · exact ⟨_, _, rfl⟩
    · exact ⟨_, s.wrb.entries, rfl⟩
  · exact ⟨_, s.wrb.entries, rfl⟩

theorem foldl_dropReset_eq (s : State) (d : List Req) : ∃ l e, d.foldl dropReset s =
    { s with bus := { s.bus with reqs := l }, wrb := { s.wrb with entries := e } } := by
  refine List.foldlRecOn (motive := fun x : State => ∃ l e, x = { s with bus := { s.bus with reqs := l }, wrb := { s.wrb with entries := e } })
    d _ ⟨s.bus.reqs, s.wrb.entries, rfl⟩ ?_
  rintro _ ⟨l, e, rfl⟩ r -
  obtain ⟨l', e', h⟩ := dropReset_eq { s with bus := { s.bus with reqs := l }, wrb := { s.wrb with entries := e } } r
  exact ⟨l', e', h⟩

/-- The port of a requester that goes into reset sense. -/
def portReset (who : Nat) (q : Port) : Port :=
  { q with
    again := q.again.filter fun r => r.who != who
    untag := setBit q.untag (pairOf who) false
    dead := q.dead || q.granted == some (pairOf who) }

/-- Requester `who` is in reset sense, with no response waiting; `l` and `e` are the requests and open entries that are left. -/
def silencedBy (s : State) (who : Nat) (l : List Req) (e : List Entry) : State :=
  setPort { s with
    bus := { s.bus with rsns := setBit s.bus.rsns who true, reqs := l, resps := s.bus.resps.filter fun r => !(r.who == who) }
    wrb := { s.wrb with entries := e } } (portOf who) (portReset who)

/-- What reset sense does of a processor agent's probes and lock. -/
def dropAgent (s : State) (who : Nat) : State :=
  match lockOf s who with
  | some cb => breakLock (ackAll s who true fun _ => true) who cb 2
  | none => ackAll s who true fun _ => true

theorem resetSense_eq (s : State) (who : Nat) : ∃ l e, resetSense s who =
    if who < 8 then dropAgent (silencedBy s who l e) who else silencedBy s who l e := by
  unfold resetSense
  extract_lets p b s1 s2 b' s3 s4 s5
  obtain ⟨l, h1⟩ := discardResps_eq { s with bus := { s.bus with rsns := setBit s.bus.rsns who true } } fun r => r.who == who
  obtain ⟨l', e, h4⟩ := foldl_dropReset_eq s3 (s3.bus.reqs.filter fun r => r.who == who && resetDrops r)
  have : s4 = silencedBy s who l' e := by
    refine h4.trans ?_
    unfold s3 b' s2 s1 b p silencedBy
    rw [h1]
    cases portOf who <;> rfl
  unfold s5
  rw [this]
  exact ⟨l', e, rfl⟩

/-! ### What it leaves -/

section
variable (s : State) (who : Nat)

theorem breakLock_bus (cb k : Nat) : (breakLock s who cb k).bus = s.bus := by simp [breakLock, dropLock]
theorem breakLock_prb (cb k : Nat) : (breakLock s who cb k).prb = s.prb := by simp [breakLock, dropLock]
theorem breakLock_vlt (cb k : Nat) : (breakLock s who cb k).vlt = s.vlt := by simp [breakLock, dropLock]
theorem breakLock_regs (cb k : Nat) : (breakLock s who cb k).cfg.regs = s.cfg.regs := by simp [breakLock, dropLock, count, countN]
theorem breakLock_brk (cb k : Nat) : (breakLock s who cb k).wrb.brk = setBit s.wrb.brk who true := by simp [breakLock, dropLock]
theorem live_breakLock (cb k : Nat) : live (breakLock s who cb k) cntLockBrk = live s cntLockBrk + 1 := by
  rw [breakLock, live_raiseInt, live_event, live_count_self]
  rfl
theorem breakLock_raises (cb k : Nat) : (breakLock s who cb k).err.intStatus.getLsbD srcLockBroken = true :=
  getLsbD_setBit_self _ _ (by decide)

theorem dropAgent_eq : dropAgent s who = ackAll s who true (fun _ => true) ∨
    ∃ cb, dropAgent s who = breakLock (ackAll s who true fun _ => true) who cb 2 := by
  unfold dropAgent
  split
  · next cb _ => exact .inr ⟨cb, rfl⟩
  · exact .inl rfl

theorem dropAgent_bus : (dropAgent s who).bus = s.bus := by
  obtain h | ⟨cb, h⟩ := dropAgent_eq s who
  · rw [h]; rfl
  · rw [h, breakLock_bus]; rfl

theorem dropAgent_vlt : (dropAgent s who).vlt = s.vlt := by
  obtain h | ⟨cb, h⟩ := dropAgent_eq s who
  · rw [h]; rfl
  · rw [h, breakLock_vlt]; rfl

theorem dropAgent_regs : (dropAgent s who).cfg.regs = s.cfg.regs := by
  obtain h | ⟨cb, h⟩ := dropAgent_eq s who
  · rw [h]; rfl
  · rw [h, breakLock_regs]; rfl

theorem dropAgent_prb : (dropAgent s who).prb = (ackAll s who true fun _ => true).prb := by
  obtain h | ⟨cb, h⟩ := dropAgent_eq s who
  · rw [h]
  · rw [h, breakLock_prb]

theorem resetSense_bus : ∃ l e, (resetSense s who).bus = (silencedBy s who l e).bus := by
  obtain ⟨l, e, h⟩ := resetSense_eq s who
  refine ⟨l, e, ?_⟩
  rw [h]
  split
  · exact dropAgent_bus ..
  · rfl

theorem resetSense_vlt : (resetSense s who).vlt = s.vlt := by
  obtain ⟨l, e, h⟩ := resetSense_eq s who
  rw [h]
  split
  · exact (dropAgent_vlt ..).trans (setPort_vlt ..)
  · exact setPort_vlt ..

theorem resetSense_regs : (resetSense s who).cfg.regs = s.cfg.regs := by
  obtain ⟨l, e, h⟩ := resetSense_eq s who
  rw [h]
  split
  · exact (dropAgent_regs ..).trans (congrArg Cfg.regs (setPort_cfg ..))
  · exact congrArg Cfg.regs (setPort_cfg ..)

theorem resetSense_unresp : (resetSense s who).prb.unresp = s.prb.unresp := by
  obtain ⟨l, e, h⟩ := resetSense_eq s who
  rw [h]
  split
  · rw [dropAgent_prb]
    show (silencedBy s who l e).prb.unresp = _
    exact congrArg Prb.unresp (setPort_prb ..)
  · exact congrArg Prb.unresp (setPort_prb ..)

theorem resetSense_rsns : (resetSense s who).bus.rsns = setBit s.bus.rsns who true := by
  obtain ⟨l, e, h⟩ := resetSense_bus s who
  rw [h]
  exact setPort_rsns ..

theorem resetSense_rsnsPin : (resetSense s who).bus.rsnsPin = s.bus.rsnsPin := by
  obtain ⟨l, e, h⟩ := resetSense_bus s who
  rw [h]
  exact setPort_rsnsPin ..

theorem resetSense_resps : (resetSense s who).bus.resps = s.bus.resps.filter fun r => !(r.who == who) := by
  obtain ⟨l, e, h⟩ := resetSense_bus s who
  rw [h]
  exact setPort_resps ..

theorem port_resetSense : port (resetSense s who) (portOf who) = portReset who (port s (portOf who)) := by
  obtain ⟨l, e, h⟩ := resetSense_bus s who
  rw [port_congr h, silencedBy, port_setPort_self]
  cases portOf who <;> rfl

variable {s who}

theorem mem_ackAll {x : Probe} (hx : x ∈ (ackAll s who true fun _ => true).prb.probes) (hp : x.port = portOf who) :
    x.toSend.getLsbD (pairOf who) = false ∧ ∀ o ∈ x.out, o.1 ≠ pairOf who := by
  obtain ⟨hx, -⟩ := List.mem_filter.1 hx
  obtain ⟨y, -, rfl⟩ := List.mem_map.1 hx
  have hy : y.port = portOf who := by
    split at hp <;> exact hp
  simp only [hy, beq_self_eq_true, Bool.and_self, if_true]
  exact ⟨getLsbD_setBit_false .., fun o ho => by simpa using (List.mem_filter.1 ho).2⟩

theorem resetSense_probes (hw : who < 8) {x : Probe} (hx : x ∈ (resetSense s who).prb.probes) (hp : x.port = portOf who) :
    x.toSend.getLsbD (pairOf who) = false ∧ ∀ o ∈ x.out, o.1 ≠ pairOf who := by
  obtain ⟨l, e, h⟩ := resetSense_eq s who
  rw [h, if_pos hw, dropAgent_prb] at hx
  exact mem_ackAll hx hp

/-- A lock of the agent's is broken. -/
theorem resetSense_of_lock {cb : Nat} (hw : who < 8) (hl : lockOf s who = some cb) : ∃ l e, resetSense s who =
    breakLock (ackAll (silencedBy s who l e) who true fun _ => true) who cb 2 := by
  obtain ⟨l, e, h⟩ := resetSense_eq s who
  have hl' : lockOf (silencedBy s who l e) who = some cb := by
    rw [← hl, lockOf, lockOf, silencedBy, setPort_wrb]
  refine ⟨l, e, ?_⟩
  rw [h, if_pos hw, dropAgent, hl']

/-- The agent's broken lock is noted, counted and reported. -/
theorem resetSense_breaks {cb : Nat} (hw : who < 8) (hl : lockOf s who = some cb) :
    (resetSense s who).wrb.brk.getLsbD who = true ∧ live (resetSense s who) cntLockBrk = live s cntLockBrk + 1 ∧
    (resetSense s who).err.intStatus.getLsbD srcLockBroken = true := by
  obtain ⟨l, e, h⟩ := resetSense_of_lock hw hl
  rw [h, breakLock_brk, live_breakLock]
  exact ⟨getLsbD_setBit_self _ _ hw, congrArg (· + 1) (live_setPort ..), breakLock_raises ..⟩

end

/-! ### The rows of the reset sense pins -/

/-- The state with the pin of requester `who` at level `b`. -/
def withPin (s : State) (who : Nat) (b : Bool) : State := { s with bus := { s.bus with rsnsPin := setBit s.bus.rsnsPin who b } }

theorem exec_resetSenseAssert {s : State} (hs : s.up) (who : Fin 12) :
    exec (.resetSenseAssert who) s = .next (rsnsRow s who true) := guarded_of_defined hs.1 fun s => rsnsRow s who true

theorem exec_resetSenseDeassert {s : State} (hs : s.up) (who : Fin 12) :
    exec (.resetSenseDeassert who) s = .next (rsnsRow s who false) := guarded_of_defined hs.1 fun s => rsnsRow s who false

theorem rsnsRow_of_not_live {s : State} (who : Nat) (b : Bool) (hl : pinsLive s = false) : rsnsRow s who b = withPin s who b :=
  if_neg (ne_true_of_eq_false hl)

/-- The ports take the new level of a pin that they sample; one that they had sampled already changes nothing. -/
theorem rsnsRow_of_live {s : State} {who : Nat} (hw : who < 12) (b : Bool) (hl : pinsLive s = true) : rsnsRow s who b =
    settle (if inReset s who = b then withPin s who b
      else if b then resetSense (withPin s who b) who else resetEnd (withPin s who b) who) := by
  have hp : (withPin s who b).bus.rsnsPin.getLsbD who = b := by
    cases b
    · exact getLsbD_setBit_false ..
    · exact getLsbD_setBit_self _ _ hw
  refine (if_pos hl).trans (congrArg settle ?_)
  show sampleRsns (withPin s who b) who = _
  have hi : inReset (withPin s who b) who = inReset s who := rfl
  rw [sampleRsns, hp, hi]
  cases b <;> cases inReset s who <;> rfl

theorem Ext.rsnsPin {a s : State} (h : Ext a s) : s.bus.rsnsPin = a.bus.rsnsPin := congrArg (fun x => x.bus.rsnsPin) h.fixed
theorem Ext.rsns {a s : State} (h : Ext a s) : s.bus.rsns = a.bus.rsns := congrArg (fun x => x.bus.rsns) h.fixed
theorem Ext.unresp {a s : State} (h : Ext a s) : s.prb.unresp = a.prb.unresp := congrArg (fun x => x.prb.unresp) h.fixed
theorem Ext.brk {a s : State} (h : Ext a s) : s.wrb.brk = a.wrb.brk := congrArg (fun x => x.wrb.brk) h.fixed

/-- A requester in reset sense is owed no answer. -/
theorem not_owed_of_inReset {s : State} {who : Nat} (h : inReset s who = true) : ∀ q ∈ owed s, q.who ≠ who := by
  rintro q hq rfl
  obtain ⟨x, -, -, hw, -, hs⟩ := mem_owed hq
  simp [silenced, hw, h] at hs

/-- An assertion: whether or not the ports sample it, and whether or not they had sampled it before. -/
theorem assert_frame (s : State) (who : Fin 12) :
    let t := rsnsRow s who true
    t.bus.rsnsPin = setBit s.bus.rsnsPin who true ∧
    t.bus.rsns = (if pinsLive s then setBit s.bus.rsns who true else s.bus.rsns) ∧ t.cfg.regs = s.cfg.regs ∧ t.vlt = s.vlt ∧
    t.prb.unresp = s.prb.unresp := by
  cases hl : pinsLive s with
  | false =>
    rw [rsnsRow_of_not_live who true hl]
    exact ⟨rfl, rfl, rfl, rfl, rfl⟩
  | true =>
    rw [rsnsRow_of_live who.isLt true hl]
    have hx := settle_extends (if inReset s who = true then withPin s who true else resetSense (withPin s who true) who)
    simp only [hx.rsnsPin, hx.rsns, hx.cfg Cfg.regs, hx.vlt, hx.unresp, if_true]
    split
    · next hi => exact ⟨rfl, ((setBit_getLsbD s.bus.rsns who).symm.trans (congrArg _ hi)), rfl, rfl, rfl⟩
    · exact ⟨resetSense_rsnsPin .., resetSense_rsns .., resetSense_regs .., resetSense_vlt .., resetSense_unresp ..⟩

theorem deassert_frame (s : State) (who : Fin 12) :
    let t := rsnsRow s who false
    t.bus.rsnsPin = setBit s.bus.rsnsPin who false ∧
    t.bus.rsns = (if pinsLive s then setBit s.bus.rsns who false else s.bus.rsns) ∧
    (let ends : Bool := pinsLive s && inReset s who && decide (who.val < 8)
     t.prb.unresp = (if ends then setBit s.prb.unresp who false else s.prb.unresp) ∧
     t.wrb.brk = (if ends then setBit s.wrb.brk who false else s.wrb.brk)) ∧ t.cfg.regs = s.cfg.regs ∧ t.vlt = s.vlt := by
  cases hl : pinsLive s with
  | false =>
    rw [rsnsRow_of_not_live who false hl]
    exact ⟨rfl, rfl, ⟨rfl, rfl⟩, rfl, rfl⟩
  | true =>
    rw [rsnsRow_of_live who.isLt false hl]
    have hx := settle_extends (if inReset s who = false then withPin s who false else resetEnd (withPin s who false) who)
    simp only [Bool.false_eq_true, if_false, hx.rsnsPin, hx.rsns, hx.cfg Cfg.regs, hx.vlt, hx.unresp, hx.brk, if_true, Bool.true_and]
    cases hi : inReset s who with
    | false => exact ⟨rfl, ((setBit_getLsbD s.bus.rsns who).symm.trans (congrArg _ hi)), ⟨rfl, rfl⟩, rfl, rfl⟩
    | true =>
      by_cases hw : who.val < 8
      · simp [resetEnd, withPin, hw]
      · simp [resetEnd, withPin, hw]

/-- A requester goes into reset sense. -/
theorem assert_effect {s : State} {who : Fin 12} (hl : pinsLive s = true) (hi : inReset s who = false) :
    rsnsRow s who true = settle (resetSense (withPin s who true) who) := by
  rw [rsnsRow_of_live who.isLt true hl, if_neg (by simp [hi]), if_pos rfl]

/-- Settles O19: the pins out of place by `exec_avldOutOfTenure`, `exec_unattachedRequest` and `exec_response_collided`; the reset sense
pins by what `resetSense` and `resetEnd` leave, which waiting work keeps. -/
theorem strayPinsAndResetSense : Obligations.StrayPinsAndResetSense := by
  refine ⟨fun s p hs hl hg hq => exec_avldOutOfTenure hs hl hg hq, fun s p k hs hl he ha => exec_unattachedRequest hs hl he ha,
    fun s p pins r upset hs he hl ha => ⟨_, exec_response_collided hs he hl ha upset, ?_⟩,
    fun s who hs => ⟨_, exec_resetSenseAssert hs who, ?_⟩, fun s who hs => ⟨_, exec_resetSenseDeassert hs who, deassert_frame s who⟩⟩
  · have hx := settle_extends (sendResp s p r true upset)
    have hq : (port s p).quiet = true := by
      simp only [launchOpen, Bool.and_eq_true] at hl
      exact hl.1.2
    have ho := hx.out
    rw [sendResp_out] at ho
    rw [hx.port, port_sendResp]
    exact ⟨rfl, hq, rfl, hx, ho⟩
  · obtain ⟨hpin, hrsns, hregs, hvlt, hu⟩ := assert_frame s who
    refine ⟨hpin, hrsns, hregs, hvlt, hu, fun hl hi => ?_⟩
    have hin : inReset (rsnsRow s who true) who = true := by
      rw [inReset, hrsns, if_pos hl]
      exact getLsbD_setBit_self _ _ who.isLt
    have hx := settle_extends (resetSense (withPin s who true) who)
    rw [← assert_effect hl hi] at hx
    have hp : port (rsnsRow s who true) (portOf who) = portReset who (port s (portOf who)) :=
      (hx.port _).trans ((port_resetSense ..).trans (by cases portOf who.val <;> rfl))
    rw [hp]
    refine ⟨not_owed_of_inReset hin, rfl, fun r hr => ?_, ⟨hx, fun r hr => ?_, fun hw x hm hxp => resetSense_probes hw hm hxp⟩,
      fun cb hw hlock => ?_⟩
    · simpa using (Option.filter_eq_some_iff.1 hr).2
    · rw [resetSense_resps] at hr
      simpa using (List.mem_filter.1 hr).2
    · obtain ⟨hb, hc, hr⟩ := resetSense_breaks (s := withPin s who true) hw hlock
      exact ⟨by rw [hx.brk, hb], (hx.counts _ (by decide)).trans hc, hx.ints _ hr⟩

/-! ## The settings of a port (02 R56, R57, R59) -/

theorem extractLsb'_eq_of_fld {w : Nat} {x y : BitVec w} {hi lo : Nat} (h : fld x hi lo = fld y hi lo) :
    x.extractLsb' lo (hi + 1 - lo) = y.extractLsb' lo (hi + 1 - lo) := BitVec.eq_of_toNat_eq h

theorem getLsbD_of_fld {w : Nat} {x y : BitVec w} {hi lo i : Nat} (h : fld x hi lo = fld y hi lo) (hl : lo ≤ i) (hh : i ≤ hi) :
    x.getLsbD i = y.getLsbD i := by
  have := congrArg (·.getLsbD (i - lo)) (extractLsb'_eq_of_fld h)
  simpa [show i - lo < hi + 1 - lo by omega, Nat.add_sub_cancel' hl] using this

/-- EN, CLKDIV and ATTACHED are stored bits. -/
theorem agpCfg_stored (p : PortId) (val : Reg32) : (val &&& storedMask (rAgpCfg p)).getLsbD 31 = val.getLsbD 31 ∧
    fld (val &&& storedMask (rAgpCfg p)) 13 12 = fld val 13 12 ∧ fld (val &&& storedMask (rAgpCfg p)) 5 0 = fld val 5 0 := by
  have hm : storedMask (rAgpCfg p) = storedMask 0x0000 := by cases p <;> rfl
  have h31 : (storedMask 0x0000).getLsbD 31 = true := by decide
  have hdiv : (storedMask 0x0000).extractLsb' 12 2 = BitVec.allOnes 2 := by decide
  have hatt : (storedMask 0x0000).extractLsb' 0 6 = BitVec.allOnes 6 := by decide
  rw [hm, BitVec.getLsbD_and, h31, Bool.and_true]
  refine ⟨rfl, congrArg BitVec.toNat ?_, congrArg BitVec.toNat ?_⟩
  · rw [BitVec.extractLsb'_and, hdiv, BitVec.and_allOnes]
  · rw [BitVec.extractLsb'_and, hatt, BitVec.and_allOnes]

section
variable {s : State} {p : PortId} {val : Reg32} (he : portEn s p = true)
include he

theorem agpWrite_of_changed (h : fld (reg s (rAgpCfg p)) 13 12 ≠ fld val 13 12 ∨ fld (reg s (rAgpCfg p)) 5 0 ≠ fld val 5 0) :
    agpWrite s p val = breach (regPut s (rAgpCfg p) val) .r57 := by
  obtain ⟨-, hd, ha⟩ := agpCfg_stored p val
  unfold portEn at he
  simp [agpWrite, reg_regPut_self, hd, ha, he, h]

theorem agpWrite_of_disabled (h31 : val.getLsbD 31 = false) (hd : fld (reg s (rAgpCfg p)) 13 12 = fld val 13 12) (h3 : fld val 13 12 ≠ 3)
    (ha : fld (reg s (rAgpCfg p)) 5 0 = fld val 5 0) : agpWrite s p val = keepReady (regPut s (rAgpCfg p) val) p := by
  obtain ⟨hs31, hsd, hsa⟩ := agpCfg_stored p val
  unfold portEn at he
  have hgone : ((List.range 4).filter fun k => (reg s (rAgpCfg p)).getLsbD k && !(val &&& storedMask (rAgpCfg p)).getLsbD k) = [] := by
    refine List.filter_eq_nil_iff.2 fun k hk => ?_
    have hk := List.mem_range.1 hk
    rw [getLsbD_of_fld (ha.trans hsa.symm) (Nat.zero_le k) (by omega)]
    simp
  simp only [agpWrite, reg_regPut_self]
  generalize val &&& storedMask (rAgpCfg p) = new at hs31 hsd hsa hgone ⊢
  simp only [hsd, hsa, hs31, he, hd, ha, h3, h31, hgone]
  simp

end

/-- A keyed write of AGP_CFGx is `agpWrite` in a state `b` that has spent the key and differs from `s` in nothing that a port sees. -/
theorem performRegWrite_agp {s : State} {who : Nat} (p : PortId) (val : Reg32) (hu : s.cfg.unlocked = some who) :
    ∃ b, performRegWrite s who (rAgpCfg p) val = agpWrite b p val ∧ b.bus = s.bus ∧ b.prb = s.prb ∧ b.undef = s.undef ∧ b.vlt = s.vlt ∧
      b.cfg.unlocked = none ∧ (∀ o, reg b o = reg s o) ∧ portEn b p = portEn s p := by
  obtain ⟨r, h⟩ := keyedChange_eq { s with cfg := { s.cfg with unlocked := none } }
  refine ⟨memberWrite (spendKey s), ?_, ?_⟩
  · rw [performRegWrite_of_key val (by cases p <;> rfl) hu, acceptWrite, if_pos (by cases p <;> rfl)]
    cases p <;> rfl
  · rw [spendKey, h]
    exact ⟨rfl, rfl, rfl, rfl, rfl, fun _ => rfl, rfl⟩

theorem respReady_congr {s t : State} (hb : t.bus = s.bus) (hp : t.prb = s.prb) (r : Resp) : respReady t r = respReady s r := by
  simp [respReady, staleData, backBusy, issuerProbed, getReq, answeredFirst, earlier, port, hb, hp]

theorem port_keepReady (s : State) (p q : PortId) : port (keepReady s p) q = port s q := by cases q <;> rfl

theorem Ext.undef {a s : State} (h : Ext a s) : s.undef = a.undef := congrArg (fun x => x.undef) h.fixed

section
variable {s : State} {who : Fin 8} {p : PortId} {val : Reg32} (hs : s.up) (hr : rowReady s who (rAgpCfg p) val)
include hs hr

theorem exec_agpCfg :
    exec (.registerWrite who (BitVec.ofNat 16 (rAgpCfg p)) val) s = .next (settle (performRegWrite s who (rAgpCfg p) val)) := by
  have ho : (BitVec.ofNat 16 (rAgpCfg p)).toNat = rAgpCfg p := by cases p <;> rfl
  rw [exec_registerWrite hs who val (by rw [ho]; cases p <;> rfl), ho, regRow_of_ready hr]

theorem exec_portDisable (he : portEn s p = true) (h31 : val.getLsbD 31 = false) :
    exec (.portDisable who p val) s = .next (settle (performRegWrite s who (rAgpCfg p) val)) := by
  refine (guarded_of_defined hs.1 fun s => when s (portEn s p && !val.getLsbD 31) fun s => regRow s who (rAgpCfg p) val).trans
    (congrArg _ ?_)
  rw [when, he, h31, Bool.not_false, Bool.and_self, if_pos rfl, regRow_of_ready hr]

variable (hu : s.cfg.unlocked = some who.val) (he : portEn s p = true)
include hu he

theorem changedSetting_breaches (h : fld (reg s (rAgpCfg p)) 13 12 ≠ fld val 13 12 ∨ fld (reg s (rAgpCfg p)) 5 0 ≠ fld val 5 0) :
    ∃ t, exec (.registerWrite who (BitVec.ofNat 16 (rAgpCfg p)) val) s = .next t ∧ t.undef = some .r57 := by
  obtain ⟨b, hp, -, -, -, -, -, hreg, hen⟩ := performRegWrite_agp p val hu
  refine ⟨_, exec_agpCfg hs hr, ?_⟩
  rw [(settle_extends _).undef, hp, agpWrite_of_changed (hen.trans he) (by rwa [hreg])]
  rfl

/-- A write that only clears EN. -/
theorem portDisable_leaves (h31 : val.getLsbD 31 = false) (hd : fld (reg s (rAgpCfg p)) 13 12 = fld val 13 12) (h3 : fld val 13 12 ≠ 3)
    (ha : fld (reg s (rAgpCfg p)) 5 0 = fld val 5 0) : ∃ t, exec (.portDisable who p val) s = .next t ∧ t.undef = none ∧
      portEn t p = false ∧ attachedMask t p = attachedMask s p ∧ (port t p).granted = (port s p).granted ∧
      (let a := performRegWrite s who (rAgpCfg p) val
       Ext a t ∧ a.bus.resps = s.bus.resps.map fun r => if portOf r.who == p && respReady s r then { r with kept := true } else r) ∧
      (port t p).again = (port s p).again ∧ t.cfg.unlocked = none ∧ (∀ off, off ≠ rAgpCfg p → reg t off = reg s off) ∧ t.vlt = s.vlt := by
  obtain ⟨b, hp, hbus, hprb, hundef, hvlt, hkey, hreg, hen⟩ := performRegWrite_agp p val hu
  obtain ⟨hs31, -, hsa⟩ := agpCfg_stored p val
  have hx := settle_extends (performRegWrite s who (rAgpCfg p) val)
  refine ⟨_, exec_portDisable hs hr he h31, ?_⟩
  rw [hp, agpWrite_of_disabled (hen.trans he) h31 (by rwa [hreg]) h3 (by rwa [hreg])] at hx ⊢
  have hnew := (hx.reg (rAgpCfg p)).trans (reg_regPut_self ..)
  have hport := (hx.port p).trans ((port_keepReady ..).trans (port_congr ((regPut_bus b ..).trans hbus) p))
  refine ⟨hx.undef.trans (hundef.trans hs.1), ?_, ?_, congrArg Port.granted hport, ⟨hx, ?_⟩, congrArg Port.again hport,
    (hx.cfg Cfg.unlocked).trans hkey, fun o ho => ?_, hx.vlt.trans hvlt⟩
  · rw [portEn, hnew, hs31, h31]
  · rw [attachedMask, attachedMask, hnew]
    exact extractLsb'_eq_of_fld (hsa.trans ha.symm)
  · simp only [keepReady_bus, updIf, respReady_congr ((regPut_bus b ..).trans hbus) ((regPut_prb b ..).trans hprb), regPut_bus, hbus]
  · exact (hx.reg o).trans ((reg_regPut_ne _ val ho).trans (hreg o))

end

/-- Settles O20: a changed setting is a breach (`agpWrite_of_changed`); a write that only clears EN marks the responses that are ready
(`agpWrite_of_disabled`). -/
theorem portSettingsFixedWhileEnabled : Obligations.PortSettingsFixedWhileEnabled :=
  ⟨fun _ _ _ _ hs hr hu he h => changedSetting_breaches hs hr hu he h,
    fun _ _ _ _ hs hr hu he h31 hd h3 ha => portDisable_leaves hs hr hu he h31 hd h3 ha⟩

/-! ## The results of ATOMIC (02 R50, 07 R175) -/

theorem testBit_spread (n m j : Nat) : (spread n m).testBit j = (decide (j < 8 * n) && m.testBit (j / 8)) := by
  induction n with
  | zero => simp [spread]
  | succ n ih =>
    have hb : (if m.testBit n then 0xFF <<< (8 * n) else 0 : Nat).testBit j = (m.testBit n && decide (j / 8 = n)) := by
      have hff : (0xFF : Nat) = 2 ^ 8 - 1 := rfl
      by_cases hm : m.testBit n
      · rw [if_pos hm, hff, Nat.testBit_shiftLeft, Nat.testBit_two_pow_sub_one, hm, Bool.true_and, ← Bool.decide_and]
        exact decide_eq_decide.2 (by omega)
      · rw [if_neg hm, Nat.zero_testBit, eq_false_of_ne_true hm, Bool.false_and]
    rw [spread, Nat.testBit_or, ih, hb]
    by_cases hj : j / 8 = n
    · have h1 : ¬ j < 8 * n := by omega
      have h2 : j < 8 * (n + 1) := by omega
      simp [hj, h1, h2]
    · have h1 : j < 8 * (n + 1) ↔ j < 8 * n := by omega
      simp [hj, h1]

theorem getLsbD_spreadSector (m : SectorMask) {j : Nat} (hj : j < 512) : (spreadSector m).getLsbD j = m.getLsbD (j / 8) := by
  rw [spreadSector, BitVec.getLsbD_ofNat, testBit_spread, decide_eq_true hj]
  exact Bool.true_and _

/-- The old bytes in the masked lanes, 0 in the others. -/
theorem getLsbD_atomicBeat {q : Req} (old : Sector) {i : Nat} (hf : firstBeat q.addr < 8) (hi : i < 64) : (atomicBeat q old).getLsbD i =
    (q.mask.getLsbD (8 * firstBeat q.addr + i / 8) && old.getLsbD (64 * firstBeat q.addr + i)) := by
  rw [atomicBeat, beatOf, BitVec.getLsbD_extractLsb', BitVec.getLsbD_and, getLsbD_spreadSector _ (by omega), decide_eq_true hi,
    Bool.true_and, Bool.and_comm, show (64 * firstBeat q.addr + i) / 8 = 8 * firstBeat q.addr + i / 8 by omega]

/-- A naturally aligned group of lanes: where it begins and how wide it is. -/
theorem group_in_beat : ∀ w ∈ [1, 2, 4, 8], ∀ i ∈ List.range (8 / w),
    (((List.range 8).find? fun k => ((2 ^ w - 1) <<< (w * i)).testBit k).getD 0) + ones 8 ((2 ^ w - 1) <<< (w * i)) ≤ 8 := by decide

theorem atomicGroup_in_beat {q : Req} (h : atomicMaskOk q.addr q.mask = true) : (atomicGroup q).1 + (atomicGroup q).2 ≤ 8 := by
  simp only [atomicMaskOk, Bool.and_eq_true, List.any_eq_true, beq_iff_eq] at h
  obtain ⟨-, w, hw, i, hi, hl⟩ := h
  simp only [atomicGroup, hl]
  exact group_in_beat w hw i hi

/-- A value placed in the lanes of its beat is read there. -/
theorem laneVal_place {q : Req} {f v : Nat} (hf : f < 8) (hg : (atomicGroup q).1 + (atomicGroup q).2 ≤ 8)
    (hv : v < 2 ^ (8 * (atomicGroup q).2)) :
    laneVal q (beatOf (BitVec.ofNat 512 (v <<< (64 * f + 8 * (atomicGroup q).1))) f) = v := by
  rcases hq : atomicGroup q with ⟨g, w⟩
  simp only [laneVal, hq] at hg hv ⊢
  have hgw : v * 2 ^ (8 * g) < 2 ^ 64 := calc
    v * 2 ^ (8 * g) < 2 ^ (8 * w) * 2 ^ (8 * g) := Nat.mul_lt_mul_of_pos_right hv (Nat.two_pow_pos _)
    _ = 2 ^ (8 * w + 8 * g) := (pow_add ..).symm
    _ ≤ 2 ^ 64 := Nat.pow_le_pow_right (by decide) (by omega)
  have hf' : 64 + 64 * f ≤ 512 := by omega
  have h512 : v * 2 ^ (8 * g) * 2 ^ (64 * f) < 2 ^ 512 := calc
    v * 2 ^ (8 * g) * 2 ^ (64 * f) < 2 ^ 64 * 2 ^ (64 * f) := Nat.mul_lt_mul_of_pos_right hgw (Nat.two_pow_pos _)
    _ = 2 ^ (64 + 64 * f) := (pow_add ..).symm
    _ ≤ 2 ^ 512 := (pow_le_pow_iff_right₀ one_lt_two).2 hf'
  have hs : v <<< (64 * f + 8 * g) = v * 2 ^ (8 * g) * 2 ^ (64 * f) := by
    rw [Nat.shiftLeft_eq, pow_add, Nat.mul_assoc, Nat.mul_comm (2 ^ (64 * f))]
  simp only [beatOf, BitVec.extractLsb'_toNat, BitVec.toNat_ofNat, hs, Nat.shiftRight_eq_div_pow, Nat.mod_eq_of_lt h512,
    Nat.mul_div_cancel _ (Nat.two_pow_pos _), Nat.mod_eq_of_lt hgw, Nat.mod_eq_of_lt hv]

theorem atomicResult_swap {q : Req} (old : Sector) (h : q.op = 0) : atomicResult q old = some q.data := by
  simp [atomicResult, h]

theorem atomicResult_compareSwap {q : Req} (old : Sector) (h : q.op = 2) : atomicResult q old =
    if laneVal q (beatOf old (firstBeat q.addr)) = laneVal q q.cmp then some q.data else none := by
  simp [atomicResult, h]

theorem atomicResult_add {q : Req} (old : Sector) (h : q.op = 1) : atomicResult q old =
    some (BitVec.ofNat 512 (((laneVal q (beatOf old (firstBeat q.addr)) + laneVal q (beatOf q.data (firstBeat q.addr))) %
      2 ^ (8 * (atomicGroup q).2)) <<< (64 * firstBeat q.addr + 8 * (atomicGroup q).1))) := by
  simp [atomicResult, h]

/-! ## The performing pass (07 R175, R176) -/

/-- Taking its turn, an operation uses the pipeline's share and its round, no more. -/
theorem turn_eq {s t : State} {o : PipeOp} {k n : Nat} (h : turn s o k = some (t, n)) : ∃ q, t = { s with qtk := q } := by
  have took {q : Qtk} {m : Nat} (e : some (({ s with qtk := q } : State), m) = some (t, n)) : ∃ q, t = { s with qtk := q } := by
    cases e
    exact ⟨_, rfl⟩
  have pick {c : Prop} [Decidable c] {q : Qtk} {m : Nat} (e : (if c then some (({ s with qtk := q } : State), m) else none) = some (t, n)) :
      ∃ q, t = { s with qtk := q } := took (Option.ite_none_right_eq_some.1 e).2
  unfold turn at h
  dsimp only at h
  split at h
  · cases h
  · split at h
    · exact pick h
    · split at h
      · exact pick h
      · exact pick h
      · exact took h
      · split at h
        · exact pick h
        · cases h
      · exact took h

/-- Codeblock, data and valid bytes of the open entries. -/
def openBytes (s : State) : List (Nat × Block × BlockMask) := s.wrb.entries.map fun e => (e.cb, e.data, e.valid)

/-! ### What an answer and its request show -/

/-- Looking for an entry by what an update keeps. -/
theorem find?_updIf {α : Type} (l : List α) (p c : α → Bool) (f : α → α) (h : ∀ x, p x = true → c (f x) = c x) :
    (updIf l p f).find? c = (l.find? c).map fun x => if p x then f x else x := by
  have hc : (c ∘ fun x => if p x then f x else x) = c := by
    funext x
    show c (if p x then f x else x) = c x
    split
    · next hp => exact h x hp
    · rfl
  rw [updIf, List.find?_map, hc]

theorem getReq_updReq (s : State) (id : Nat) (f : Req → Req) (hf : ∀ r, (f r).id = r.id) :
    getReq (updReq s id f) id = (getReq s id).map f := by
  refine (find?_updIf s.bus.reqs _ _ f fun r _ => by rw [hf]).trans ?_
  show (getReq s id).map _ = _
  cases h : getReq s id with
  | none => rfl
  | some r => simp [(getReq_mem h).2]

/-- Once answered, a request of a port counts as such. -/
theorem responded_respond {s : State} {id : Nat} {rsp : Rsp} {b : List Beat64} {cb : Option Nat} {x : Req}
    (hx : getReq (respond s id rsp b cb) id = some x) (hw : x.who < 12) : responded (respond s id rsp b cb) x = true := by
  revert hx
  unfold respond
  split
  · next h => 
    intro hx
    rw [h] at hx
    cases hx
  · next r h =>
    split
    · next hr =>
      intro hx
      rw [h] at hx
      cases hx
      exact hr
    · split
      · next h12 =>
        intro hx
        rw [h] at hx
        cases hx
        omega
      · split
        · next hs =>
          intro hx
          rw [getReq_updReq _ _ _ (fun q => by split <;> rfl), h] at hx
          cases hx
          simp [responded, hs]
        · intro hx
          have hx : some r = some x := h.symm.trans hx
          cases hx
          simp [responded, (getReq_mem h).2]

/-- An answer leaves the queue places of requests as they are. -/
theorem mem_respond_reqs {s : State} {id : Nat} {rsp : Rsp} {b : List Beat64} {cb : Option Nat} {x : Req}
    (hx : x ∈ (respond s id rsp b cb).bus.reqs) : ∃ y ∈ s.bus.reqs, y.id = x.id ∧ y.queued = x.queued := by
  have same (h : x ∈ s.bus.reqs) : ∃ y ∈ s.bus.reqs, y.id = x.id ∧ y.queued = x.queued := ⟨x, h, rfl, rfl⟩
  unfold respond at hx
  split at hx
  · exact same hx
  · split_ifs at hx
    · exact same hx
    · exact same hx
    · obtain ⟨y, hy, rfl⟩ := List.mem_map.1 hx
      refine ⟨y, hy, ?_⟩
      split
      · dsimp only
        split <;> exact ⟨rfl, rfl⟩
      · exact ⟨rfl, rfl⟩
    · exact same hx

/-! ### What keeps the bytes of the open entries -/

theorem respond_wrb (s : State) (id : Nat) (rsp : Rsp) (b : List Beat64) (cb : Option Nat) : (respond s id rsp b cb).wrb = s.wrb := by
  obtain ⟨l, m, h⟩ := respond_eq s id rsp b cb
  rw [h]

theorem respond_prb (s : State) (id : Nat) (rsp : Rsp) (b : List Beat64) (cb : Option Nat) : (respond s id rsp b cb).prb = s.prb := by
  obtain ⟨l, m, h⟩ := respond_eq s id rsp b cb
  rw [h]

theorem foldl_wrb {β : Type} (l : List β) (f : State → β → State) (hf : ∀ s b, (f s b).wrb = s.wrb) (s : State) :
    (l.foldl f s).wrb = s.wrb :=
  List.foldlRecOn (motive := fun x : State => x.wrb = s.wrb) l f rfl fun x h b _ => (hf x b).trans h

section
variable (s : State)

theorem queueProbe_wrb (k : ProbeKind) (m : BitVec 8) (f : ProbeFor) : (queueProbe s k m f).wrb = s.wrb := by
  have on (s : State) (p : PortId) : (queueOn s k m f p).wrb = s.wrb := (apply_ite State.wrb ..).trans (ite_self _)
  exact (on _ .B).trans (on s .A)

theorem cancelFills_wrb (p : Handler → Bool) : (cancelFills s p).wrb = s.wrb := (apply_ite State.wrb ..).trans (ite_self _)

theorem tagPutBits_wrb (pos : Nat) (v : BitVec 40) : (tagPutBits s pos v).wrb = s.wrb := (apply_ite State.wrb ..).trans (ite_self _)

theorem invalPos_wrb (pos : Nat) (f : ProbeFor) : (invalPos s pos f).wrb = s.wrb := by
  unfold invalPos
  extract_lets t s1 s2
  have h1 : s1.wrb = s.wrb := by
    unfold s1
    split
    · exact queueProbe_wrb ..
    · rfl
  have h2 : s2.wrb = s.wrb := (cancelFills_wrb ..).trans h1
  split
  · exact h2
  · exact (tagPutBits_wrb ..).trans h2

theorem dropFiltered_wrb (cb : Nat) (f : ProbeFor) : (dropFiltered s cb f).wrb = s.wrb := by
  have h := foldl_wrb (filteredPos s cb) (fun s p => invalPos s p f) (fun s p => invalPos_wrb s p f) s
  unfold dropFiltered
  dsimp only
  split
  · exact h
  · exact h

theorem clearPres_wrb (pos : Nat) (m : BitVec 8) : (clearPres s pos m).wrb = s.wrb := by
  unfold clearPres
  dsimp only
  split
  · rfl
  · exact tagPutBits_wrb ..

theorem storeHit_wrb (pos : Nat) (d : Block) (m : BlockMask) (c : Bool) (k : Nat) : (storeHit s pos d m c k).wrb = s.wrb := by
  rw [storeHit, addRuns]
  refine foldl_wrb _ _ (fun s l => ?_) s
  rfl

theorem suspectEvent_wrb (p w c : Nat) : (suspectEvent s p w c).wrb = s.wrb := by
  unfold suspectEvent
  extract_lets e evicted e' noted
  have h1 : noted.wrb = s.wrb := by
    unfold noted
    split
    · rfl
    · unfold evicted
      split
      · rfl
      · split <;> rfl
  split
  · split
    · exact h1
    · exact h1
  · exact h1

theorem tagParity_wrb (i : Nat) (b : BitVec 16) : (tagParity s i b).wrb = s.wrb := by
  unfold tagParity
  split
  · rfl
  · refine (foldl_wrb _ _ (fun s w => suspectEvent_wrb s _ _ _) _).trans ?_
    simp [due2]

end

theorem openBytes_of_wrb {s t : State} (h : t.wrb = s.wrb) : openBytes t = openBytes s := by rw [openBytes, h, openBytes]

theorem openBytes_updEntry (s : State) (id : Nat) (f : Entry → Entry)
    (hf : ∀ e, ((f e).cb, (f e).data, (f e).valid) = (e.cb, e.data, e.valid)) : openBytes (updEntry s id f) = openBytes s :=
  map_updIf _ _ f _ fun e _ => hf e

theorem markE_bytes (r : DrainRank) (e : Entry) : ((markE r e).cb, (markE r e).data, (markE r e).valid) = (e.cb, e.data, e.valid) := by
  unfold markE
  split <;> rfl

theorem openBytes_markIfFull (s : State) (id : Nat) : openBytes (markIfFull s id) = openBytes s := by
  unfold markIfFull
  split
  · extract_lets full
    split
    · exact openBytes_updEntry _ _ _ (markE_bytes _)
    · rfl
  · rfl

theorem openBytes_fetchOver (s : State) (r : Req) (e : Entry) : openBytes (fetchOver s r e) = openBytes s := by
  unfold fetchOver
  extract_lets others
  split
  · refine openBytes_updEntry _ _ _ fun e => ?_
    dsimp only
    split
    · exact markE_bytes ..
    · rfl
  · rfl

theorem openBytes_wakeWatches (s : State) (cb : Nat) : openBytes (wakeWatches s cb) = openBytes s := by
  unfold wakeWatches
  dsimp only
  refine (openBytes_of_wrb (foldl_wrb _ _ ?_ _)).trans ?_
  · exact fun s r => respond_wrb ..
  · rfl

/-- The open entry of a codeblock, by its bytes. -/
theorem openEntry_of_bytes {s : State} {cb : Nat} {b : Block} {v : BlockMask}
    (h : (openBytes s).find? (·.1 == cb) = some (cb, b, v)) : ∃ e, openEntry s cb = some e ∧ e.data = b ∧ e.valid = v := by
  rw [openBytes, List.find?_map] at h
  obtain ⟨e, he, hb⟩ := Option.map_eq_some_iff.1 h
  exact ⟨e, he, congrArg (·.2.1) hb, congrArg (·.2.2) hb⟩

/-! ### The write of a performing pass -/

/-- What a write does to the cached copy and queues as probes (07 R159). -/
def writeProbes (s : State) (r : Req) (data : Block) (mask : BlockMask) (all poison : Bool) : State :=
  let f : ProbeFor := { who := some (r.who, r.id), atomic := if all then some r.id else none }
  match storeLook s (reqCb r) (reqCacheable r) with
  | .broadcast => queueProbe s (.inv (reqCb r)) (if all then attachedAgents s else broadcastAgents s r.who) f
  | .filtered => dropFiltered s (reqCb r) f
  | .found p =>
    if poison then invalPos s p f
    else
      let h := storeHolders s p r.who all
      let s := queueProbe s (.inv (reqCb r)) h f
      storeHit (clearPres s p (h &&& ~~~s.prb.unresp)) p data mask r.counted r.cls
  | .parErr bad => tagParity s (setOf s (reqCb r)) bad
  | .absent => s

theorem writeThrough_eq (s : State) (r : Req) (data : Block) (mask : BlockMask) (all poison : Bool) : writeThrough s r data mask all poison =
    let x := entryFor (writeProbes s r data mask all poison) r
    wakeWatches (mergeInto x.1 x.2 data mask r.who poison) (reqCb r) := rfl

theorem writeProbes_wrb (s : State) (r : Req) (data : Block) (mask : BlockMask) (all poison : Bool) :
    (writeProbes s r data mask all poison).wrb = s.wrb := by
  unfold writeProbes
  extract_lets f
  split
  · exact queueProbe_wrb ..
  · exact dropFiltered_wrb ..
  · split
    · exact invalPos_wrb ..
    · exact (storeHit_wrb ..).trans ((clearPres_wrb ..).trans (queueProbe_wrb ..))
  · exact tagParity_wrb ..
  · rfl

/-- A write to a codeblock with an open entry merges into it. -/
theorem writeThrough_merges {s : State} {r : Req} {e : Entry} (data : Block) (mask : BlockMask) (all poison : Bool)
    (he : openEntry s (reqCb r) = some e) : (openBytes (writeThrough s r data mask all poison)).find? (·.1 == reqCb r) =
      some (reqCb r, overBlock e.data data mask, e.valid ||| mask) := by
  have ho : openEntry (writeProbes s r data mask all poison) (reqCb r) = some e := by
    rw [openEntry, writeProbes_wrb]
    exact he
  have hcb : e.cb = reqCb r := by simpa using List.find?_some he
  have hent : entryFor (writeProbes s r data mask all poison) r = (writeProbes s r data mask all poison, e.id) := by
    simp [entryFor, allocEntry, ho]
  rw [writeThrough_eq, hent, openBytes_wakeWatches, mergeInto, openBytes_markIfFull, openBytes, updEntry, List.find?_map]
  refine (congrArg (Option.map _) (find?_updIf _ _ _ _ ?_)).trans ?_
  · exact fun _ _ => rfl
  · refine (congrArg (fun o => Option.map _ (Option.map _ o)) ho).trans ?_
    simp [hcb]

/-! ### The performing pass -/

/-- The state once a performing pass has written, if it does. -/
def passWritten (s : State) (r : Req) (e : Entry) : State :=
  if (r.fail != 0 && r.fail != 4) || r.cmd != .atomic then s
  else match atomicResult r (entrySector e r) with
    | some d => writeThrough s r (placeSector d (secOf r.pool)) (reqMask r) true (r.fail == 4)
    | none => if r.fail == 4 then writeThrough s r 0 0 true true else s

/-- The state once the request of a performing pass is performed, before its answer. -/
def passDone (s : State) (r : Req) (e : Entry) : State :=
  let s := fetchOver (passWritten s r e) r e
  updReq (if r.cmd == .atomic then s else setLock s r) r.id fun r => { r with phase := .done, queued := false }

/-- The performing pass ends with an answer; a LOCK_READ may set its agent's watch arm. -/
theorem performFetch_answers {s : State} {r : Req} {e : Entry} (hw : passWaits s r = false) (hb : passBad s r = none) :
    ∃ u rsp beats, (u = passDone s r e ∨ u = count (passDone s r e) cntPoolFail) ∧
      (performFetch s r e = respond u r.id rsp beats none ∨ performFetch s r e = armWatch (respond u r.id rsp beats none) r) := by
  have hrun : performFetch s r e =
      if (r.fail != 0 && r.fail != 4) = true then respond (count (passDone s r e) cntPoolFail) r.id .okPoison (poisonBeats r) none
      else if r.cmd == .atomic then respond (passDone s r e) r.id .ok [atomicBeat r (entrySector e r)] none
      else armWatch (respond (passDone s r e) r.id .ok (dataBeats r (entrySector e r)) none) r := by
    rw [performFetch, if_neg (ne_true_of_eq_false hw)]
    simp only [hb]
    rfl
  rw [hrun]
  split
  · exact ⟨_, _, _, .inr rfl, .inl rfl⟩
  · split
    · exact ⟨_, _, _, .inl rfl, .inl rfl⟩
    · exact ⟨_, _, _, .inl rfl, .inr rfl⟩

theorem armWatch_bus (s : State) (r : Req) : (armWatch s r).bus = s.bus := (apply_ite State.bus ..).trans (ite_self _)

theorem armWatch_prb (s : State) (r : Req) : (armWatch s r).prb = s.prb := (apply_ite State.prb ..).trans (ite_self _)

theorem armWatch_entries (s : State) (r : Req) : (armWatch s r).wrb.entries = s.wrb.entries :=
  (apply_ite (fun s : State => s.wrb.entries) ..).trans (ite_self _)

theorem armWatch_locks (s : State) (r : Req) : (armWatch s r).wrb.locks = s.wrb.locks :=
  (apply_ite (fun s : State => s.wrb.locks) ..).trans (ite_self _)

/-- Beside its answer the pass leaves what `passDone` says. -/
theorem performFetch_shows {s : State} {r : Req} {e : Entry} (hw : passWaits s r = false) (hb : passBad s r = none) :
    ∃ u rsp beats, u.bus = (passDone s r e).bus ∧ (performFetch s r e).bus = (respond u r.id rsp beats none).bus ∧
      (performFetch s r e).prb = (passDone s r e).prb ∧ (performFetch s r e).wrb.entries = (passDone s r e).wrb.entries ∧
      (performFetch s r e).wrb.locks = (passDone s r e).wrb.locks := by
  obtain ⟨u, rsp, beats, hu, hp⟩ := performFetch_answers (e := e) hw hb
  obtain ⟨hbus, hprb, hwrb⟩ : u.bus = (passDone s r e).bus ∧ u.prb = (passDone s r e).prb ∧ u.wrb = (passDone s r e).wrb := by
    rcases hu with rfl | rfl <;> exact ⟨rfl, rfl, rfl⟩
  refine ⟨u, rsp, beats, hbus, ?_⟩
  rcases hp with h | h <;> rw [h]
  · rw [respond_prb, respond_wrb, hprb, hwrb]
    exact ⟨rfl, rfl, rfl, rfl⟩
  · rw [armWatch_bus, armWatch_prb, armWatch_entries, armWatch_locks, respond_prb, respond_wrb, hprb, hwrb]
    exact ⟨rfl, rfl, rfl, rfl⟩

theorem openBytes_passDone (s : State) (r : Req) (e : Entry) : openBytes (passDone s r e) = openBytes (passWritten s r e) := by
  refine Eq.trans ?_ (openBytes_fetchOver (passWritten s r e) r e)
  unfold passDone
  dsimp only
  split
  · rfl
  · rfl

theorem fetchOver_prb (s : State) (r : Req) (e : Entry) : (fetchOver s r e).prb = s.prb := by
  unfold fetchOver
  extract_lets others
  split
  · rfl
  · rfl

theorem passDone_prb (s : State) (r : Req) (e : Entry) : (passDone s r e).prb = (passWritten s r e).prb := by
  refine Eq.trans ?_ (fetchOver_prb (passWritten s r e) r e)
  unfold passDone
  dsimp only
  split
  · rfl
  · rfl

theorem lock_mem_passDone {s : State} {r : Req} {e : Entry} (h : r.cmd = .lockRead) :
    (r.who, reqCb r, 0) ∈ (passDone s r e).wrb.locks := by
  simp [passDone, h, setLock, updReq]

/-- The performed request holds no place in a store queue. -/
theorem passDone_unqueued {s : State} {r x : Req} {e : Entry} (hx : x ∈ (passDone s r e).bus.reqs) (hid : x.id = r.id) :
    x.queued = false := by
  obtain ⟨y, -, rfl⟩ := List.mem_map.1 hx
  by_cases hy : (y.id == r.id) = true
  · rw [if_pos hy]
  · rw [if_neg hy] at hid
    exact absurd (beq_iff_eq.2 hid) hy

theorem passWritten_of_result {s : State} {r : Req} {e : Entry} {d : Sector} (hf : r.fail = 0) (hc : r.cmd = .atomic)
    (hd : atomicResult r (entrySector e r) = some d) :
    passWritten s r e = writeThrough s r (placeSector d (secOf r.pool)) (reqMask r) true false := by
  simp [passWritten, hf, hc, hd]

/-- A compare that fails writes nothing. -/
theorem passWritten_of_noResult {s : State} {r : Req} {e : Entry} (hf : r.fail = 0) (hc : r.cmd = .atomic)
    (hd : atomicResult r (entrySector e r) = none) : passWritten s r e = s := by
  simp [passWritten, hf, hc, hd]

theorem overBlock_masked (a b : Block) (m : BlockMask) : overBlock a b m &&& spreadBlock m = b &&& spreadBlock m := by
  ext i hi
  simp only [overBlock, BitVec.getElem_and, BitVec.getElem_or, BitVec.getElem_not]
  cases (spreadBlock m)[i] <;> simp

theorem or_and_mask (v m : BlockMask) : (v ||| m) &&& m = m := by
  ext i hi
  rw [BitVec.getElem_and, BitVec.getElem_or]
  cases v[i] <;> simp

section
variable {s z : State} {r : Fin 13} {q : Req} {e : Entry} {n : Nat} (hs : s.up) (hq : (storeQueue s r).head? = some q)
  (hf : q.phase = .fetched) (ht : turn s (.pass r) 1 = some (z, n)) (he : openEntry s (reqCb q) = some e)
include hs hq hf ht he

theorem exec_atomicPerformingPass : exec (.atomicPerformingPass r) s = .next (settle (performFetch z q e)) := by
  have hon : isOn s = true := beq_iff_eq.2 hs.2
  have hrow : pipeRow s (.pass r) 1 false = settle (performingPass z r) := by rw [pipeRow, ht]; rfl
  refine (guarded_of_defined hs.1 fun s => when s (isOn s) fun s => pipeRow s (.pass r) 1 false).trans (congrArg _ ?_)
  rw [when, if_pos hon, hrow]
  obtain ⟨k, rfl⟩ := turn_eq ht
  have hq' : (storeQueue { s with qtk := k } r).head? = some q := hq
  have he' : openEntry { s with qtk := k } (reqCb q) = some e := he
  simp only [performingPass, hq', if_pos hf, he']

end

section
variable {s : State} {q : Req} {e : Entry} (hw : passWaits s q = false) (hb : passBad s q = none)
include hw hb

theorem openBytes_performFetch : openBytes (performFetch s q e) = openBytes (passWritten s q e) := by
  obtain ⟨u, rsp, beats, -, -, -, hent, -⟩ := performFetch_shows (e := e) hw hb
  rw [← openBytes_passDone, openBytes, hent, openBytes]

/-- What the pass writes stands in the open entry. -/
theorem performFetch_writes (hf : q.fail = 0) (hc : q.cmd = .atomic) {d : Sector} (hd : atomicResult q (entrySector e q) = some d)
    (he : openEntry s (reqCb q) = some e) : ∃ e', openEntry (performFetch s q e) (reqCb q) = some e' ∧
      e'.data &&& spreadBlock (reqMask q) = placeSector d (secOf q.pool) &&& spreadBlock (reqMask q) ∧
      e'.valid &&& reqMask q = reqMask q := by
  obtain ⟨e', ho, hdata, hvalid⟩ := openEntry_of_bytes (s := performFetch s q e) (by
    rw [openBytes_performFetch hw hb, passWritten_of_result hf hc hd]
    exact writeThrough_merges _ _ _ _ he)
  refine ⟨e', ho, ?_, ?_⟩
  · rw [hdata, overBlock_masked]
  · rw [hvalid, or_and_mask]

theorem performFetch_probesNobody (hf : q.fail = 0) (hc : q.cmd = .atomic) (hd : atomicResult q (entrySector e q) = none) :
    (performFetch s q e).prb = s.prb ∧ openBytes (performFetch s q e) = openBytes s := by
  obtain ⟨u, rsp, beats, -, -, hprb, -, -⟩ := performFetch_shows (e := e) hw hb
  rw [openBytes_performFetch hw hb, hprb, passDone_prb, passWritten_of_noResult hf hc hd]
  exact ⟨rfl, rfl⟩

theorem performFetch_locks (hc : q.cmd = .lockRead) : (q.who, reqCb q, 0) ∈ (performFetch s q e).wrb.locks := by
  obtain ⟨u, rsp, beats, -, -, -, -, hlocks⟩ := performFetch_shows (e := e) hw hb
  rw [hlocks]
  exact lock_mem_passDone hc

theorem performFetch_responded {x : Req} (hx : getReq (performFetch s q e) q.id = some x) (h12 : x.who < 12) :
    responded (performFetch s q e) x = true := by
  obtain ⟨u, rsp, beats, -, hbus, -, -, -⟩ := performFetch_shows (e := e) hw hb
  have hx : getReq (respond u q.id rsp beats none) q.id = some x := by rwa [getReq, hbus] at hx
  have := responded_respond hx h12
  rwa [responded, hbus]

theorem performFetch_unqueued {x : Req} (hx : x ∈ (performFetch s q e).bus.reqs) (hid : x.id = q.id) : x.queued = false := by
  obtain ⟨u, rsp, beats, hu, hbus, -, -, -⟩ := performFetch_shows (e := e) hw hb
  rw [hbus] at hx
  obtain ⟨y, hy, hyid, hyq⟩ := mem_respond_reqs hx
  rw [hu] at hy
  exact hyq.symm.trans (passDone_unqueued hy (hyid.trans hid))

end

theorem Ext.icb {a s : State} (h : Ext a s) : s.icb = a.icb := congrArg (fun x => x.icb) h.fixed

/-- Settles O33: the pass in its turn is `performFetch` (`exec_atomicPerformingPass`), which writes as `passWritten` says and answers
(`performFetch_shows`); the results are those of `atomicResult_swap`, `atomicResult_compareSwap` and `atomicResult_add`. -/
theorem atomicAndLockReads : Obligations.AtomicAndLockReads := by
  refine ⟨?_, ?_⟩
  · intro s z n r q e hs hq hf ht he hw hb _
    refine ⟨_, exec_atomicPerformingPass hs hq hf ht he, ?_⟩
    have hx := settle_extends (performFetch z q e)
    have hz := settle_ext (performFetch_ext q e (Ext.refl z))
    obtain ⟨k, rfl⟩ := turn_eq ht
    have hw : passWaits { s with qtk := k } q = false := hw
    have hb : passBad { s with qtk := k } q = none := hb
    refine ⟨⟨hx, fun hf hc d hd => performFetch_writes hw hb hf hc hd he, fun hf hc hd => ?_, performFetch_locks hw hb,
      fun x => performFetch_responded hw hb, fun x => performFetch_unqueued hw hb⟩, hz.vlt, hz.icb⟩
    obtain ⟨hp, hbytes⟩ := performFetch_probesNobody hw hb hf hc hd
    exact ⟨congrArg (·.probes) hp, hbytes⟩
  · intro q old hf
    exact ⟨atomicResult_swap old, atomicResult_compareSwap old,
      fun h hm => ⟨_, atomicResult_add old h, laneVal_place hf (atomicGroup_in_beat hm) (Nat.mod_lt _ (Nat.two_pow_pos _))⟩,
      fun i hi => getLsbD_atomicBeat old hf hi⟩

end Sys2Proof.Machine

/-! SUPPORT. Proofs of the statements of `03_probes_and_presence.md`: the probe word, the sending of probes, and their
acknowledgement, timeout and revival. -/

namespace Sys2Proof.Machine
set_option Elab.async false

/-! ## The probe word (03 R75, R78) -/

theorem testBit_byteParity (n x i : Nat) : (byteParity n x).testBit i = (decide (i < n) && parity 8 (x >>> (8 * i))) := by
  unfold byteParity
  induction n with
  | zero => simp
  | succ n ih =>
    have hset (c : Bool) (a : Nat) : (if c then a ||| (1 <<< n) else a).testBit i = (a.testBit i || (c && decide (n = i))) := by
      cases c <;> simp [Nat.one_shiftLeft, Nat.testBit_two_pow]
    rw [List.range_succ, List.foldl_append, List.foldl_cons, List.foldl_nil, hset, ih]
    by_cases hi : n = i
    · simp [hi]
    · simp [hi, show i < n + 1 ↔ i < n by omega]

theorem getLsbD_probePar (w : BitVec 48) {i : Nat} (hi : i < 6) : (probePar w).getLsbD i = parity 8 (w.toNat >>> (8 * i)) := by
  rw [probePar, BitVec.getLsbD_ofNat, testBit_byteParity, decide_eq_true hi, Bool.true_and, Bool.true_and]

/-- A probe word by its fields (03 R75). -/
def probeWordOf (ptype : Nat) (tgt : BitVec 4) (addr : Nat) : BitVec 48 :=
  BitVec.ofNat 48 ((ptype <<< 44) + (tgt.toNat <<< 40) + addr)

theorem probeWord_invAll (s : State) (tgt : BitVec 4) : probeWord s .invAll tgt = probeWordOf 2 tgt 0 := rfl

theorem probeWord_of_noRgn {s : State} {cb : Nat} (tgt : BitVec 4) (h : probeRgn s (cb * 512) = none) :
    probeWord s (.inv cb) tgt = probeWordOf 2 tgt 0 := by
  simp only [probeWord, h]
  rfl

theorem probeWord_of_rgn {s : State} {cb n : Nat} (tgt : BitVec 4) (h : probeRgn s (cb * 512) = some n) :
    probeWord s (.inv cb) tgt = probeWordOf 1 tgt ((cb * 512 - rgnXlat s n + rgnBase s n) / 512 % 2 ^ 39) := by
  simp only [probeWord, h]
  rfl

section
variable {ptype addr : Nat} (tgt : BitVec 4) (hp : ptype < 16) (ha : addr < 2 ^ 39)
include hp ha

/-- The word as the sum of its fields in their places, none of which reaches into the next. -/
theorem probeWordOf_toNat : (probeWordOf ptype tgt addr).toNat = 2 ^ 44 * ptype + 2 ^ 40 * tgt.toNat + addr := by
  have ht : tgt.toNat < 16 := tgt.isLt
  simp only [probeWordOf, BitVec.toNat_ofNat, Nat.shiftLeft_eq]
  omega

theorem probeWordOf_tgt : (probeWordOf ptype tgt addr).extractLsb' 40 4 = tgt := by
  have ht : tgt.toNat < 16 := tgt.isLt
  refine BitVec.eq_of_toNat_eq ?_
  rw [BitVec.extractLsb'_toNat, probeWordOf_toNat tgt hp ha, Nat.shiftRight_eq_div_pow]
  omega

theorem probeWordOf_reserved : (probeWordOf ptype tgt addr).getLsbD 39 = false := by
  rw [BitVec.getLsbD, Nat.testBit_eq_decide_div_mod_eq, probeWordOf_toNat tgt hp ha]
  exact decide_eq_false (by omega)

theorem probeWordOf_ptype : fld (probeWordOf ptype tgt addr) 47 44 = ptype := by
  have ht : tgt.toNat < 16 := tgt.isLt
  rw [fld_eq, probeWordOf_toNat tgt hp ha]
  omega

theorem probeWordOf_addr : fld (probeWordOf ptype tgt addr) 38 0 = addr := by
  rw [fld_eq, probeWordOf_toNat tgt hp ha]
  omega

end

/-- INV_ALL and no address. -/
theorem probeWordOf_whole (tgt : BitVec 4) : fld (probeWordOf 2 tgt 0) 47 44 = 2 ∧ fld (probeWordOf 2 tgt 0) 38 0 = 0 :=
  ⟨probeWordOf_ptype tgt (by decide) (by decide), probeWordOf_addr tgt (by decide) (by decide)⟩

/-- Every probe word has its fields in range. -/
theorem probeWord_fields (s : State) (kind : ProbeKind) (tgt : BitVec 4) :
    ∃ ptype addr, ptype < 16 ∧ addr < 2 ^ 39 ∧ probeWord s kind tgt = probeWordOf ptype tgt addr := by
  cases kind with
  | invAll => exact ⟨2, 0, by decide, by decide, rfl⟩
  | inv cb =>
    cases h : probeRgn s (cb * 512) with
    | none => exact ⟨2, 0, by decide, by decide, probeWord_of_noRgn tgt h⟩
    | some n => exact ⟨1, _, by decide, Nat.mod_lt _ (Nat.two_pow_pos _), probeWord_of_rgn tgt h⟩

theorem poolRange_bounds {s : State} {n P : Nat} (h : inPool (poolRange s n) P = true) :
    rgnXlat s n ≤ P ∧ P ≤ rgnXlat s n + (rgnLimit s n - rgnBase s n) + 0xFFFF := by
  have h : (poolRange s n).1 ≤ P ∧ P < (poolRange s n).2 := of_decide_eq_true h
  unfold poolRange at h
  split at h
  · omega
  · dsimp only at h
    omega

/-- The region found holds the address, is the first such of its kind, and is a disabled one only if no enabled one holds it. -/
theorem probeRgn_first {s : State} {P n : Nat} (h : probeRgn s P = some n) : n < 16 ∧ inPool (poolRange s n) P = true ∧
    (∀ m, m < n → attrEn (rgnAttr s m) = attrEn (rgnAttr s n) → inPool (poolRange s m) P = false) ∧
    (attrEn (rgnAttr s n) = false → ∀ m, m < 16 → attrEn (rgnAttr s m) = true → inPool (poolRange s m) P = false) := by
  unfold probeRgn at h
  split at h
  · next hf =>
    cases h
    obtain ⟨hn, h16, hfirst⟩ := List.find?_range_eq_some.1 hf
    obtain ⟨he, hin⟩ := Bool.and_eq_true_iff.1 hn
    refine ⟨List.mem_range.1 h16, hin, fun m hm hk => ?_, fun hd => absurd he (ne_true_of_eq_false hd)⟩
    simpa [hk, he] using hfirst m hm
  · next hf =>
    obtain ⟨hn, h16, hfirst⟩ := List.find?_range_eq_some.1 h
    obtain ⟨hd, hin⟩ := Bool.and_eq_true_iff.1 hn
    have hd : attrEn (rgnAttr s n) = false := by simpa using hd
    refine ⟨List.mem_range.1 h16, hin, fun m hm hk => ?_, fun _ m hm hk => ?_⟩
    · simpa [hk, hd] using hfirst m hm
    · simpa [hk] using List.find?_eq_none.1 hf m (List.mem_range.2 hm)

/-- Settles O21: the word is `probeWordOf` of its fields, which are read off the sum `probeWordOf_toNat`; the region is the one
`probeRgn_first` describes. -/
theorem probeWordLayout : Obligations.ProbeWordLayout := by
  intro s kind tgt
  obtain ⟨ptype, addr, hp, ha, hw⟩ := probeWord_fields s kind tgt
  refine ⟨⟨?_, ?_, fun i hi => getLsbD_probePar _ hi, ?_, ?_, ?_⟩, fun P n h => ?_⟩
  · rw [hw, probeWordOf_tgt tgt hp ha]
  · rw [hw, probeWordOf_reserved tgt hp ha]
  · rintro rfl
    exact probeWordOf_whole tgt
  · rintro cb rfl hn
    rw [probeWord_of_noRgn tgt hn]
    exact probeWordOf_whole tgt
  · rintro cb n rfl hn
    have hlt : (cb * 512 - rgnXlat s n + rgnBase s n) / 512 % 2 ^ 39 < 2 ^ 39 := Nat.mod_lt _ (Nat.two_pow_pos _)
    rw [probeWord_of_rgn tgt hn]
    exact ⟨probeWordOf_ptype tgt (by decide) hlt, probeWordOf_addr tgt (by decide) hlt⟩
  · obtain ⟨h16, hin, hfirst, hdisabled⟩ := probeRgn_first h
    obtain ⟨hlo, hhi⟩ := poolRange_bounds hin
    exact ⟨h16, hlo, hhi, hfirst, hdisabled⟩

/-! ## Probes sent (03 R74, R80, R86, R90; 10 R256) -/

theorem getLsbD_setBit_true {w : Nat} (x : BitVec w) (i k : Nat) :
    (setBit x i true).getLsbD k = (x.getLsbD k || (decide (k < w) && decide (i = k))) := by
  rw [setBit, if_pos rfl, BitVec.getLsbD_or, bit, if_pos rfl, BitVec.getLsbD_ofNat, Nat.one_shiftLeft, Nat.testBit_two_pow]

/-- A mask built bit by bit has the bits that the condition names. -/
theorem getLsbD_foldl_setBit {w : Nat} (c : Nat → Bool) (n k : Nat) :
    ((List.range n).foldl (fun m i => if c i then setBit m i true else m) (0 : BitVec w)).getLsbD k =
      (decide (k < w) && (decide (k < n) && c k)) := by
  induction n with
  | zero => simp
  | succ n ih =>
    rw [List.range_succ, List.foldl_append, List.foldl_cons, List.foldl_nil, apply_ite (BitVec.getLsbD · k), getLsbD_setBit_true, ih]
    by_cases hk : n = k
    · subst hk
      cases c n <;> simp
    · simp [hk, show k < n + 1 ↔ k < n by omega]

/-- The pairs a probe may be sent to now. -/
theorem getLsbD_probeTargets (s : State) (x : Probe) (k : Nat) : (probeTargets s x).getLsbD k = (decide (k < 4) &&
    (x.toSend.getLsbD k && probeable s (whoAt x.port k) x.revive && decide ((probesAt s x.port k).length < 4) &&
      !(s.prb.probes.any fun y => y.port == x.port && decide (y.id < x.id) && y.toSend.getLsbD k))) := by
  unfold probeTargets
  dsimp only
  rw [getLsbD_foldl_setBit, ← Bool.and_assoc, Bool.and_self]

theorem probeable_iff {s : State} {k : Nat} {revive : Bool} : probeable s k revive = true ↔
    attached s k = true ∧ inReset s k = false ∧ (revive = true ∨ s.prb.unresp.getLsbD k = false) := by
  simp [probeable, unresp, and_assoc]

theorem probeTargets_allowed {s : State} {x : Probe} {k : Nat} (h : (probeTargets s x).getLsbD k = true) :
    k < 4 ∧ x.toSend.getLsbD k = true ∧ attached s (whoAt x.port k) = true ∧ inReset s (whoAt x.port k) = false ∧
    (x.revive = true ∨ s.prb.unresp.getLsbD (whoAt x.port k) = false) ∧ (probesAt s x.port k).length < 4 ∧
    ∀ y ∈ s.prb.probes, y.port = x.port → y.id < x.id → y.toSend.getLsbD k = false := by
  rw [getLsbD_probeTargets] at h
  simp only [Bool.and_eq_true, decide_eq_true_eq, Bool.not_eq_true', List.any_eq_false] at h
  obtain ⟨hk, ⟨⟨hs, hp⟩, hl⟩, hold⟩ := h
  obtain ⟨ha, hr, hu⟩ := probeable_iff.1 hp
  refine ⟨hk, hs, ha, hr, hu, hl, fun y hy hport hid => ?_⟩
  simpa [hport, hid] using hold y hy

/-- The state with the probe sent: its word on the pins, the count, and the probe outstanding at its targets. -/
def probeSent (s : State) (x : Probe) (kind : ProbeKind) : State :=
  let tgt := probeTargets s x
  let w := probeWord s kind tgt
  { count (emit s (.probe x.port w (probePar w))) (cntPrbProbe x.port) with
    prb := { s.prb with probes := updIf s.prb.probes (·.id == x.id) fun y => { y with
      toSend := y.toSend &&& ~~~tgt, out := y.out ++ (bitsOf 4 tgt).map fun k => (k, 0) } } }

theorem sendProbe_eq (s : State) (x : Probe) (perr : Bool) : sendProbe s x perr =
    let a := probeSent s x (if perr then .invAll else x.kind)
    if perr then bufParity a 7 0xFF else a := rfl

/-- Beside its count a parity error of a buffer does no more than `Ext` allows. -/
theorem bufParity_extends (s : State) (k who : Nat) : Ext (count s cntIcbBpar) (bufParity s k who) :=
  bucketEvent_ext _ (event_ext _ _ _ (Ext.refl _))

theorem sendProbe_extends (s : State) (x : Probe) (perr : Bool) :
    Ext (if perr then count (probeSent s x .invAll) cntIcbBpar else probeSent s x x.kind) (sendProbe s x perr) := by
  rw [sendProbe_eq]
  cases perr
  · exact Ext.refl _
  · exact bufParity_extends ..

theorem live_probeSent_self (s : State) (x : Probe) (kind : ProbeKind) :
    live (probeSent s x kind) (cntPrbProbe x.port) = live s (cntPrbProbe x.port) + 1 := live_count_self ..

theorem live_probeSent_ne {s : State} {x : Probe} {kind : ProbeKind} {c : Nat} (h : c ≠ cntPrbProbe x.port) :
    live (probeSent s x kind) c = live s c := live_count_ne _ h

theorem cntPrbProbe_not_settle (p : PortId) : cntPrbProbe p ∉ settleCounters := by cases p <;> decide
theorem cntIcbBpar_ne_prbProbe (p : PortId) : cntIcbBpar ≠ cntPrbProbe p := by cases p <;> decide

theorem nextProbe_port {s : State} {p : PortId} {x : Probe} (h : nextProbe s p = some x) : x.port = p := by
  have h := List.find?_some h
  simp only [Bool.and_eq_true, beq_iff_eq] at h
  exact h.1

theorem exec_probeSend {s : State} {p : PortId} {x : Probe} (hs : s.up) (hl : pinsLive s = true) (hx : nextProbe s p = some x)
    (perr : Bool) : exec (.probeSend p perr) s = .next (settle (sendProbe s x perr)) := by
  refine (guarded_of_defined hs.1 _).trans (congrArg _ ?_)
  simp only [hl, if_true, hx]

/-- Settles O22: what is sent is `probeSent`, to which a parity error and waiting work add what `Ext` allows (`sendProbe_extends`); the
targets are those of `probeTargets_allowed`. -/
theorem probesSentInOrder : Obligations.ProbesSentInOrder := by
  refine ⟨fun s p x perr hs hl hn => ⟨_, exec_probeSend hs hl hn perr, ?_⟩, fun s x k h => probeTargets_allowed h⟩
  obtain rfl := nextProbe_port hn
  have hx := settle_ext (sendProbe_extends s x perr)
  have hbpar : cntIcbBpar ∉ settleCounters := by decide
  have hne := cntIcbBpar_ne_prbProbe x.port
  rw [hx.counts _ (cntPrbProbe_not_settle x.port), hx.counts _ hbpar, hx.unresp, hx.cfg Cfg.regs, hx.vlt]
  cases perr with
  | false =>
    exact ⟨⟨hx.out, hx.probes⟩, live_probeSent_self .., (live_probeSent_ne hne).trans (by simp), rfl, rfl, rfl⟩
  | true =>
    refine ⟨⟨hx.out, hx.probes⟩, (live_count_ne _ hne.symm).trans (live_probeSent_self ..), ?_, rfl, rfl, rfl⟩
    exact (live_count_self ..).trans (congrArg (· + 1) (live_probeSent_ne hne))

/-! ## Acknowledgements (03 R81, R87, R89, R90) -/

/-- The probe log of a port after a violation by `agent` (03 R89). -/
def probeLogged (agent code : Nat) (q : Port) : Port :=
  { q with plog := put (put (put q.plog 31 24 ((fld q.plog 31 24 + 1) % 256)) 23 20 agent) 7 0 code }

/-- A violation of `code` by `agent` stands in the probe log of port `p`, is counted and has raised its source. -/
structure ProbeReported (s t : State) (p : PortId) (agent code : Nat) : Prop where
  logCode : fld (port t p).plog 7 0 = code
  logWho  : fld (port t p).plog 23 20 = agent
  counted : live t (cntPrbViol p) = live s (cntPrbViol p) + 1
  raised  : t.err.intStatus.getLsbD (srcPrbViol p) = true

section
variable (s : State) (p : PortId) (agent code : Nat)

theorem logProbeViol_prb : (logProbeViol s p agent code).prb = s.prb := setPort_prb ..
theorem logProbeViol_vlt : (logProbeViol s p agent code).vlt = s.vlt := setPort_vlt ..
theorem logProbeViol_regs : (logProbeViol s p agent code).cfg.regs = s.cfg.regs := by cases p <;> rfl

theorem live_logProbeViol_ne {c : Nat} (h : c ≠ cntPrbViol p) : live (logProbeViol s p agent code) c = live s c :=
  (live_count_ne _ h).trans (live_setPort ..)

theorem port_logProbeViol : port (logProbeViol s p agent code) p = probeLogged agent code (port s p) := port_setPort_self ..

theorem probeReported_logProbeViol {agent code : Nat} (ha : agent < 16) (hc : code < 256) :
    ProbeReported s (logProbeViol s p agent code) p agent code where
  logCode := by
    rw [port_logProbeViol, probeLogged, fld_put_self (by decide)]
    exact Nat.mod_eq_of_lt hc
  logWho := by
    rw [port_logProbeViol, probeLogged, fld_put_of_disjoint (by decide) (by decide), fld_put_self (by decide)]
    exact Nat.mod_eq_of_lt ha
  counted := (live_count_self ..).trans (congrArg (· + 1) (live_setPort ..))
  raised := getLsbD_setBit_self _ _ (by cases p <;> decide)

end

theorem cntPrbViol_not_settle (p : PortId) : cntPrbViol p ∉ settleCounters := by cases p <;> decide
theorem cntPrbLate_not_settle (p : PortId) : cntPrbLate p ∉ settleCounters := by cases p <;> decide
theorem cntPrbTmo_not_settle (p : PortId) : cntPrbTmo p ∉ settleCounters := by cases p <;> decide
theorem cntPrbLate_ne_prbViol (p : PortId) : cntPrbLate p ≠ cntPrbViol p := by cases p <;> decide

/-- Nothing that waits touches the probe log. -/
theorem ProbeReported.ext {s a b : State} {p : PortId} {agent code : Nat} (h : ProbeReported s a p agent code) (hx : Ext a b) :
    ProbeReported s b p agent code where
  logCode := by rw [hx.port, h.logCode]
  logWho := by rw [hx.port, h.logWho]
  counted := (hx.counts _ (cntPrbViol_not_settle p)).trans h.counted
  raised := hx.ints _ h.raised

section
variable (s : State) (k : Nat) (x : Probe)

theorem creditAck_probes : (creditAck s k x).prb.probes =
    (updIf s.prb.probes (·.id == x.id) fun y => { y with out := y.out.filter (·.1 != pairOf k) }).filter
      fun y => y.toSend != 0 || !y.out.isEmpty := by
  unfold creditAck
  dsimp only
  split <;> rfl

theorem creditAck_unresp : (creditAck s k x).prb.unresp = if x.revive then setBit s.prb.unresp k false else s.prb.unresp := by
  unfold creditAck
  dsimp only
  split <;> rfl

/-- A credit changes the probe block alone. -/
theorem creditAck_frame : { creditAck s k x with prb := s.prb } = s := by
  unfold creditAck
  dsimp only
  split <;> rfl

theorem creditAck_cfg : (creditAck s k x).cfg = s.cfg := (congrArg State.cfg (creditAck_frame s k x) :)
theorem creditAck_vlt : (creditAck s k x).vlt = s.vlt := (congrArg State.vlt (creditAck_frame s k x) :)

theorem live_creditAck (c : Nat) : live (creditAck s k x) c = live s c := by rw [live, creditAck_cfg, live]

/-- The state with an acknowledgement credited, and counted when it is late. -/
def acked (late : Bool) : State := if late then count (creditAck s k x) (cntPrbLate (portOf k)) else creditAck s k x

variable (late : Bool)

theorem acked_prb : (acked s k x late).prb = (creditAck s k x).prb := (apply_ite State.prb ..).trans (ite_self _)
theorem acked_vlt : (acked s k x late).vlt = s.vlt := by cases late <;> exact creditAck_vlt ..
theorem acked_regs : (acked s k x late).cfg.regs = s.cfg.regs := by
  cases late <;> exact (congrArg Cfg.regs (creditAck_cfg s k x) :)

theorem live_acked_late : live (acked s k x late) (cntPrbLate (portOf k)) = live s (cntPrbLate (portOf k)) + if late then 1 else 0 := by
  cases late
  · exact (live_creditAck ..).trans (by simp)
  · exact (live_count_self ..).trans (congrArg (· + 1) (live_creditAck ..))

theorem live_acked_viol : live (acked s k x late) (cntPrbViol (portOf k)) = live s (cntPrbViol (portOf k)) := by
  cases late
  · exact live_creditAck ..
  · exact (live_count_ne _ (cntPrbLate_ne_prbViol _).symm).trans (live_creditAck ..)

end

section
variable {s : State} {k : Nat}

/-- A run where the agent has a probe outstanding; two cycles or more are a violation (03 R89). -/
theorem ackRun_of_outstanding {x : Probe} {l : List Probe} (cycles : Nat) (late : Bool) (ha : attached s k = true)
    (hr : inReset s k = false) (hp : probesAt s (portOf k) (pairOf k) = x :: l) : ackRun s k cycles late =
      if 2 ≤ cycles then logProbeViol (acked s k x late) (portOf k) k 2 else acked s k x late := by
  simp only [ackRun, ha, hr, hp, List.head?_cons]
  rfl

/-- What a run credits, counts and reports where the agent has a probe outstanding. -/
theorem ackRun_credits {x : Probe} {l : List Probe} (cycles : Nat) (late : Bool) (hk : k < 16) (ha : attached s k = true)
    (hr : inReset s k = false) (hp : probesAt s (portOf k) (pairOf k) = x :: l) :
    let a := ackRun s k cycles late
    a.prb = (creditAck s k x).prb ∧
    live a (cntPrbLate (portOf k)) = live s (cntPrbLate (portOf k)) + (if late then 1 else 0) ∧
    live a (cntPrbViol (portOf k)) = live s (cntPrbViol (portOf k)) + (if 2 ≤ cycles then 1 else 0) ∧
    (2 ≤ cycles → ProbeReported s a (portOf k) k 2) ∧ a.cfg.regs = s.cfg.regs ∧ a.vlt = s.vlt := by
  rw [ackRun_of_outstanding cycles late ha hr hp, ← live_acked_late s k x late, ← live_acked_viol s k x late, ← acked_regs s k x late,
    ← acked_vlt s k x late, ← acked_prb s k x late]
  by_cases h2 : 2 ≤ cycles
  · obtain ⟨hcode, hwho, hcount, hraise⟩ := probeReported_logProbeViol (acked s k x late) (portOf k) hk (by decide : 2 < 256)
    rw [if_pos h2, if_pos h2]
    exact ⟨logProbeViol_prb .., live_logProbeViol_ne _ _ _ _ (cntPrbLate_ne_prbViol _), hcount,
      fun _ => ⟨hcode, hwho, hcount.trans (congrArg (· + 1) (live_acked_viol ..)), hraise⟩, logProbeViol_regs .., logProbeViol_vlt ..⟩
  · rw [if_neg h2, if_neg h2]
    exact ⟨rfl, rfl, (BitVec.add_zero _).symm, fun h => absurd h h2, rfl, rfl⟩

end

/-- The code of a run of x_PACK_N that is due to no probe (03 R89). -/
def strayCode (s : State) (k : Nat) : Nat := if attached s k then (if inReset s k then 4 else 1) else 3

theorem strayCode_lt (s : State) (k : Nat) : strayCode s k < 256 := by
  unfold strayCode
  split_ifs <;> decide

/-- A run where the agent has no probe outstanding, or takes none. -/
theorem ackRun_of_stray {s : State} {k : Nat} (cycles : Nat) (late : Bool)
    (h : attached s k = false ∨ inReset s k = true ∨ probesAt s (portOf k) (pairOf k) = []) :
    ackRun s k cycles late = logProbeViol s (portOf k) k (strayCode s k) := by
  cases ha : attached s k with
  | false => simp [ackRun, strayCode, ha]
  | true =>
    cases hr : inReset s k with
    | true => simp [ackRun, strayCode, ha, hr]
    | false =>
      have hp : probesAt s (portOf k) (pairOf k) = [] := by simpa [ha, hr] using h
      simp [ackRun, strayCode, ha, hr, hp]

theorem exec_probeAck {s : State} {cycles : Nat} (hs : s.up) (hl : pinsLive s = true) (hc : cycles ≠ 0) (k : Fin 8) (late : Bool) :
    exec (.probeAck k cycles late) s = .next (settle (ackRun s k cycles late)) := by
  refine (guarded_of_defined hs.1 _).trans (congrArg _ ?_)
  simp [hl, hc]

/-! ## The probe timeout (03 R85, R86) -/

/-- Of the probes that are left each was there before, and those selected are not outstanding at the agent. -/
theorem mem_ackAll_out {s : State} {k : Nat} {queued : Bool} {p : Probe → Bool} {x : Probe}
    (hx : x ∈ (ackAll s k queued p).prb.probes) :
    ∃ y ∈ s.prb.probes, x.port = y.port ∧ (∀ o ∈ x.out, o ∈ y.out) ∧
      (p y = true → x.port = portOf k → ∀ o ∈ x.out, o.1 ≠ pairOf k) := by
  obtain ⟨hx, -⟩ := List.mem_filter.1 hx
  obtain ⟨y, hy, rfl⟩ := List.mem_map.1 hx
  refine ⟨y, hy, ?_⟩
  split
  · exact ⟨rfl, fun o ho => (List.mem_filter.1 ho).1, fun _ _ o ho => by simpa using (List.mem_filter.1 ho).2⟩
  · next hsel => exact ⟨rfl, fun o ho => ho, fun hp hport => absurd (by simp [hp, hport]) hsel⟩

/-- Nothing is outstanding at the agent after its timeout. -/
theorem agentTimeout_clears {s : State} {k : Nat} {x : Probe} (hx : x ∈ (agentTimeout s k).prb.probes) (hp : x.port = portOf k) :
    ∀ o ∈ x.out, o.1 ≠ pairOf k := by
  obtain ⟨y, hy, hport, hout, -⟩ := mem_ackAll_out (s := ackAll s k false fun _ => true) (p := fun x => !x.revive) hx
  obtain ⟨-, -, -, -, hnone⟩ := mem_ackAll_out hy
  exact fun o ho => hnone rfl (hport.symm.trans hp) o (hout o ho)

theorem exec_probeTimeout {s : State} {k : Fin 8} (hs : s.ticks) (ho : probeOverdue s k = true) :
    exec (.probeTimeout k) s = .next (settle (agentTimeout s k)) := by
  obtain ⟨⟨hu, hon⟩, hrun⟩ := hs
  refine (guarded_of_defined hu _).trans (congrArg _ ?_)
  simp [ticking, isOn, hon, hrun, ho]

theorem Ext.toev {a s : State} (h : Ext a s) : s.prb.toev = a.prb.toev := congrArg (fun x => x.prb.toev) h.fixed
theorem Ext.prbSeq {a s : State} (h : Ext a s) : s.prb.seq = a.prb.seq := congrArg (fun x => x.prb.seq) h.fixed

/-! ## PRB_REVIVE (03 R86, R88) -/

theorem getLsbD_probePairs (s : State) (agents : BitVec 8) (p : PortId) (revive : Bool) (k : Nat) :
    (probePairs s agents p revive).getLsbD k =
      (decide (k < 4) && (agents.getLsbD (whoAt p k) && probeable s (whoAt p k) revive)) := by
  have h := getLsbD_foldl_setBit (w := 4) (fun i => agents.getLsbD (whoAt p i) && probeable s (whoAt p i) revive) 4 k
  rw [← Bool.and_assoc, Bool.and_self] at h
  exact h

/-- An agent that a probe is queued for is named by the entry of its port. -/
theorem queueOn_names {s : State} {agents : BitVec 8} {f : ProbeFor} {p : PortId} {k : Nat} (kind : ProbeKind)
    (h : (probePairs s agents p f.revive).getLsbD k = true) :
    ∃ x ∈ (queueOn s kind agents f p).prb.probes, x.kind = kind ∧ x.revive = f.revive ∧ x.port = p ∧ x.toSend.getLsbD k = true := by
  have hne : probePairs s agents p f.revive ≠ 0 := by
    intro h0
    simp [h0] at h
  simp only [queueOn, if_neg hne]
  exact ⟨_, List.mem_append_right _ (List.mem_singleton.2 rfl), rfl, rfl, rfl, h⟩

theorem probePairs_queueOn (s : State) (kind : ProbeKind) (m agents : BitVec 8) (f : ProbeFor) (p q : PortId) (revive : Bool) :
    probePairs (queueOn s kind m f p) agents q revive = probePairs s agents q revive := by
  unfold queueOn
  dsimp only
  split <;> rfl

theorem queueProbe_names {s : State} {agents : BitVec 8} {f : ProbeFor} {p : PortId} {k : Nat} (kind : ProbeKind)
    (h : (probePairs s agents p f.revive).getLsbD k = true) :
    ∃ x ∈ (queueProbe s kind agents f).prb.probes, x.kind = kind ∧ x.revive = f.revive ∧ x.port = p ∧ x.toSend.getLsbD k = true := by
  unfold queueProbe
  cases p with
  | A =>
    obtain ⟨x, hx, hfields⟩ := queueOn_names kind h
    exact ⟨x, (queueOn_ext kind agents f .B (Ext.refl _)).probes.subset hx, hfields⟩
  | B => exact queueOn_names kind (by rwa [probePairs_queueOn])

theorem performRegWrite_revive (s : State) (who : Nat) (val : Reg32) : performRegWrite s who 0x1008 val = reviveWrite s val := by
  rw [performRegWrite_of_unkeyed who val (by decide) (by decide) (by decide) (by decide)]
  rfl

theorem reviveWrite_extends (s : State) (val : Reg32) : Ext s (reviveWrite s val) :=
  ite_ext (Ext.refl s) (queueProbe_ext _ _ _ (Ext.refl s))

theorem whoAt_portOf_pairOf : ∀ k : Fin 8, whoAt (portOf k) (pairOf k) = k ∧ pairOf k < 4 := by decide

theorem getLsbD_reviveMask (s : State) (mask : BitVec 8) {k : Nat} (hk : k < 8) :
    (reviveMask s (mask.setWidth 32)).getLsbD k = (mask.getLsbD k && s.prb.unresp.getLsbD k) := by
  simp [reviveMask, hk, show k < 32 by omega]

/-- An unresponsive agent that may be probed, and that the write names, has an INV_ALL queued. -/
theorem reviveWrite_queues {s : State} {mask : BitVec 8} {k : Nat} (hk : k < 8) (hm : mask.getLsbD k = true)
    (hu : s.prb.unresp.getLsbD k = true) (ha : attached s k = true) (hr : inReset s k = false) :
    ∃ x ∈ (reviveWrite s (mask.setWidth 32)).prb.probes,
      x.kind = .invAll ∧ x.revive = true ∧ x.port = portOf k ∧ x.toSend.getLsbD (pairOf k) = true := by
  obtain ⟨hwho, hpair⟩ := whoAt_portOf_pairOf ⟨k, hk⟩
  have hbit : (reviveMask s (mask.setWidth 32)).getLsbD k = true := by rw [getLsbD_reviveMask s mask hk, hm, hu, Bool.and_self]
  have hne : reviveMask s (mask.setWidth 32) ≠ 0 := by
    intro h0
    simp [h0] at hbit
  have hprobe : probeable s k true = true := probeable_iff.2 ⟨ha, hr, .inl rfl⟩
  rw [reviveWrite, if_neg hne]
  refine queueProbe_names .invAll ?_
  dsimp only at hwho hpair ⊢
  rw [getLsbD_probePairs, hwho, hbit, hprobe, decide_eq_true hpair, Bool.and_self, Bool.and_self]

theorem exec_prbRevive {s : State} {who : Fin 8} {mask : BitVec 8} (hs : s.up) (hr : rowReady s who 0x1008 (mask.setWidth 32)) :
    exec (.prbRevive who mask) s = .next (settle (reviveWrite s (mask.setWidth 32))) := by
  refine (guarded_of_defined hs.1 fun s => regRow s who 0x1008 (mask.setWidth 32)).trans (congrArg _ ?_)
  rw [regRow_of_ready hr, performRegWrite_revive]

/-- Settles O23: a run of x_PACK_N is credited or a violation (`ackRun_credits`, `ackRun_of_stray`), a timeout clears what is
outstanding at the agent (`agentTimeout_clears`), and a revive queues its probes (`reviveWrite_queues`). -/
theorem probeAcknowledgementAndTimeout : Obligations.ProbeAcknowledgementAndTimeout := by
  refine ⟨⟨fun s k cycles late x l hs hl hc ha hr hp => ⟨_, exec_probeAck hs hl hc k late, ?_⟩,
    fun s k cycles late hs hl hc h => ⟨_, exec_probeAck hs hl hc k late, ?_⟩⟩,
    fun s k hs ho => ⟨_, exec_probeTimeout hs ho, ?_⟩, fun s who mask hs hr => ⟨_, exec_prbRevive hs hr, ?_⟩⟩
  · obtain ⟨hprb, hlate, hviol, hrep, hregs, hvlt⟩ := ackRun_credits cycles late (k.isLt.trans (by decide : 8 < 16)) ha hr hp
    have hx := settle_extends (ackRun s k cycles late)
    refine ⟨?_, ?_, (hx.counts _ (cntPrbLate_not_settle _)).trans hlate, (hx.counts _ (cntPrbViol_not_settle _)).trans hviol,
      fun h2 => ?_, (hx.cfg Cfg.regs).trans hregs, hx.vlt.trans hvlt⟩
    · rw [← creditAck_probes, ← hprb]
      exact hx.probes
    · rw [hx.unresp, hprb, creditAck_unresp]
    · obtain ⟨hcode, hwho, -, hraise⟩ := (hrep h2).ext hx
      exact ⟨hcode, hwho, hraise⟩
  · rw [ackRun_of_stray cycles late h]
    have hx := settle_extends (logProbeViol s (portOf k) k (strayCode s k))
    obtain ⟨hcode, hwho, hcount, hraise⟩ :=
      (probeReported_logProbeViol s (portOf k) (k.isLt.trans (by decide : 8 < 16)) (strayCode_lt s k)).ext hx
    have hprobes := hx.probes
    rw [logProbeViol_prb] at hprobes
    exact ⟨hprobes, hx.unresp.trans (congrArg Prb.unresp (logProbeViol_prb ..)), hcode, hwho, hcount, hraise,
      (hx.cfg Cfg.regs).trans (logProbeViol_regs ..), hx.vlt.trans (logProbeViol_vlt ..)⟩
  · have hx := settle_extends (agentTimeout s k)
    exact ⟨hx.unresp, hx.toev, hx.prbSeq, (hx.counts _ (cntPrbTmo_not_settle _)).trans (live_count_self ..),
      hx.ints _ (getLsbD_setBit_self _ _ (by decide)), hx, fun _ => agentTimeout_clears, hx.cfg Cfg.regs, hx.vlt⟩
  · have hx := settle_ext (reviveWrite_extends s (mask.setWidth 32))
    refine ⟨hx.probes, fun k hk hm hu ha hr => ?_, hx.unresp, hx.cfg Cfg.regs, hx.vlt⟩
    obtain ⟨x, hmem, hfields⟩ := reviveWrite_queues hk hm hu ha hr
    exact ⟨x, (settle_extends _).probes.subset hmem, hfields⟩

end Sys2Proof.Machine

/-! SUPPORT. Proofs of the statements of `04_memory_ordering.md`: the entries of a store queue that are no NORMAL store, the registers of
the command engine, and the accesses of the Cache Store Port. -/

namespace Sys2Proof.Machine
set_option Elab.async false

/-! ## A retirement without a lookup (07 R158) -/

/-- Only an entry that writes or fetches a NORMAL region, and no broken lock answers, retires in the lookup pipeline. -/
theorem storeOps_of_no_lookup {s : State} {w : Nat} {q : Req} (hq : (storeQueue s w).head? = some q) (hp : q.phase = .queue)
    (h : isNormal q = false ∨ brokenFor s q = true ∨ q.cmd = .lockAbort ∨ q.cmd = .watch) : storeOps s w = [] := by
  unfold storeOps
  rw [hq]
  dsimp only
  split
  · rfl
  · next hn =>
    simp only [Bool.or_eq_true, Bool.not_eq_true', not_or, Bool.not_eq_true, Bool.not_eq_false] at hn
    obtain ⟨hnormal, hbroken⟩ := hn
    rcases h with h | h | h | h
    · simp [h] at hnormal
    · simp [h] at hbroken
    · rw [hp, h]
    · rw [hp, h]

/-- Such an entry retires at once, and what waits goes on. -/
theorem exec_storeRetirement_of_no_lookup {s : State} {r : Fin 13} {q : Req} (hs : s.up) (hq : (storeQueue s r).head? = some q)
    (hp : q.phase = .queue) (hm : markMet s q = true) (perr : Bool)
    (h : isNormal q = false ∨ brokenFor s q = true ∨ q.cmd = .lockAbort ∨ q.cmd = .watch) :
    exec (.storeRetirement r perr) s = .next (settle (retireHead s q perr)) := by
  have hon : isOn s = true := beq_iff_eq.2 hs.2
  refine (guarded_of_defined hs.1 fun s => when s (isOn s) fun s => storeRow s r perr).trans (congrArg _ ?_)
  rw [when, if_pos hon, storeRow, storeOps_of_no_lookup hq hp h]
  simp [storeRetire, hq, hp, hm]

/-! ### What retires (07 R177, R179; 11 R278; 16 R383) -/

/-- The entry is told that its requester's lock broke, and the record of that is taken back. -/
def toldBroken (s : State) (q : Req) : State :=
  retireWith { s with wrb := { s.wrb with brk := setBit s.wrb.brk q.who false } } q .lockBroken []

section
variable {s : State} {q : Req}

theorem brokenFor_of_cmd (hb : s.wrb.brk.getLsbD q.who = true) (hw : q.who < 8) (hc : q.cmd = .lockWrite ∨ q.cmd = .lockAbort) :
    brokenFor s q = true := by rcases hc with hc | hc <;> simp [brokenFor, hc, hw, hb]

/-- No broken lock answers a plain store. -/
theorem not_brokenFor_of_write (hc : q.cmd = .write ∨ q.cmd = .writeNt) : brokenFor s q = false := by
  rcases hc with hc | hc <;> simp [brokenFor, hc]

theorem retireHead_of_broken (perr : Bool) (h : brokenFor s q = true) :
    retireHead s q perr = toldBroken (if perr then bufParity s 1 q.who else s) q := if_pos h

theorem retireHead_of_lockAbort (hc : q.cmd = .lockAbort) (hb : brokenFor s q = false) :
    retireHead s q false = retireWith (dropLock s q.who) q .ok [] := by
  simp [retireHead, hb, hc]

theorem retireHead_of_watch (hc : q.cmd = .watch) (hb : brokenFor s q = false) (hl : lockedByOther s (reqCb q) q.who = false) :
    retireHead s q false =
      if s.wrb.arms.getD q.who none = some (reqCb q) ∧ s.wrb.armWr.getLsbD q.who = true then retireWith s q .watchWake []
      else if s.tst.busy = true ∨ s.pwr.st = .entering ∨ s.pwr.st = .preparing then retireWith s q .watchNowriter []
      else updReq s q.id fun q => { q with queued := false, phase := .watching } := by
  simp [retireHead, hb, hc, hl, retireWatch, watchesClosed, or_assoc]

theorem retireHead_of_window {off : Nat} (hc : q.cmd = .write) (ht : q.target = .window off) (ho : writeOrderMet s q = true)
    (hr : regWriteRoom s off (writeValue q off) = true) (hd : isDoorbell off = true → releaseMet s q = true) :
    retireHead s q false = retireWith (performRegWrite s q.who off (writeValue q off)) q .ok [] := by
  have hd' : (isDoorbell off && !releaseMet s q) = false := by
    cases h : isDoorbell off with
    | false => rfl
    | true => rw [hd h]; rfl
  simp [retireHead, not_brokenFor_of_write (.inl hc), hc, ht, ho, hr, hd']

theorem retireHead_of_device {n : Nat} {attr : Reg32} (hc : q.cmd = .write ∨ q.cmd = .writeNt) (ht : q.target = .region n attr)
    (ha : attr.getLsbD 0 = true) (ho : writeOrderMet s q = true) (hw : writesHeld s = false) (hd : deviceSlot s q = true) :
    retireHead s q false = retireDevice s q := by
  have hb := not_brokenFor_of_write (s := s) hc
  rcases hc with hc | hc <;> simp [retireHead, hb, hc, ht, attrDevice, ha, ho, hw, hd]

theorem retireWith_wrb (rsp : Rsp) (b : List Beat64) : (retireWith s q rsp b).wrb = s.wrb := respond_wrb ..

theorem lockOf_dropLock (s : State) (who : Nat) : lockOf (dropLock s who) who = none := by
  simp [lockOf, dropLock, List.find?_filter]

end

theorem bufParity_wrb (s : State) (k who : Nat) : (bufParity s k who).wrb = s.wrb := by simp [bufParity]

theorem toldBroken_brk (s : State) (q : Req) (perr : Bool) :
    (toldBroken (if perr then bufParity s 1 q.who else s) q).wrb.brk = setBit s.wrb.brk q.who false := by
  rw [toldBroken, retireWith_wrb]
  cases perr
  · rfl
  · rw [if_pos rfl, bufParity_wrb]

/-! ### A DEVICE write's TLPs (12 R292) -/

/-- What goes out of MWr TLPs touches the outputs, the link's power state and the counters. -/
theorem issueDevice_eq (s : State) (q : Req) : ∃ o p l, issueDevice s q =
    { s with out := o, mem := { s.mem with pstate := p }, cfg := { s.cfg with live := l } } := by
  refine List.foldlRecOn (motive := fun x : State => ∃ o p l, x =
    { s with out := o, mem := { s.mem with pstate := p }, cfg := { s.cfg with live := l } }) _ _ ⟨_, _, _, rfl⟩ ?_
  rintro _ ⟨o, p, l, rfl⟩ t -
  dsimp only
  unfold sendTlp
  split
  · exact ⟨_, _, _, rfl⟩
  · exact ⟨_, p, _, rfl⟩

theorem live_sendTlp (s : State) (t : Tlp) (c : Nat) : live (sendTlp s t) c = live s c := by
  unfold sendTlp
  split <;> rfl

/-- Each TLP of the split is counted. -/
theorem live_issueDevice (s : State) (q : Req) :
    live (issueDevice s q) cntMwr = live s cntMwr + BitVec.ofNat 64 (mwrSplit q.mask 16 0).length := by
  unfold issueDevice
  induction mwrSplit q.mask 16 0 generalizing s with
  | nil => simp
  | cons t l ih =>
    rw [List.foldl_cons, ih, live_sendTlp, live_count_self, List.length_cons, BitVec.ofNat_add, BitVec.add_assoc,
      BitVec.add_comm (BitVec.ofNat 64 l.length)]
    rfl

section
variable (s : State) (q : Req)

/-- A DEVICE write is answered at once, or waits for a flush read. -/
theorem retireDevice_cases : retireDevice s q =
    if attrEarly (reqAttr q) = true ∧ q.mark ≠ .durable then retireWith (issueDevice s q) q .ok []
    else retireWait (issueDevice s q) q .needFlush := by
  simp [retireDevice]

theorem retireDevice_keeps : (retireDevice s q).cfg = (issueDevice s q).cfg ∧ (retireDevice s q).vlt = s.vlt := by
  obtain ⟨o, p, l, h⟩ := issueDevice_eq s q
  rw [retireDevice_cases]
  split
  · obtain ⟨x, y, hr⟩ := respond_eq (leaveQueue (issueDevice s q) q) q.id .ok [] none
    rw [retireWith, hr, h]
    exact ⟨rfl, rfl⟩
  · rw [h]
    exact ⟨rfl, rfl⟩

theorem retireDevice_regs : (retireDevice s q).cfg.regs = s.cfg.regs := by
  obtain ⟨o, p, l, h⟩ := issueDevice_eq s q
  rw [(retireDevice_keeps s q).1, h]

theorem live_retireDevice : live (retireDevice s q) cntMwr = live s cntMwr + BitVec.ofNat 64 (mwrSplit q.mask 16 0).length := by
  rw [← live_issueDevice, live, (retireDevice_keeps s q).1, live]

end

/-- A request that waits for its flush. -/
theorem mem_retireWait {s : State} {q x : Req} {d : Dur} (hx : x ∈ (retireWait s q d).bus.reqs) (hid : x.id = q.id) :
    x.phase = .answerWait ∧ x.own = d := by
  obtain ⟨y, -, rfl⟩ := List.mem_map.1 hx
  by_cases hy : (y.id == q.id) = true
  · rw [if_pos hy]
    exact ⟨rfl, rfl⟩
  · rw [if_neg hy] at hid
    exact absurd (beq_iff_eq.2 hid) hy

theorem not_normal_of_device {q : Req} {n : Nat} {attr : Reg32} (ht : q.target = .region n attr) (ha : attr.getLsbD 0 = true) :
    isNormal q = false := by simp [isNormal, ht, attrDevice, ha]

theorem not_normal_of_window {q : Req} {off : Nat} (ht : q.target = .window off) : isNormal q = false := by simp [isNormal, ht]

/-- Settles O32: none of these entries needs the lookup pipeline (`exec_storeRetirement_of_no_lookup`), and each retires as its
`retireHead_of_…` says. -/
theorem otherQueueEntriesRetire : Obligations.OtherQueueEntriesRetire := by
  refine ⟨?_, ?_, ?_, ?_, ?_⟩
  · intro s r q hs hq hp hm hc hb
    refine ⟨_, exec_storeRetirement_of_no_lookup hs hq hp hm false (.inr (.inr (.inl hc))), ?_, ?_, ?_⟩
    · rw [retireHead_of_lockAbort hc hb]
      exact settle_extends _
    · rw [lockOf, retireWith_wrb]
      exact lockOf_dropLock ..
    · rw [retireWith_wrb]
      rfl
  · intro s r q hs hq hp hm hc hb hl
    refine ⟨_, exec_storeRetirement_of_no_lookup hs hq hp hm false (.inr (.inr (.inr hc))), ?_⟩
    rw [← retireHead_of_watch hc hb hl]
    exact settle_extends _
  · intro s r q perr hs hq hp hm hc hw hbit
    have hb := brokenFor_of_cmd hbit hw hc
    have hx := settle_extends (retireHead s q perr)
    refine ⟨_, exec_storeRetirement_of_no_lookup hs hq hp hm perr (.inr (.inl hb)), ?_⟩
    rw [retireHead_of_broken perr hb] at hx ⊢
    exact ⟨hx.brk.trans (toldBroken_brk s q perr), hx⟩
  · intro s r q n attr hs hq hp hm hc ht ha ho hw hd
    have hx := settle_extends (retireDevice s q)
    have hearly : attrEarly (reqAttr q) = attr.getLsbD 4 := by rw [reqAttr, ht, attrEarly]
    refine ⟨_, exec_storeRetirement_of_no_lookup hs hq hp hm false (.inl (not_normal_of_device ht ha)), ?_⟩
    rw [retireHead_of_device hc ht ha ho hw hd]
    refine ⟨hx, (hx.counts _ (by decide)).trans (live_retireDevice s q), fun h4 hmark x hx hw => ?_, fun h x hmem hid => ?_,
      (hx.cfg Cfg.regs).trans (retireDevice_regs s q), hx.vlt.trans (retireDevice_keeps s q).2⟩
    · rw [retireDevice_cases, hearly, if_pos ⟨h4, hmark⟩] at hx ⊢
      exact responded_respond hx hw
    · rw [retireDevice_cases, hearly, if_neg (by rintro ⟨h4, hmark⟩; rcases h with h | h <;> simp_all)] at hmem
      exact mem_retireWait hmem hid
  · intro s r q off hs hq hp hm hc ht ho hr hd
    refine ⟨_, exec_storeRetirement_of_no_lookup hs hq hp hm false (.inl (not_normal_of_window ht)), ?_⟩
    rw [retireHead_of_window hc ht ho hr hd]
    exact settle_extends _

/-! ## The rings of the engine -/

/-- Waiting work changes seven fields of the engine only. -/
theorem Ext.eng {α : Type} {a s : State} (h : Ext a s) (f : Eng → α)
    (hf : ∀ (e : Eng) rs c l v w x p,
      f { e with rings := rs, cents := c, held := l, events := v, writes := w, window := x, epoch := p } = f e := by intros; rfl) :
    f s.eng = f a.eng :=
  calc f s.eng = f (settleFixed s).eng := (hf ..).symm
    _ = f (settleFixed a).eng := congrArg (fun x => f x.eng) h.fixed
    _ = f a.eng := hf ..

/-- Of a ring it leaves what `ringFixed` shows. -/
theorem Ext.ring {α : Type} {a s : State} (h : Ext a s) (n : Nat) (f : Ring → α) (hf : ∀ r, f (ringFixed r) = f r := by intros; rfl) :
    f (getRing s n) = f (getRing a n) := by
  have hr (s : State) : (settleFixed s).eng.rings.getD n (ringFixed Ring.reset) = ringFixed (getRing s n) := List.getD_map ..
  rw [← hf (getRing s n), ← hf (getRing a n), ← hr s, ← hr a, h.fixed]

theorem rings_length {s : State} (h : s.sound) : s.eng.rings.length = 5 := by
  obtain ⟨-, -, h5, -⟩ := h
  exact h5

theorem lt_rings_length {s : State} {n : Nat} (h : s.sound) (hn : n < 4) : n < s.eng.rings.length := by
  rw [rings_length h]
  omega

theorem getRing_updRing_self {s : State} {n : Nat} (f : Ring → Ring) (h : n < s.eng.rings.length) :
    getRing (updRing s n f) n = f (getRing s n) := by
  simp [getRing, updAt, h]

theorem getRing_updRing_ne {s : State} {m n : Nat} (f : Ring → Ring) (h : m ≠ n) : getRing (updRing s n f) m = getRing s m := by
  simp [getRing, updAt, Ne.symm h]

/-- One change of all rings of a list; `g` is what each step changes of the rest of the engine. -/
def onRings (g : State → Nat → State) (f : Ring → Ring) (l : List Nat) (s : State) : State :=
  l.foldl (fun s n => updRing (g s n) n f) s

/-- Each step changes no more than the rings and which of them the completion ring has halted. -/
def RingsOnly (g : State → Nat → State) : Prop := ∀ s n, ∃ c, g s n = { s with eng := { s.eng with cqHalted := c } }

theorem RingsOnly.rings {g : State → Nat → State} (hg : RingsOnly g) (s : State) (n : Nat) : (g s n).eng.rings = s.eng.rings := by
  obtain ⟨c, h⟩ := hg s n
  rw [h]

section
variable {g : State → Nat → State} (hg : RingsOnly g)
include hg

theorem onRings_eq (f : Ring → Ring) (l : List Nat) (s : State) : ∃ rs c, rs.length = s.eng.rings.length ∧
    onRings g f l s = { s with eng := { s.eng with rings := rs, cqHalted := c } } := by
  refine List.foldlRecOn (motive := fun x : State => ∃ rs c, rs.length = s.eng.rings.length ∧
    x = { s with eng := { s.eng with rings := rs, cqHalted := c } }) _ _ ⟨s.eng.rings, _, rfl, rfl⟩ ?_
  rintro _ ⟨rs, c, hl, rfl⟩ n -
  obtain ⟨c', hc⟩ := hg { s with eng := { s.eng with rings := rs, cqHalted := c } } n
  rw [hc]
  exact ⟨_, c', (length_updAt ..).trans hl, rfl⟩

theorem getRing_onRings (f : Ring → Ring) (hf : ∀ r, f (f r) = f r) (l : List Nat) {s : State} {m : Nat}
    (hm : m < s.eng.rings.length) : getRing (onRings g f l s) m = if m ∈ l then f (getRing s m) else getRing s m := by
  induction l generalizing s with
  | nil => rfl
  | cons n l ih =>
    have hr := hg.rings s n
    have hlen : m < (updRing (g s n) n f).eng.rings.length := by simpa [hr] using hm
    have hgs : getRing (g s n) m = getRing s m := by rw [getRing, hr, getRing]
    refine (ih hlen).trans ?_
    by_cases hmn : m = n
    · subst hmn
      rw [getRing_updRing_self f (by rwa [hr]), hgs, hf]
      simp
    · rw [getRing_updRing_ne f hmn, hgs]
      simp [hmn]

end

/-! ## Writes of the engine's registers (09) -/

theorem kept_of_engine {s : State} (e : Eng) : kept s { s with eng := e } := ⟨rfl, rfl, rfl⟩

theorem Ext.keeps {s a t : State} (h : Ext a t) (hk : Machine.kept s a) : Machine.kept s t := by
  obtain ⟨hr, hv, hc⟩ := hk
  exact ⟨(h.cfg Cfg.regs).trans hr, h.vlt.trans hv, h.clk.trans hc⟩

/-- The engine's registers without a key. -/
def engineRegs : List Nat := [0x5100, 0x510C, 0x5110, 0x5114, 0x5118, 0x511C, 0x5130, 0x5138]

theorem engineRegs_kind : ∀ off ∈ engineRegs, off < 0xF000 ∧ off ≠ 0xD000 ∧ isPosted off = false ∧ isKeyed off = false ∧
    isMember off = false ∧ isRsq off = false ∧ off < 0x7000 := by decide

theorem performRegWrite_engine {s : State} {off : Nat} (who : Nat) (val : Reg32) (h : off ∈ engineRegs) :
    performRegWrite s who off val = writeLow s off val := by
  obtain ⟨hl, hd, hp, hk, hm, hr, h7⟩ := engineRegs_kind off h
  rw [performRegWrite_of_unkeyed who val hl hd hp hk, writeEffect]
  simp [acceptWrite, hm, hr, h7]

/-! ### Doorbells (R209, R210; 04 R108) -/

theorem fld_setWidth (tail : BitVec 12) : fld (tail.setWidth 32) 11 0 = tail.toNat := by
  simpa [fld] using tail.isLt

theorem doorbell_offset (n : Fin 4) : 0x5110 + 4 * n.val ∈ engineRegs := by
  revert n
  decide

theorem writeLow_doorbell (s : State) (n : Fin 4) (val : Reg32) :
    writeLow s (0x5110 + 4 * n.val) val = doorbell s n.val (fld val 11 0) := by
  fin_cases n <;> rfl

section
variable {s : State} {who : Fin 8} {n : Fin 4} {tail : BitVec 12} (hs : s.up)
include hs

theorem exec_cmdSqDb : exec (.cmdSqDb who n tail) s = .next (regRow s who (0x5110 + 4 * n.val) (tail.setWidth 32)) :=
  guarded_of_defined hs.1 _

theorem exec_cmdSqDb_of_ready (hr : rowReady s who (0x5110 + 4 * n.val) (tail.setWidth 32)) :
    exec (.cmdSqDb who n tail) s = .next (settle (doorbell s n tail.toNat)) := by
  rw [exec_cmdSqDb hs, regRow_of_ready hr, performRegWrite_engine _ _ (doorbell_offset n), writeLow_doorbell, fld_setWidth]

end

section
variable {s : State} {n : Nat} {tail : Nat}

theorem doorbell_of_absent (h : ringSize s n = 0) : doorbell s n tail = event s 0 4 (payload [(16, n), (18, tail)]) := if_pos h

theorem doorbell_of_present (h : ringSize s n ≠ 0) : doorbell s n tail = updRing s n fun r => { r with pend := tail } := if_neg h

theorem doorbell_kept : kept s (doorbell s n tail) := by
  unfold doorbell event
  split_ifs <;> exact ⟨rfl, rfl, rfl⟩

theorem getRing_event (b c : Nat) (d : BitVec 384) (m : Nat) : getRing (event s b c d) m = getRing s m := by
  unfold event
  split <;> rfl

/-- A doorbell of an absent ring is an event DB_ABSENT. -/
theorem doorbell_event (h : ringSize s n = 0) (hr : s.eng.eqRuns = true) : ∃ e, (doorbell s n tail).eng.events = s.eng.events ++ [e] ∧
    e.block = 0 ∧ e.code = 4 ∧ e.tick = tickCnt s := by
  rw [doorbell_of_absent h, event, if_pos hr]
  exact ⟨_, rfl, rfl, rfl, rfl⟩

theorem doorbell_pend (h : n < s.eng.rings.length) :
    (getRing (doorbell s n tail) n).pend = if ringSize s n = 0 then (getRing s n).pend else tail := by
  by_cases h0 : ringSize s n = 0
  · rw [doorbell_of_absent h0, getRing_event, if_pos h0]
  · rw [doorbell_of_present h0, getRing_updRing_self _ h, if_neg h0]

theorem doorbell_pend_ne {m : Nat} (h : m ≠ n) : (getRing (doorbell s n tail) m).pend = (getRing s m).pend := by
  by_cases h0 : ringSize s n = 0
  · rw [doorbell_of_absent h0, getRing_event]
  · rw [doorbell_of_present h0, getRing_updRing_ne _ h]

end

/-! ### CMD_CTRL (R215, R222, R223) -/

/-- ABORT of a ring. -/
def setAbort (r : Ring) : Ring := { r with abort := true }

/-- A ring goes on. -/
def goOn (r : Ring) : Ring := { r with halt := false }

/-- The completion ring halts ring `n` no more. -/
def liftHalt (s : State) (n : Nat) : State := { s with eng := { s.eng with cqHalted := setBit s.eng.cqHalted n false } }

theorem ringsOnly_id : RingsOnly fun s _ => s := fun _ _ => ⟨_, rfl⟩
theorem ringsOnly_liftHalt : RingsOnly liftHalt := fun _ _ => ⟨_, rfl⟩

/-- What ABORT and RESTART of CMD_CTRL do, before EN. -/
def ringActs (s : State) (val : Reg32) : State :=
  onRings liftHalt goOn (bitsOf 4 (val.extractLsb' 4 4)) (onRings (fun s _ => s) setAbort (bitsOf 4 (val.extractLsb' 8 4)) s)

theorem cmdCtrl_eq (s : State) (val : Reg32) : cmdCtrl s val = engEnable (ringActs s val) (val.getLsbD 0) := rfl

theorem mem_bitsOf {w n i : Nat} {x : BitVec w} : i ∈ bitsOf n x ↔ i < n ∧ x.getLsbD i = true := by simp [bitsOf]

theorem ringActs_eq (s : State) (val : Reg32) : ∃ rs c, rs.length = s.eng.rings.length ∧
    ringActs s val = { s with eng := { s.eng with rings := rs, cqHalted := c } } := by
  obtain ⟨rs, c, hl, h⟩ := onRings_eq ringsOnly_id setAbort (bitsOf 4 (val.extractLsb' 8 4)) s
  obtain ⟨rs', c', hl', h'⟩ := onRings_eq ringsOnly_liftHalt goOn (bitsOf 4 (val.extractLsb' 4 4))
    { s with eng := { s.eng with rings := rs, cqHalted := c } }
  exact ⟨rs', c', hl'.trans hl, by rw [ringActs, h, h']⟩

theorem getRing_ringActs {s : State} {n : Nat} (val : Reg32) (hn : n < 4) (hl : n < s.eng.rings.length) :
    getRing (ringActs s val) n =
      { getRing s n with abort := (getRing s n).abort || val.getLsbD (8 + n), halt := (getRing s n).halt && !val.getLsbD (4 + n) } := by
  have hbit (lo : Nat) : n ∈ bitsOf 4 (val.extractLsb' lo 4) ↔ val.getLsbD (lo + n) = true := by simp [mem_bitsOf, hn]
  obtain ⟨rs, c, hlen, h⟩ := onRings_eq ringsOnly_id setAbort (bitsOf 4 (val.extractLsb' 8 4)) s
  rw [ringActs, getRing_onRings ringsOnly_liftHalt goOn (fun _ => rfl) _ (by rw [h]; exact hlen ▸ hl),
    getRing_onRings ringsOnly_id setAbort (fun _ => rfl) _ hl]
  simp only [hbit]
  split_ifs with h4 h8 h8 <;> simp [setAbort, goOn, h4, h8]

/-! EN -/

/-- A completion or event ring is absent: EN is refused. -/
def enRefused (s : State) (on : Bool) : Bool := on && (ringSize s 4 == 0 || ringSize s 5 == 0)

/-- EN is set, and the event ring runs. -/
def engOn (s : State) : State := { s with eng := { s.eng with en := true, starts := true, cqHalted := 0, eqRuns := true } }

/-- EN starts the engine: the rings that the completion ring had halted go on. -/
def engStart (s : State) : State :=
  onRings (fun s _ => s) goOn (bitsOf 4 s.eng.cqHalted) (engOn s)

/-- The four ways of a write of EN. -/
theorem engEnable_cases (s : State) (on : Bool) :
    (enRefused s on = true ∧ engEnable s on = { s with eng := { s.eng with cfgErr := true, seq := s.eng.seq + 1 } }) ∨
    (enRefused s on = false ∧ on = true ∧ s.eng.en = true ∧ engEnable s on = s) ∨
    (enRefused s on = false ∧ on = true ∧ s.eng.en = false ∧ engEnable s on = engStart s) ∨
    (enRefused s on = false ∧ on = false ∧ engEnable s on = { s with eng := { s.eng with en := false, cqErr := false } }) := by
  cases on with
  | false => exact .inr (.inr (.inr ⟨rfl, rfl, rfl⟩))
  | true =>
    by_cases h : (ringSize s 4 = 0 || ringSize s 5 = 0) = true
    · exact .inl ⟨h, (if_pos rfl).trans (if_pos h)⟩
    · have hr : enRefused s true = false := eq_false_of_ne_true h
      cases hen : s.eng.en with
      | true => exact .inr (.inl ⟨hr, rfl, rfl, (if_pos rfl).trans ((if_neg h).trans (if_pos hen))⟩)
      | false =>
        exact .inr (.inr (.inl ⟨hr, rfl, rfl, (if_pos rfl).trans ((if_neg h).trans (if_neg (ne_true_of_eq_false hen)))⟩))

/-- EN as CMD_CTRL leaves it, with what a refusal reports. -/
theorem engEnable_leaves (s : State) (on : Bool) :
    (engEnable s on).eng.en = (if enRefused s on then s.eng.en else on) ∧
    (engEnable s on).eng.cfgErr = (s.eng.cfgErr || enRefused s on) ∧
    (engEnable s on).eng.seq = s.eng.seq + (if enRefused s on then 1 else 0) ∧
    (engEnable s on).eng.cqErr = (on && s.eng.cqErr) := by
  obtain ⟨hr, h⟩ | ⟨hr, rfl, hen, h⟩ | ⟨hr, rfl, hen, h⟩ | ⟨hr, rfl, h⟩ := engEnable_cases s on
  · have hon : on = true := (Bool.and_eq_true_iff.1 hr).1
    rw [h, hr]
    simp [hon]
  · rw [h, hr]
    simp [hen]
  · obtain ⟨rs, c, -, hs⟩ := onRings_eq ringsOnly_id goOn (bitsOf 4 s.eng.cqHalted) (engOn s)
    rw [h, hr, engStart, hs]
    simp [engOn]
  · rw [h, hr]
    simp

/-- It touches the engine alone. -/
theorem engEnable_eq (s : State) (on : Bool) : ∃ e, engEnable s on = { s with eng := e } := by
  obtain ⟨-, h⟩ | ⟨-, -, -, h⟩ | ⟨-, -, -, h⟩ | ⟨-, -, h⟩ := engEnable_cases s on
  · exact ⟨_, h⟩
  · exact ⟨_, h⟩
  · obtain ⟨rs, c, -, hs⟩ := onRings_eq ringsOnly_id goOn (bitsOf 4 s.eng.cqHalted) (engOn s)
    exact ⟨_, h.trans hs⟩
  · exact ⟨_, h⟩

/-- A write that leaves EN as it stands does nothing to the rings. -/
theorem engEnable_same (s : State) : (engEnable s s.eng.en).eng.rings = s.eng.rings ∧ (engEnable s s.eng.en).eng.en = s.eng.en := by
  obtain ⟨hr, h⟩ | ⟨hr, -, -, h⟩ | ⟨-, hon, hen, -⟩ | ⟨-, hoff, h⟩ := engEnable_cases s s.eng.en
  · rw [h]
    exact ⟨rfl, rfl⟩
  · rw [h]
    exact ⟨rfl, rfl⟩
  · exact absurd (hon.symm.trans hen) (by decide)
  · rw [h]
    exact ⟨rfl, hoff.symm⟩

/-- EN aborts no ring and halts none. -/
theorem getRing_engEnable {s : State} {n : Nat} (on : Bool) (hl : n < s.eng.rings.length) :
    getRing (engEnable s on) n = getRing s n ∨ getRing (engEnable s on) n = goOn (getRing s n) := by
  obtain ⟨-, h⟩ | ⟨-, -, -, h⟩ | ⟨-, -, -, h⟩ | ⟨-, -, h⟩ := engEnable_cases s on
  · exact .inl (by rw [h]; rfl)
  · exact .inl (by rw [h])
  · rw [h, engStart, getRing_onRings (s := engOn s) ringsOnly_id goOn (fun _ => rfl) _ hl]
    split
    · exact .inr rfl
    · exact .inl rfl
  · exact .inl (by rw [h]; rfl)

/-! CMD_CTRL as a whole -/

section
variable (s : State) (val : Reg32)

theorem cmdCtrl_leaves : (cmdCtrl s val).eng.en = (if enRefused s (val.getLsbD 0) then s.eng.en else val.getLsbD 0) ∧
    (cmdCtrl s val).eng.cfgErr = (s.eng.cfgErr || enRefused s (val.getLsbD 0)) ∧
    (cmdCtrl s val).eng.seq = s.eng.seq + (if enRefused s (val.getLsbD 0) then 1 else 0) ∧
    (cmdCtrl s val).eng.cqErr = (val.getLsbD 0 && s.eng.cqErr) := by
  obtain ⟨rs, c, -, h⟩ := ringActs_eq s val
  have := engEnable_leaves (ringActs s val) (val.getLsbD 0)
  rw [cmdCtrl_eq]
  rw [h] at this ⊢
  exact this

theorem cmdCtrl_kept : kept s (cmdCtrl s val) := by
  obtain ⟨rs, c, -, h⟩ := ringActs_eq s val
  obtain ⟨e, he⟩ := engEnable_eq (ringActs s val) (val.getLsbD 0)
  rw [cmdCtrl_eq, he, h]
  exact kept_of_engine e

variable {s}

theorem ringActs_length : (ringActs s val).eng.rings.length = s.eng.rings.length := by
  obtain ⟨rs, c, hl, h⟩ := ringActs_eq s val
  rw [h]
  exact hl

/-- A ring aborts, goes on and halts as the two action fields and EN say. -/
theorem cmdCtrl_ring {n : Nat} (hn : n < 4) (hl : n < s.eng.rings.length) :
    (getRing (cmdCtrl s val) n).abort = ((getRing s n).abort || val.getLsbD (8 + n)) ∧
    (val.getLsbD (4 + n) = true → (getRing (cmdCtrl s val) n).halt = false) := by
  have hr := getRing_ringActs val hn hl
  obtain h | h := getRing_engEnable (s := ringActs s val) (val.getLsbD 0) ((ringActs_length val).symm ▸ hl)
  · rw [cmdCtrl_eq, h, hr]
    exact ⟨rfl, fun h4 => by rw [h4]; exact Bool.and_false _⟩
  · rw [cmdCtrl_eq, h, hr]
    exact ⟨rfl, fun _ => rfl⟩

/-- With EN as it stands the action fields are all that acts. -/
theorem cmdCtrl_same (he : val.getLsbD 0 = s.eng.en) : (cmdCtrl s val).eng.en = s.eng.en ∧
    ∀ n, getRing (cmdCtrl s val) n = getRing (ringActs s val) n := by
  obtain ⟨rs, c, -, h⟩ := ringActs_eq s val
  have hen : val.getLsbD 0 = (ringActs s val).eng.en := by rw [he, h]
  obtain ⟨hrings, hsame⟩ := engEnable_same (ringActs s val)
  rw [cmdCtrl_eq, hen, hsame]
  exact ⟨by rw [h], fun n => by rw [getRing, hrings, getRing]⟩

end

theorem testBit_flag (b : Bool) (i : Nat) : (flag b).testBit i = (decide (i = 0) && b) := by
  cases b with
  | false => simp [flag]
  | true =>
    rw [flag, if_pos rfl, Bool.and_true, Bool.eq_iff_iff, decide_eq_true_iff]
    exact Nat.testBit_one_eq_true_iff_self_eq_zero

theorem getLsbD_ctrlValue (s : State) (mask : BitVec 4) {lo i : Nat} (hi : i < 32) : (ctrlValue s mask lo).getLsbD i =
    ((decide (lo ≤ i) && mask.getLsbD (i - lo)) || (decide (i = 0) && s.eng.en)) := by
  rw [ctrlValue, word, BitVec.getLsbD_ofNat, decide_eq_true hi]
  simp [Nat.testBit_shiftLeft, testBit_flag, BitVec.getLsbD]

section
variable (s : State) (mask : BitVec 4) {lo : Nat}

theorem ctrlValue_en (h : 0 < lo) : (ctrlValue s mask lo).getLsbD 0 = s.eng.en := by
  rw [getLsbD_ctrlValue s mask (by decide)]
  simp [Nat.not_le.2 h]

theorem ctrlValue_action (h : 0 < lo) {n : Nat} (hn : lo + n < 32) : (ctrlValue s mask lo).getLsbD (lo + n) = mask.getLsbD n := by
  rw [getLsbD_ctrlValue s mask hn]
  simp [h.ne']

theorem ctrlValue_other {i : Nat} (h0 : i ≠ 0) (hi : i < 32) (h : i < lo ∨ lo + 4 ≤ i) : (ctrlValue s mask lo).getLsbD i = false := by
  rw [getLsbD_ctrlValue s mask hi]
  rcases h with h | h
  · simp [Nat.not_le.2 h, h0]
  · simp [BitVec.getLsbD_of_ge mask (i - lo) (by omega), h0]

end

theorem regRow_cmdCtrl {s : State} {who : Nat} {val : Reg32} (hr : rowReady s who 0x5100 val) :
    regRow s who 0x5100 val = settle (cmdCtrl s val) := by
  rw [regRow_of_ready hr, performRegWrite_engine _ _ (by decide)]
  rfl

section
variable {s : State} {who : Fin 8} (hs : s.up)
include hs

theorem exec_cmdEnable {val : Reg32} (hr : rowReady s who 0x5100 val) :
    exec (.cmdEnable who val) s = .next (settle (cmdCtrl s val)) :=
  (guarded_of_defined hs.1 fun s => regRow s who 0x5100 val).trans (congrArg _ (regRow_cmdCtrl hr))

theorem exec_abort {mask : BitVec 4} (hr : rowReady s who 0x5100 (ctrlValue s mask 8)) :
    exec (.abort who mask) s = .next (settle (cmdCtrl s (ctrlValue s mask 8))) :=
  (guarded_of_defined hs.1 fun s => regRow s who 0x5100 (ctrlValue s mask 8)).trans (congrArg _ (regRow_cmdCtrl hr))

theorem exec_restart {mask : BitVec 4} (hr : rowReady s who 0x5100 (ctrlValue s mask 4)) :
    exec (.restart who mask) s = .next (settle (cmdCtrl s (ctrlValue s mask 4))) :=
  (guarded_of_defined hs.1 fun s => regRow s who 0x5100 (ctrlValue s mask 4)).trans (congrArg _ (regRow_cmdCtrl hr))

end

/-- ABORT and RESTART leave EN as it stands; only their action bits act. -/
theorem ctrlValue_settles {s : State} (hd : s.sound) (mask : BitVec 4) {lo : Nat} (h : 0 < lo) :
    let t := settle (cmdCtrl s (ctrlValue s mask lo))
    t.eng.en = s.eng.en ∧ kept s t ∧ ∀ n, n < 4 →
      (getRing t n).abort = ((getRing s n).abort || (ctrlValue s mask lo).getLsbD (8 + n)) ∧
      (getRing t n).halt = ((getRing s n).halt && !(ctrlValue s mask lo).getLsbD (4 + n)) := by
  have hx := settle_extends (cmdCtrl s (ctrlValue s mask lo))
  obtain ⟨hen, hrings⟩ := cmdCtrl_same (s := s) (ctrlValue s mask lo) (ctrlValue_en s mask h)
  refine ⟨(hx.eng Eng.en).trans hen, hx.keeps (cmdCtrl_kept ..), fun n hn => ?_⟩
  rw [hx.ring n Ring.abort, hx.ring n Ring.halt, hrings, getRing_ringActs _ hn (lt_rings_length hd hn)]
  exact ⟨rfl, rfl⟩

/-! ### Ring registers (R206) -/

theorem ringReg_kind : ∀ (n : Fin 6) (k : Fin 3), let off := 0x5000 + 16 * n.val + 4 * k.val
    isKeyed off = true ∧ isMember off = true ∧ isRsq off = false ∧ (storedRow off).isSome = true ∧ (off - 0x5000) / 16 = n.val ∧
    storedMask off = if k.val = 0 then 0xFFFFFC00 else if k.val = 1 then 0x0000FFFF else 0x0000000F := by decide

/-- A keyed change is seen by no ring, but in the command that runs (05 R124). -/
theorem keyedChange_extends (s : State) : Ext s (keyedChange s) :=
  foldl_ext _ _ (fun s n h => by
    split
    · exact ite_ext (updRun_ext _ _ h) h
    · exact h) { Ext.refl s with }

/-- The state in which the holder of the key writes a member. -/
def memberReady (s : State) : State := memberWrite (spendKey s)

theorem memberWrite_eng (s : State) : (memberWrite s).eng = s.eng := rfl

theorem memberReady_eq (s : State) : ∃ rs w q, memberReady s = { s with
    cch := { s.cch with invDone := false }, eng := { s.eng with rings := rs }, cfg := { s.cfg with
      unlocked := none, pass := false, winQt := q, window := w } } := by
  obtain ⟨rs, h⟩ := keyedChange_eq { s with cfg := { s.cfg with unlocked := none } }
  rw [memberReady, spendKey, h]
  exact ⟨rs, _, _, rfl⟩

theorem memberReady_keeps (s : State) : (memberReady s).eng.en = s.eng.en ∧ (∀ o, reg (memberReady s) o = reg s o) ∧
    (memberReady s).cfg.unlocked = none ∧ (memberReady s).vlt = s.vlt := by
  obtain ⟨rs, w, q, h⟩ := memberReady_eq s
  rw [h]
  exact ⟨rfl, fun _ => rfl, rfl, rfl⟩

theorem memberReady_ring (s : State) (n : Nat) : (getRing (memberReady s) n).pend = (getRing s n).pend ∧
    (getRing (memberReady s) n).acc = (getRing s n).acc := by
  have hx : Ext { s with cfg := { s.cfg with unlocked := none } } (spendKey s) := keyedChange_extends _
  rw [getRing, memberReady, memberWrite_eng]
  exact ⟨hx.ring n Ring.pend, hx.ring n Ring.acc⟩

theorem memberReady_length {s : State} (hd : s.sound) : (memberReady s).eng.rings.length = 5 := by
  have hx : Ext { s with cfg := { s.cfg with unlocked := none } } (spendKey s) := keyedChange_extends _
  rw [memberReady, memberWrite_eng]
  exact rings_length (hx.sound hd)

/-- The ring of a register that is written: a submission ring is numbered anew. -/
def renumber (s : State) (n : Nat) (r : Ring) : Ring := if n < 4 then { r with num := rungNo s n } else r

/-- The register of ring `n` is stored. -/
def ringStored (s : State) (n off : Nat) (val : Reg32) : State := regPut (updRing s n (renumber s n)) off val

theorem ringWrite_of_enabled {s : State} (off : Nat) (val : Reg32) (h : s.eng.en = true) : ringWrite s off val = breach s .r206 := if_pos h

theorem ringWrite_of_disabled {s : State} {off n : Nat} (val : Reg32) (hn : (off - 0x5000) / 16 = n) (h : s.eng.en = false) :
    ringWrite s off val = resetRing (ringStored s n off val) n := by
  unfold ringWrite
  dsimp only
  rw [hn, if_neg (ne_true_of_eq_false h)]
  rfl

theorem resetRing_eq (s : State) (n : Nat) : ∃ e, resetRing s n = { s with eng := e } := by
  unfold resetRing
  split_ifs
  · exact ⟨_, rfl⟩
  · exact ⟨_, rfl⟩
  · exact ⟨_, rfl⟩

section
variable {s : State} {n : Nat}

theorem resetRing_self (hn : n < 4) (hl : n < s.eng.rings.length) :
    (getRing (resetRing s n) n).pend = 0 ∧ (getRing (resetRing s n) n).acc = 0 := by
  rw [resetRing, if_pos hn, getRing_updRing_self _ hl]
  exact ⟨rfl, rfl⟩

theorem resetRing_ne {m : Nat} (hn : n < 4) (h : m ≠ n) : getRing (resetRing s n) m = getRing s m := by
  rw [resetRing, if_pos hn, getRing_updRing_ne _ h]

end

section
variable {s : State} {off n : Nat} (val : Reg32) (hn : (off - 0x5000) / 16 = n) (he : s.eng.en = false)
include hn he

theorem reg_ringWrite (o : Nat) : reg (ringWrite s off val) o = if o = off then val &&& storedMask off else reg s o := by
  obtain ⟨e, h⟩ := resetRing_eq (ringStored s n off val) n
  have hcfg : reg (ringWrite s off val) o = reg (regPut s off val) o := by
    rw [ringWrite_of_disabled val hn he, h]
    rfl
  rw [hcfg]
  split
  · next ho => rw [ho, reg_regPut_self]
  · next ho => exact reg_regPut_ne _ val ho

theorem ringWrite_keeps : (ringWrite s off val).cfg.unlocked = s.cfg.unlocked ∧ (ringWrite s off val).vlt = s.vlt := by
  obtain ⟨e, h⟩ := resetRing_eq (ringStored s n off val) n
  rw [ringWrite_of_disabled val hn he, h]
  exact ⟨rfl, rfl⟩

theorem ringWrite_ring (h4 : n < 4) (hl : s.eng.rings.length = 5) :
    (getRing (ringWrite s off val) n).pend = 0 ∧ (getRing (ringWrite s off val) n).acc = 0 ∧
    ∀ m, m ≠ n → getRing (ringWrite s off val) m = getRing s m := by
  have hlen : n < (ringStored s n off val).eng.rings.length := by
    simp only [ringStored, regPut_eng, updRing_eng, length_updAt, hl]
    omega
  have hne {m : Nat} (hm : m ≠ n) : getRing (ringStored s n off val) m = getRing s m := getRing_updRing_ne _ hm
  obtain ⟨hp, ha⟩ := resetRing_self h4 hlen
  rw [ringWrite_of_disabled val hn he]
  exact ⟨hp, ha, fun m hm => (resetRing_ne h4 hm).trans (hne hm)⟩

theorem ringWrite_completionRing (h4 : n = 4) : (ringWrite s off val).eng.cqHead = 0 ∧ (ringWrite s off val).eng.cqTail = 0 ∧
    (ringWrite s off val).eng.cqPhase = true := by
  rw [ringWrite_of_disabled val hn he, h4]
  exact ⟨rfl, rfl, rfl⟩

theorem ringWrite_eventRing (h5 : n = 5) : (ringWrite s off val).eng.eqHead = 0 ∧ (ringWrite s off val).eng.eqTail = 0 ∧
    (ringWrite s off val).eng.eqPhase = true := by
  rw [ringWrite_of_disabled val hn he, h5]
  exact ⟨rfl, rfl, rfl⟩

end

/-- A keyed write of a ring register. -/
theorem performRegWrite_ring {s : State} {who n k : Nat} (val : Reg32) (hn : n < 6) (hk : k < 3) (hu : s.cfg.unlocked = some who) :
    performRegWrite s who (0x5000 + 16 * n + 4 * k) val = ringWrite (memberReady s) (0x5000 + 16 * n + 4 * k) val := by
  obtain ⟨hkey, hmem, hrsq, hst, -, -⟩ := ringReg_kind ⟨n, hn⟩ ⟨k, hk⟩
  dsimp only at hkey hmem hrsq hst
  rw [performRegWrite_of_key val hkey hu, acceptWrite, if_pos hmem, writeEffect, if_neg (ne_true_of_eq_false hrsq), if_pos (by omega)]
  simp only [writeLow, rGeom]
  rw [if_neg (by omega), if_neg (by omega), if_neg (by omega), if_neg (by simp; omega), if_neg (by omega), if_neg (by omega),
    if_pos (by simp; omega), if_pos hst]
  rfl

theorem exec_cmdRingWrite {s : State} {who : Fin 8} {n k : Nat} {val : Reg32} (hs : s.up) (hn : n < 6) (hk : k < 3)
    (hu : s.cfg.unlocked = some who.val) (hr : rowReady s who (0x5000 + 16 * n + 4 * k) val) :
    exec (.cmdRingWrite who (BitVec.ofNat 16 (0x5000 + 16 * n + 4 * k)) val) s =
      .next (settle (ringWrite (memberReady s) (0x5000 + 16 * n + 4 * k) val)) := by
  obtain ⟨-, -, -, hst, -, -⟩ := ringReg_kind ⟨n, hn⟩ ⟨k, hk⟩
  have ho : (BitVec.ofNat 16 (0x5000 + 16 * n + 4 * k)).toNat = 0x5000 + 16 * n + 4 * k := by
    rw [BitVec.toNat_ofNat, Nat.mod_eq_of_lt (by omega)]
  have hrow : (decide (0x5000 ≤ 0x5000 + 16 * n + 4 * k ∧ 0x5000 + 16 * n + 4 * k < 0x5060) &&
      (storedRow (0x5000 + 16 * n + 4 * k)).isSome) = true := by
    rw [decide_eq_true (by omega)]
    exact hst
  refine (guarded_of_defined hs.1 _).trans (congrArg _ ?_)
  dsimp only
  rw [ho, hrow, ← performRegWrite_ring val hn hk hu]
  exact regRow_of_ready hr

/-! ### Heads (R213, R214, R237) and CMD_RSW (R229) -/

section
variable (s : State) (val : Reg32)

theorem headWrite_kept (eq : Bool) : kept s (headWrite s eq val) := by
  unfold headWrite
  dsimp only
  split_ifs <;> exact ⟨rfl, rfl, rfl⟩

/-- A head that stays where it is, or moves to where it stands, is one that did not move. -/
theorem head_moves {size head tail h : Nat} {x y : State} {f : State → Nat} (hx : f x = h) (hy : f y = head) :
    f (if (headOk size head tail h && h != head) = true then x else y) =
      if h < size ∧ (h + size - head) % size ≤ (tail + size - head) % size then h else head := by
  simp only [headOk, Bool.and_eq_true, decide_eq_true_eq, bne_iff_ne]
  split_ifs with h1 h2 h3
  · exact hx
  · exact absurd h1.1 h2
  · exact hy.trans (not_not.1 fun hne => h1 ⟨h3, Ne.symm hne⟩)
  · exact hy

theorem headWrite_completionRing :
    (headWrite s false val).eng.cqTail = s.eng.cqTail ∧ (headWrite s false val).eng.eqHead = s.eng.eqHead ∧
    (headWrite s false val).eng.cqHead =
      if fld val 11 0 < ringSize s 4 ∧
        (fld val 11 0 + ringSize s 4 - s.eng.cqHead) % ringSize s 4 ≤ (s.eng.cqTail + ringSize s 4 - s.eng.cqHead) % ringSize s 4
      then fld val 11 0 else s.eng.cqHead := by
  refine ⟨?_, ?_, head_moves (f := fun s => s.eng.cqHead) rfl rfl⟩
  · exact (apply_ite (fun s : State => s.eng.cqTail) ..).trans (ite_self _)
  · exact (apply_ite (fun s : State => s.eng.eqHead) ..).trans (ite_self _)

theorem headWrite_eventRing :
    (headWrite s true val).eng.eqTail = s.eng.eqTail ∧ (headWrite s true val).eng.cqHead = s.eng.cqHead ∧
    (headWrite s true val).eng.eqHead =
      if fld val 11 0 < ringSize s 5 ∧
        (fld val 11 0 + ringSize s 5 - s.eng.eqHead) % ringSize s 5 ≤ (s.eng.eqTail + ringSize s 5 - s.eng.eqHead) % ringSize s 5
      then fld val 11 0 else s.eng.eqHead := by
  refine ⟨?_, ?_, head_moves (f := fun s => s.eng.eqHead) rfl rfl⟩
  · exact (apply_ite (fun s : State => s.eng.eqTail) ..).trans (ite_self _)
  · exact (apply_ite (fun s : State => s.eng.cqHead) ..).trans (ite_self _)

theorem rswWrite_clr : rswWrite s 0x40000000 =
    if s.eng.window.any (fun w => attrStr (rgnAttr s w.region) == w.new) then { s with eng := { s.eng with window := none } } else s := by
  unfold rswWrite
  cases s.eng.window with
  | none => rfl
  | some w => rfl

end

section
variable {s : State} {who : Fin 8} (hs : s.up)
include hs

theorem exec_cqHeadWrite {val : Reg32} (hr : rowReady s who 0x5130 val) :
    exec (.ringHeadWrite who false val) s = .next (settle (headWrite s false val)) := by
  refine (guarded_of_defined hs.1 fun s => regRow s who 0x5130 val).trans (congrArg _ ?_)
  rw [regRow_of_ready hr, performRegWrite_engine _ _ (by decide)]
  rfl

theorem exec_eqHeadWrite {val : Reg32} (hr : rowReady s who 0x5138 val) :
    exec (.ringHeadWrite who true val) s = .next (settle (headWrite s true val)) := by
  refine (guarded_of_defined hs.1 fun s => regRow s who 0x5138 val).trans (congrArg _ ?_)
  rw [regRow_of_ready hr, performRegWrite_engine _ _ (by decide)]
  rfl

theorem exec_rswClr (hr : rowReady s who 0x510C 0x40000000) :
    exec (.rswClr who) s = .next (settle (rswWrite s 0x40000000)) := by
  refine (guarded_of_defined hs.1 fun s => regRow s who 0x510C 0x40000000).trans (congrArg _ ?_)
  rw [regRow_of_ready hr, performRegWrite_engine _ _ (by decide)]
  rfl

end

/-- Settles O41: each register's write by what it does to the state (`doorbell_pend`, `cmdCtrl_leaves`, `cmdCtrl_ring`, `ringWrite_ring`,
`headWrite_completionRing`, `rswWrite_clr`), which waiting work keeps (`Ext.eng`, `Ext.ring`). -/
theorem engineRegisters : Obligations.EngineRegisters := by
  refine ⟨fun s who n tail hs hd hr => ⟨_, exec_cmdSqDb_of_ready hs hr, ?_⟩,
    fun s who n tail hs => ⟨fun ho hf => ⟨_, exec_cmdSqDb hs, ?_⟩,
      fun ho => (exec_cmdSqDb hs).trans (congrArg _ (regRow_of_closed _ _ ho))⟩,
    fun s who val hs hd hr => ⟨_, exec_cmdEnable hs hr, ?_⟩,
    fun s who mask hs hd => ⟨fun hr => ⟨_, exec_abort hs hr, ?_⟩, fun hr => ⟨_, exec_restart hs hr, ?_⟩⟩,
    fun s who n k val hs hd hu hn hk hr => ⟨fun he => ⟨_, exec_cmdRingWrite hs hn hk hu hr, ?_⟩,
      fun he => ⟨_, exec_cmdRingWrite hs hn hk hu hr, ?_⟩⟩,
    fun s who val hs => ⟨fun hr => ⟨_, exec_cqHeadWrite hs hr, ?_⟩, fun hr => ⟨_, exec_eqHeadWrite hs hr, ?_⟩⟩,
    fun s who hs hr => ⟨_, exec_rswClr hs hr, ?_⟩⟩
  · have hx := settle_extends (doorbell s n.val tail.toNat)
    refine ⟨(hx.ring _ Ring.pend).trans (doorbell_pend (lt_rings_length hd n.isLt)),
      fun m hm => (hx.ring m Ring.pend).trans (doorbell_pend_ne hm), fun h0 hrun => ?_, hx.keeps doorbell_kept⟩
    obtain ⟨e, he, hfields⟩ := doorbell_event (tail := tail.toNat) h0 hrun
    exact ⟨e, he ▸ hx.events, hfields⟩
  · have hx := settle_extends (queueRow s who (0x5110 + 4 * n.val) (tail.setWidth 32))
    rw [← regRow_of_waiting ho (.inl hf)] at hx
    exact ⟨fun m => hx.ring m Ring.pend, hx.owed.trans (owed_queueRow ..), congrArg (fun x => x.bus.nextReq) hx.fixed, hx.kept, hx⟩
  · have hx := settle_extends (cmdCtrl s val)
    obtain ⟨hen, hcfg, hseq, hcq⟩ := cmdCtrl_leaves s val
    refine ⟨⟨(hx.eng Eng.en).trans hen, (hx.eng Eng.cfgErr).trans hcfg, (hx.eng Eng.seq).trans hseq, (hx.eng Eng.cqErr).trans hcq⟩,
      fun n hn => ?_, hx.keeps (cmdCtrl_kept s val)⟩
    obtain ⟨hab, hha⟩ := cmdCtrl_ring val hn (lt_rings_length hd hn)
    exact ⟨(hx.ring n Ring.abort).trans hab, fun h => (hx.ring n Ring.halt).trans (hha h)⟩
  · obtain ⟨hen, hkept, hrings⟩ := ctrlValue_settles hd mask (lo := 8) (by decide)
    refine ⟨hen, hkept, fun n hn => ?_⟩
    obtain ⟨hab, hha⟩ := hrings n hn
    rw [hab, hha, ctrlValue_action s mask (by decide) (by omega), ctrlValue_other s mask (by omega) (by omega) (.inl (by omega))]
    exact ⟨rfl, Bool.and_true _⟩
  · obtain ⟨hen, hkept, hrings⟩ := ctrlValue_settles hd mask (lo := 4) (by decide)
    refine ⟨hen, hkept, fun n hn => ?_⟩
    obtain ⟨hab, hha⟩ := hrings n hn
    rw [hab, hha, ctrlValue_action s mask (by decide) (by omega), ctrlValue_other s mask (by omega) (by omega) (.inr (by omega))]
    exact ⟨rfl, Bool.or_false _⟩
  · have hx := settle_extends (ringWrite (memberReady s) (0x5000 + 16 * n + 4 * k) val)
    obtain ⟨-, -, -, -, hno, hmask⟩ := ringReg_kind ⟨n, hn⟩ ⟨k, hk⟩
    obtain ⟨hen, hreg, hlock, hvlt⟩ := memberReady_keeps s
    have hen := hen.trans he
    obtain ⟨hkey, hvlt'⟩ := ringWrite_keeps val hno hen
    refine ⟨?_, fun off hoff => ?_, (hx.cfg Cfg.unlocked).trans (hkey.trans hlock), hx.vlt.trans (hvlt'.trans hvlt),
      fun h4 => ?_, fun h4 => ?_, fun h5 => ?_⟩
    · rw [hx.reg, reg_ringWrite val hno hen, if_pos rfl, hmask]
    · rw [hx.reg, reg_ringWrite val hno hen, if_neg hoff, hreg]
    · obtain ⟨hp, ha, hother⟩ := ringWrite_ring val hno hen h4 (memberReady_length hd)
      refine ⟨(hx.ring n Ring.pend).trans hp, (hx.ring n Ring.acc).trans ha, fun m hmn => ?_⟩
      rw [hx.ring m Ring.pend, hx.ring m Ring.acc, hother m hmn]
      exact memberReady_ring s m
    · obtain ⟨hh, ht, hp⟩ := ringWrite_completionRing val hno hen h4
      exact ⟨(hx.eng Eng.cqHead).trans hh, (hx.eng Eng.cqTail).trans ht, (hx.eng Eng.cqPhase).trans hp⟩
    · obtain ⟨hh, ht, hp⟩ := ringWrite_eventRing val hno hen h5
      exact ⟨(hx.eng Eng.eqHead).trans hh, (hx.eng Eng.eqTail).trans ht, (hx.eng Eng.eqPhase).trans hp⟩
  · obtain ⟨hen, -⟩ := memberReady_keeps s
    rw [ringWrite_of_enabled _ val (hen.trans he)]
    exact (settle_extends _).undef
  · have hx := settle_extends (headWrite s false val)
    obtain ⟨ht, he, hh⟩ := headWrite_completionRing s val
    exact ⟨hx.keeps (headWrite_kept s val false), (hx.eng Eng.cqTail).trans ht,
      (hx.eng Eng.eqHead).trans he, (hx.eng Eng.cqHead).trans hh⟩
  · have hx := settle_extends (headWrite s true val)
    obtain ⟨ht, hc, hh⟩ := headWrite_eventRing s val
    exact ⟨hx.keeps (headWrite_kept s val true), (hx.eng Eng.eqTail).trans ht,
      (hx.eng Eng.cqHead).trans hc, (hx.eng Eng.eqHead).trans hh⟩
  · have hx := settle_extends (rswWrite s 0x40000000)
    have hk : kept s (rswWrite s 0x40000000) := by
      rw [rswWrite_clr]
      split <;> exact ⟨rfl, rfl, rfl⟩
    rw [← rswWrite_clr]
    exact ⟨hx.keeps hk, hx⟩

/-! ## Which access the Cache Store Port takes (13 R323, R325) -/

/-- The access may be the one that goes first: counted as class 0, no install, and at a bank held by another only a read. -/
def mayLead (s : State) (a : Acc) : Bool := a.counted && !isInstall a && (!isWrite a || !bankHeld s a)

/-- Access `a` is a class-0 read of one burst that overtakes the multi-burst access `b` at its bank. -/
def Overtakes (s : State) (b a : Acc) : Prop :=
  1 < b.sectors.length ∧ a.counted = true ∧ isWrite a = false ∧ a.sectors.length ≤ 1 ∧ sameBank s b a = true

theorem pickClass0_eq (s : State) (c : List Acc) : pickClass0 s c = (c.find? (mayLead s)).map fun a =>
    if multi a then ((c.filter (mayLead s)).find? fun b => !multi b && !isWrite b && sameBank s a b).getD a else a := by
  rw [← List.head?_filter]
  rfl

theorem pickClass0_eq_none {s : State} {c : List Acc} (h : pickClass0 s c = none) : c.find? (mayLead s) = none := by
  rwa [pickClass0_eq, Option.map_eq_none_iff] at h

/-- It takes the oldest that may go first, or one that overtakes that one. -/
theorem pickClass0_some {s : State} {c : List Acc} {a : Acc} (h : pickClass0 s c = some a) :
    a ∈ c ∧ ∃ b, c.find? (mayLead s) = some b ∧ (a = b ∨ Overtakes s b a) := by
  rw [pickClass0_eq, Option.map_eq_some_iff] at h
  obtain ⟨b, hb, rfl⟩ := h
  have hmem := List.mem_of_find?_eq_some hb
  by_cases hm : multi b = true
  · rw [if_pos hm]
    cases hf : (c.filter (mayLead s)).find? fun x => !multi x && !isWrite x && sameBank s b x with
    | none => exact ⟨hmem, b, hb, .inl rfl⟩
    | some x =>
      obtain ⟨hx, hlead⟩ := List.mem_filter.1 (List.mem_of_find?_eq_some hf)
      have hover := List.find?_some hf
      simp only [Bool.and_eq_true, Bool.not_eq_true', multi, decide_eq_false_iff_not, not_lt] at hover
      obtain ⟨⟨hone, hread⟩, hbank⟩ := hover
      simp only [mayLead, Bool.and_eq_true] at hlead
      exact ⟨hx, b, hb, .inr ⟨of_decide_eq_true hm, hlead.1.1, hread, hone, hbank⟩⟩
  · rw [if_neg hm]
    exact ⟨hmem, b, hb, .inl rfl⟩

/-- The four ways of the pick: class 0, one in progress, the install of a class-0 request, and the weighted round. -/
theorem pickAcc_cases {s : State} {ready : List Nat} {a : Acc} {r : Round} (h : pickAcc s ready = some (a, r)) :
    let c := accsReady s ready
    pickClass0 s c = some a ∨
    (pickClass0 s c = none ∧ (c.find? (·.inRow) = some a ∨
      (c.find? (·.inRow) = none ∧ ((c.filter fun x => !bankHeld s x).find? (·.counted) = some a ∨
        ((c.filter fun x => !bankHeld s x).find? (·.counted) = none ∧ a ∈ c))))) := by
  unfold pickAcc at h
  dsimp only at h ⊢
  split at h
  · next hp => cases h; exact .inl hp
  · next hp =>
    refine .inr ⟨hp, ?_⟩
    split at h
    · next hr => cases h; exact .inl hr
    · next hr =>
      refine .inr ⟨hr, ?_⟩
      split at h
      · next hc => cases h; exact .inl hc
      · next hc =>
        refine .inr ⟨hc, ?_⟩
        split at h
        · obtain ⟨b, hb, he⟩ := Option.map_eq_some_iff.1 h
          cases he
          exact (List.mem_filter.1 (List.mem_of_find?_eq_some hb)).1
        · cases h

/-- What the pick says of the access it takes. -/
theorem pickAcc_takes {s : State} {ready : List Nat} {a : Acc} {r : Round} (h : pickAcc s ready = some (a, r)) :
    let c := accsReady s ready
    a ∈ c ∧ (∀ b, c.find? (mayLead s) = some b → a = b ∨ Overtakes s b a) ∧
    (∀ b, c.find? (mayLead s) = none → c.find? (·.inRow) = some b → a = b) ∧
    ∀ b, c.find? (mayLead s) = none → c.find? (·.inRow) = none →
      (c.filter fun x => !bankHeld s x).find? (·.counted) = some b → a = b := by
  dsimp only
  obtain hp | ⟨hp, hr | ⟨hr, hc | ⟨hc, hmem⟩⟩⟩ := pickAcc_cases h
  · obtain ⟨hmem, b, hb, hab⟩ := pickClass0_some hp
    refine ⟨hmem, fun b' hb' => ?_, fun b' hb' => ?_, fun b' hb' => ?_⟩
    · cases hb.symm.trans hb'
      exact hab
    · cases hb.symm.trans hb'
    · cases hb.symm.trans hb'
  · rw [pickClass0_eq_none hp, hr]
    exact ⟨List.mem_of_find?_eq_some hr, fun _ h => (by cases h), fun b _ hb => Option.some.inj hb, fun _ _ h => (by cases h)⟩
  · rw [pickClass0_eq_none hp, hr, hc]
    exact ⟨(List.mem_filter.1 (List.mem_of_find?_eq_some hc)).1, fun _ h => (by cases h), fun _ _ h => (by cases h),
      fun b _ _ hb => Option.some.inj hb⟩
  · rw [pickClass0_eq_none hp, hr, hc]
    exact ⟨hmem, fun _ h => (by cases h), fun _ _ h => (by cases h), fun _ _ _ h => (by cases h)⟩

/-! ## What an access leaves as it is -/

/-- Between `a` and `s` accesses have gone on: outputs were added, and the round of the port, the stored registers, the Vault and the
count of recoveries are as they were. -/
structure AccKept (a s : State) : Prop where
  round : s.qtk.csRound = a.qtk.csRound
  regs  : s.cfg.regs = a.cfg.regs
  vlt   : s.vlt = a.vlt
  recs  : live s cntCsRec = live a cntCsRec
  out   : a.out <:+ s.out

theorem Ext.accKept {a s : State} (h : Ext a s) : AccKept a s :=
  ⟨congrArg (fun x => x.qtk.csRound) h.fixed, h.cfg Cfg.regs, h.vlt, h.counts _ (by decide), h.out⟩

theorem partSlot_ext {a s : State} (i : Nat) (b : Block) (m : BlockMask) (h : Ext a s) : Ext a (partSlot s i b m) := updSlot_ext _ _ h

namespace AccKept

variable {a s x y : State}

theorem refl (a : State) : AccKept a a := (Ext.refl a).accKept

theorem trans (h : AccKept a s) (g : AccKept s x) : AccKept a x :=
  ⟨g.round.trans h.round, g.regs.trans h.regs, g.vlt.trans h.vlt, g.recs.trans h.recs, h.out.trans g.out⟩

theorem ext (h : AccKept a s) (hx : Ext s x) : AccKept a x := h.trans hx.accKept

theorem ite {c : Prop} [Decidable c] (hx : AccKept a x) (hy : AccKept a y) : AccKept a (if c then x else y) := by
  split <;> assumption

theorem foldl {β : Type} (l : List β) (f : State → β → State) (hf : ∀ s b, AccKept a s → AccKept a (f s b)) (h : AccKept a s) :
    AccKept a (l.foldl f s) := List.foldlRecOn (motive := AccKept a) l f h fun s hs b _ => hf s b hs

theorem count {c : Nat} (h : AccKept a s) (hc : cntCsRec ≠ c) : AccKept a (count s c) :=
  { h with recs := (live_count_ne _ hc).trans h.recs }

theorem emit (o : Out) (h : AccKept a s) : AccKept a (emit s o) := { h with out := h.out.trans (List.suffix_cons ..) }

/-- The accesses that wait change. -/
theorem accs (l : List Acc) (h : AccKept a s) : AccKept a { s with csp := { s.csp with accs := l } } := { h with }

/-! ### Words read (10 R254) -/

theorem wordRead (pos k : Nat) (p : State × List (BitVec 64) × Bool) (w : Nat × (BitVec 64 × BitVec 8)) (h : AccKept a p.1) :
    AccKept a (wordRead pos k p w).1 := by
  unfold Machine.wordRead
  split
  · exact h
  · exact (h.count (by decide)).ext (suspectEvent_ext _ _ _ (bucketEvent_ext _ (Ext.refl _)))
  · exact (h.count (by decide)).ext (suspectEvent_ext _ _ _ (event_ext _ _ _ (bucketEvent_ext _ (Ext.refl _))))

/-! ### Reads behind a write (13 R323) -/

theorem accGood (c : Acc) (b : Block) (h : AccKept a s) : AccKept a (accGood s c b) := by
  unfold Machine.accGood
  split
  · split
    · exact h
    · exact h.ext (respond_ext _ _ _ _ (updReq_ext _ _ (fun _ => rfl) (fun _ => rfl) (Ext.refl _)))
  · next i _ =>
    have h1 := h.ext (partSlot_ext i b (c.sectors.foldl (fun m k => m ||| sectorMask k) 0) (Ext.refl s))
    dsimp only
    split
    · exact .ite (h1.count (by decide)) h1
    · exact h1
  · exact h.ext (fetchEnd_ext _ _ _ _ (Ext.refl _))
  · exact h.ext (updRun_ext _ _ (Ext.refl _))
  · exact h
  · exact h

theorem serveSector (b : Block) (i k : Nat) (h : AccKept a s) : AccKept a (serveSector b i s k) := by
  unfold Machine.serveSector
  split
  · exact .ite h (.ite (.accGood _ _ (h.accs _)) (h.accs _))
  · exact h

theorem serveBehind (c : Acc) (b : Block) (ks : List Nat) (h : AccKept a s) : AccKept a (serveBehind s c b ks) :=
  .foldl _ _ (fun _ _ h => .foldl _ _ (fun _ _ h => h.serveSector _ _ _) h) h

end AccKept

/-! ## The burst that goes to the devices (13 R324, R325) -/

/-- A write of whole words writes; a read, and a write of part of a word, read first. -/
def burst (s : State) (a : Acc) (k : Nat) : Out :=
  if isWrite a = true ∧ (a.sectors.any fun k => partialWord (accMask a k)) = false
  then .ddrWrite (dramAddr s a.pos k) (secWords (sectorOf a.data k)) (wordsOf (accMask a k))
  else .ddrRead (dramAddr s a.pos k)

/-- An access that yields its bank is counted. -/
theorem yieldBank_kept (s : State) (a : Acc) : AccKept s (yieldBank s a) :=
  .ite (.count (.accs _ (.refl s)) (by decide)) (.refl s)

theorem yieldBank_out (s : State) (a : Acc) : (yieldBank s a).out = s.out := (apply_ite State.out ..).trans (ite_self _)

theorem dramAddr_congr {s t : State} (h : t.cfg.regs = s.cfg.regs) (pos k : Nat) : dramAddr t pos k = dramAddr s pos k := by
  have hr (o : Nat) : reg t o = reg s o := congrArg (mget resetVal · o) h
  have hx : cspX16 t = cspX16 s := by simp only [cspX16, hr]
  have hn : cspRanks t = cspRanks s := by simp only [cspRanks, hr]
  have hw : logWays t = logWays s := by simp only [logWays, hr]
  simp only [dramAddr, hx, hn, hw]

/-- A picked access drives its next burst; what else it does is that the accesses behind it go on. -/
theorem issueAcc_drives {s : State} {a : Acc} {k : Nat} {l : List Nat} (h : a.left = k :: l) :
    ∃ y, AccKept s y ∧ y.out = s.out ∧ AccKept (emit y (burst s a k)) (issueAcc s a) := by
  have hy := yieldBank_kept s a
  have haddr := dramAddr_congr hy.regs a.pos k
  unfold issueAcc
  simp only [h]
  split
  · next hw =>
    have hb : burst s a k = .ddrWrite (dramAddr s a.pos k) (secWords (sectorOf a.data k)) (wordsOf (accMask a k)) :=
      if_pos (by simpa using hw)
    refine ⟨yieldBank s a, hy, yieldBank_out s a, ?_⟩
    rw [hb, ← haddr]
    exact .ite (.serveBehind _ _ _ (.accs _ (.refl _))) (.accs _ (.refl _))
  · next hw =>
    have hb : burst s a k = .ddrRead (dramAddr s a.pos k) := if_neg (by simpa using hw)
    have hy' : AccKept s (if isWrite a = true then count (yieldBank s a) cntRmw else yieldBank s a) := .ite (hy.count (by decide)) hy
    have ho : (if isWrite a = true then count (yieldBank s a) cntRmw else yieldBank s a).out = s.out := by
      split <;> exact yieldBank_out s a
    refine ⟨_, hy', ho, ?_⟩
    rw [hb, ← haddr]
    exact .accs _ (.refl _)

theorem issueAcc_kept (s : State) (a : Acc) : AccKept s (issueAcc s a) := by
  cases h : a.left with
  | nil =>
    have hi : issueAcc s a = yieldBank s a := by simp [issueAcc, h]
    rw [hi]
    exact yieldBank_kept s a
  | cons k l =>
    obtain ⟨y, hy, -, hi⟩ := issueAcc_drives (s := s) h
    exact (hy.emit _).trans hi

theorem issueAcc_out {s : State} {a : Acc} {k : Nat} {l : List Nat} (h : a.left = k :: l) :
    burst s a k :: s.out <:+ (issueAcc s a).out := by
  obtain ⟨y, -, ho, hi⟩ := issueAcc_drives (s := s) h
  rw [← ho]
  exact hi.out

theorem exec_cacheStoreAccess {s : State} {ready : List Nat} {a : Acc} {r : Round} (hs : s.up) (hr : s.csp.ready = true)
    (hp : pickAcc s ready = some (a, r)) :
    exec (.cacheStoreAccess ready) s = .next (settle (issueAcc { s with qtk := { s.qtk with csRound := r } } a)) := by
  have hon : isOn s = true := beq_iff_eq.2 hs.2
  refine (guarded_of_defined hs.1 fun s => when s (isOn s && s.csp.ready) fun s => accessRow s ready).trans (congrArg _ ?_)
  refine (if_pos (by rw [hon, hr]; rfl)).trans ?_
  simp only [accessRow, hp]

/-! ## Read data (10 R254, 11 R267) -/

/-- What every word read keeps, a read keeps. -/
theorem sectorsRead_induct {P : State → Prop}
    (hw : ∀ pos k (p : State × List (BitVec 64) × Bool) w, P p.1 → P (wordRead pos k p w).1)
    {s : State} (pos : Nat) (ks : List Nat) (ws : List (BitVec 64 × BitVec 8)) (h : P s) : P (sectorsRead s pos ks ws).1 := by
  have one {s : State} (k : Nat) (ws : List (BitVec 64 × BitVec 8)) (h : P s) : P (sectorRead s pos k ws).1 :=
    List.foldlRecOn (motive := fun p : State × List (BitVec 64) × Bool => P p.1) _ _ h fun p hp w _ => hw pos k p w hp
  induction ks generalizing s ws with
  | nil => exact h
  | cons k ks ih => exact ih _ (one k _ h)

theorem sectorsRead_kept (s : State) (pos : Nat) (ks : List Nat) (ws : List (BitVec 64 × BitVec 8)) :
    AccKept s (sectorsRead s pos ks ws).1 := sectorsRead_induct (fun pos k p w h => h.wordRead pos k p w) pos ks ws (.refl s)

theorem suspectEvent_bus (s : State) (pos w c : Nat) : (suspectEvent s pos w c).bus = s.bus := by
  unfold suspectEvent
  extract_lets e evicted e' noted
  have h1 : noted.bus = s.bus := by
    unfold noted
    split
    · rfl
    · unfold evicted
      split
      · rfl
      · split <;> rfl
  split
  · split
    · exact h1
    · exact h1
  · exact h1

theorem wordRead_bus (pos k : Nat) (p : State × List (BitVec 64) × Bool) (w : Nat × (BitVec 64 × BitVec 8)) :
    (wordRead pos k p w).1.bus = p.1.bus := by
  unfold wordRead
  split
  · rfl
  · simp [suspectEvent_bus]
  · simp [suspectEvent_bus]

/-- Words read answer nobody. -/
theorem sectorsRead_bus (s : State) (pos : Nat) (ks : List Nat) (ws : List (BitVec 64 × BitVec 8)) :
    (sectorsRead s pos ks ws).1.bus = s.bus :=
  sectorsRead_induct (P := fun x => x.bus = s.bus) (fun pos k p w h => (wordRead_bus pos k p w).trans h) pos ks ws rfl

/-- The state in which the words of a read have been read, and it waits no more. -/
def wordsIn (s : State) (a : Acc) (ws : List (BitVec 64 × BitVec 8)) : State := removeAcc (sectorsRead s a.pos (todo a) ws).1 a.id

section
variable {s : State} {a : Acc} {ws : List (BitVec 64 × BitVec 8)}

theorem accData_good (hr : isWrite a = false) (hb : (sectorsRead s a.pos (todo a) ws).2.2 = []) : accData s a ws =
    accGood (wordsIn s a ws) a (overBlock (sectorsRead s a.pos (todo a) ws).2.1 a.data a.mask) := by
  simp [accData, wordsIn, hr, hb]

theorem accData_bad (hr : isWrite a = false) (hb : (sectorsRead s a.pos (todo a) ws).2.2 ≠ []) : accData s a ws =
    accBad (wordsIn s a ws) a (sectorsRead s a.pos (todo a) ws).2.2 := by
  simp [accData, wordsIn, hr, hb]

theorem wordsIn_kept (s : State) (a : Acc) (ws : List (BitVec 64 × BitVec 8)) : AccKept s (wordsIn s a ws) :=
  (sectorsRead_kept ..).accs _

theorem wordsIn_bus (s : State) (a : Acc) (ws : List (BitVec 64 × BitVec 8)) : (wordsIn s a ws).bus = s.bus := sectorsRead_bus ..

end

theorem exec_cacheStoreReadDone {s : State} {a : Acc} {ws : List (BitVec 64 × BitVec 8)} (hs : s.up)
    (ha : s.csp.accs.find? (fun x => x.id == a.id && x.issued) = some a) (hl : ws.length = 8 * (todo a).length) :
    exec (.cacheStoreReadDone a.id ws) s = .next (settle (accData s a ws)) := by
  have hon : isOn s = true := beq_iff_eq.2 hs.2
  refine (guarded_of_defined hs.1 fun s => when s (isOn s) fun s => readDoneRow s a.id ws).trans (congrArg _ ?_)
  refine (if_pos hon).trans ?_
  simp only [readDoneRow, ha, hl, if_true]

/-! ### The answer of a hit -/

/-- The response to request `id`, as `respond` queues it. -/
def answerTo (q : Req) (id : Nat) (rsp : Rsp) (b : List Beat64) (cb : Option Nat) : Resp :=
  { who := q.who, tag := q.tag, rsp := rsp, beats := b, untagged := false, retry := false, counted := q.counted, req := some id, cb := cb,
    par := b.map beatPar, kept := false }

theorem respond_resps {s : State} {id : Nat} {q : Req} (rsp : Rsp) (b : List Beat64) (cb : Option Nat) (hq : getReq s id = some q)
    (hr : responded s q = false) (hw : q.who < 12) (hs : silenced s q.who = false) :
    (respond s id rsp b cb).bus.resps = s.bus.resps ++ [answerTo q id rsp b cb] := by
  simp only [respond, hq, hr, hs, if_neg hw.ne, Bool.false_eq_true, if_false]
  rfl

/-- The data of a hit for its requester: the sector read, the requester's own queued bytes over it (04 R93). -/
def hitData (q : Req) (b : Block) : Sector := overSector (sectorOf b (secOf q.pool)) q.fwdData q.fwdMask

section
variable {s : State} {a : Acc} {i : Nat} {q : Req} (hk : a.kind = .hit i) (hq : getReq s i = some q)
include hk hq

theorem accGood_hit (b : Block) : accGood s a b =
    respond (updReq s i fun r => { r with phase := .done, result := hitData q b, fail := 0 }) i .ok (dataBeats q (hitData q b))
      (some (reqCb q)) := by
  simp only [accGood, hk, hq]
  rfl

theorem accGood_resps (b : Block) (hr : responded s q = false) (hw : q.who < 12) (hs : silenced s q.who = false) :
    (accGood s a b).bus.resps = s.bus.resps ++ [answerTo q i .ok (dataBeats q (hitData q b)) (some (reqCb q))] := by
  have hq' := getReq_updReq s i (fun r => { r with phase := .done, result := hitData q b, fail := 0 }) fun _ => rfl
  rw [hq] at hq'
  rw [accGood_hit hk hq]
  exact (respond_resps .ok _ _ hq' hr hw hs).trans rfl

end

theorem not_write_of_hit {a : Acc} {i : Nat} (h : a.kind = .hit i) : isWrite a = false := by simp [isWrite, h]

theorem AccKept.silenced {s x : State} (h : AccKept s x) (hb : x.bus = s.bus) : Machine.silenced x = Machine.silenced s :=
  silenced_congr (congrArg Bus.rsns hb) fun p => congrArg (mget resetVal · (rAgpCfg p)) h.regs

/-- A hit whose words are all good is answered with its data. -/
theorem accData_answers {s : State} {a : Acc} {i : Nat} {q : Req} {ws : List (BitVec 64 × BitVec 8)} (hk : a.kind = .hit i)
    (hq : getReq s i = some q) (hr : responded s q = false) (hw : q.who < 12) (hs : silenced s q.who = false)
    (hb : (sectorsRead s a.pos (todo a) ws).2.2 = []) :
    let b := overBlock (sectorsRead s a.pos (todo a) ws).2.1 a.data a.mask
    (accData s a ws).bus.resps = s.bus.resps ++ [answerTo q i .ok (dataBeats q (hitData q b)) (some (reqCb q))] := by
  have hbus := wordsIn_bus s a ws
  have hq' : getReq (wordsIn s a ws) i = some q := by rw [getReq, hbus]; exact hq
  have hr' : responded (wordsIn s a ws) q = false := by rw [responded, hbus]; exact hr
  rw [accData_good (not_write_of_hit hk) hb, accGood_resps hk hq' _ hr' hw (by rw [(wordsIn_kept s a ws).silenced hbus, hs]), hbus]

/-! ### Recovery from an uncorrectable word (11 R267) -/

/-- A recovery is counted, clearings are queued, and what the access served looks for its data elsewhere. -/
theorem accBad_eq (s : State) (a : Acc) (bad : List Nat) : ∃ b w, accBad s a bad =
    { queueClear (count s cntCsRec) a.pos bad with bus := b, wrb := w } := by
  unfold accBad
  dsimp only
  split <;> exact ⟨_, _, rfl⟩

/-- Each bad sector has its clearing queued. -/
theorem mem_queueClear (s : State) (pos : Nat) {ks : List Nat} {k : Nat} (h : k ∈ ks) :
    (pos, k) ∈ (queueClear s pos ks).cch.secClr := by
  by_cases hc : (pos, k) ∈ s.cch.secClr
  · exact List.mem_append_left _ hc
  · refine List.mem_append_right _ (List.mem_map_of_mem (List.mem_filter.2 ⟨h, ?_⟩))
    simpa using hc

theorem accBad_recovers (s : State) (a : Acc) (bad : List Nat) : live (accBad s a bad) cntCsRec = live s cntCsRec + 1 ∧
    (∀ k ∈ bad, (a.pos, k) ∈ (accBad s a bad).cch.secClr) ∧ (accBad s a bad).csp = s.csp ∧
    (accBad s a bad).cfg.regs = s.cfg.regs ∧ (accBad s a bad).vlt = s.vlt := by
  obtain ⟨b, w, h⟩ := accBad_eq s a bad
  rw [h]
  exact ⟨live_count_self .., fun k hk => mem_queueClear _ _ hk, rfl, rfl, rfl⟩

theorem not_mem_removeAcc {s : State} {id : Nat} {b : Acc} (h : b ∈ (removeAcc s id).csp.accs) : b.id ≠ id := by
  simpa using (List.mem_filter.1 h).2

/-- Settles O27: the order of the pick by `pickAcc_takes`, the burst by `issueAcc_out`, the answer of a hit by `accData_answers` and the
recovery by `accBad_recovers`; what all of them keep is `AccKept`. -/
theorem cacheStoreAccesses : Obligations.CacheStoreAccesses := by
  refine ⟨fun s ready a r hs hr hp => ⟨pickAcc_takes hp, _, exec_cacheStoreAccess hs hr hp, ?_⟩,
    fun s a i q ws hs ha hl hk hq hresp hw hsil hb => ⟨_, exec_cacheStoreReadDone hs ha hl, ?_⟩,
    fun s a ws hs ha hl hread hb => ⟨_, exec_cacheStoreReadDone hs ha hl, ?_⟩⟩
  · have hx := settle_extends (issueAcc { s with qtk := { s.qtk with csRound := r } } a)
    obtain ⟨hround, hregs, hvlt, -, -⟩ := (issueAcc_kept { s with qtk := { s.qtk with csRound := r } } a).ext hx
    exact ⟨hx, hround, hregs, hvlt,
      fun k l hleft => (issueAcc_out (s := { s with qtk := { s.qtk with csRound := r } }) hleft).trans hx.out⟩
  · have hx := settle_extends (accData s a ws)
    have hkept : AccKept s (accData s a ws) := by
      rw [accData_good (not_write_of_hit hk) hb]
      exact (wordsIn_kept s a ws).accGood _ _
    obtain ⟨-, hregs, hvlt, hrecs, -⟩ := hkept.ext hx
    exact ⟨hx, accData_answers hk hq hresp hw hsil hb, hrecs, hregs, hvlt⟩
  · have hx := settle_extends (accData s a ws)
    have hwords := wordsIn_kept s a ws
    obtain ⟨hrec, hclr, hcsp, hregs, hvlt⟩ := accBad_recovers (wordsIn s a ws) a (sectorsRead s a.pos (todo a) ws).2.2
    rw [← accData_bad hread hb] at hrec hclr hcsp hregs hvlt
    refine ⟨hx, ?_, hclr, fun b hmem => ?_, (hx.cfg Cfg.regs).trans (hregs.trans hwords.regs), hx.vlt.trans (hvlt.trans hwords.vlt)⟩
    · rw [hx.counts _ (by decide), hrec, hwords.recs]
    · rw [hcsp] at hmem
      exact not_mem_removeAcc hmem

end Sys2Proof.Machine

/-! SUPPORT. Proofs of the statements of `05_cache_geometry_and_enable.md`: enabling and disabling the cache, and the commands that walk
the tag store. -/

namespace Sys2Proof.Machine
set_option Elab.async false

/-! ## What waiting work keeps of the cache -/

theorem Ext.enFail {a s : State} (h : Ext a s) : s.cch.enFail = a.cch.enFail := congrArg (fun x => x.cch.enFail) h.fixed
theorem Ext.enSeq {a s : State} (h : Ext a s) : s.cch.enSeq = a.cch.enSeq := congrArg (fun x => x.cch.enSeq) h.fixed
theorem Ext.known {a s : State} (h : Ext a s) : s.cch.known = a.cch.known := congrArg (fun x => x.cch.known) h.fixed
theorem Ext.fCsloss {a s : State} (h : Ext a s) : s.err.fCsloss = a.err.fCsloss := congrArg (fun x => x.err.fCsloss) h.fixed

/-! ## Probes to all attached agents (03 R71) -/

theorem getLsbD_attachedAgents (s : State) {k : Nat} (hk : k < 8) : (attachedAgents s).getLsbD k = probeable s k false := by
  have h := getLsbD_foldl_setBit (w := 8) (fun i => probeable s i false) 8 k
  rwa [decide_eq_true hk, Bool.true_and, Bool.true_and] at h

/-- A probe queued to the attached agents names each agent that may be probed. -/
theorem queueProbe_attached {s : State} {f : ProbeFor} {k : Nat} (kind : ProbeKind) (hf : f.revive = false) (hk : k < 8)
    (hp : probeable s k false = true) :
    ∃ x ∈ (queueProbe s kind (attachedAgents s) f).prb.probes,
      x.kind = kind ∧ x.port = portOf k ∧ x.toSend.getLsbD (pairOf k) = true := by
  obtain ⟨hwho, hpair⟩ := whoAt_portOf_pairOf ⟨k, hk⟩
  dsimp only at hwho hpair
  have hpairs : (probePairs s (attachedAgents s) (portOf k) f.revive).getLsbD (pairOf k) = true := by
    rw [getLsbD_probePairs, hwho, getLsbD_attachedAgents s hk, hf, hp, decide_eq_true hpair]
    rfl
  obtain ⟨x, hx, hkind, -, hport, hsend⟩ := queueProbe_names kind hpairs
  exact ⟨x, hx, hkind, hport, hsend⟩

/-! ## Enabling the cache (05 R125, R126) -/

/-- The checks of R125 in their order, in the terms of the registers. -/
theorem enableCheck_eq (s : State) : enableCheck s =
    if 3 < fld (reg s 0x2100) 2 0 then 2 else if cspCapacity s < 2 ^ (27 + fld (reg s 0x2100) 2 0) then 3
    else if s.csp.ready = false then 4 else if s.cch.bypass = true ∧ s.cfg.okSince = false then 5
    else if s.cch.invDone = false then 1 else 0 := by
  simp [enableCheck, sizeCode, rGeom]

/-- The cache enabled, before its probes. -/
def turnedOn (s : State) : State :=
  resetDetectors { s with
    cch := { s.cch with enabled := true, bypass := false }
    err := { s.err with fBypass := false, fCsloss := false }
    cfg := { s.cfg with stale := [] } }

theorem cacheOn_of_passes {s : State} (h : enableCheck s = 0) :
    cacheOn s = queueProbe (turnedOn s) .invAll (attachedAgents (turnedOn s)) {} := by
  rw [cacheOn, h]
  rfl

theorem cacheOn_of_fails {s : State} (h : enableCheck s ≠ 0) :
    cacheOn s = { s with cch := { s.cch with enFail := BitVec.ofNat 4 (enableCheck s), enSeq := s.cch.enSeq + 1 } } := by
  unfold cacheOn
  split
  · next h0 => exact absurd h0 h
  · rfl

/-- Enabling touches neither the stored registers nor the Vault nor the probes there are. -/
theorem cacheOn_keeps (s : State) :
    s.prb.probes <+: (cacheOn s).prb.probes ∧ (cacheOn s).cfg.regs = s.cfg.regs ∧ (cacheOn s).vlt = s.vlt := by
  by_cases h : enableCheck s = 0
  · rw [cacheOn_of_passes h]
    have hx := queueProbe_ext .invAll (attachedAgents (turnedOn s)) {} (Ext.refl (turnedOn s))
    exact ⟨hx.probes, hx.cfg Cfg.regs, hx.vlt⟩
  · rw [cacheOn_of_fails h]
    exact ⟨List.prefix_refl _, rfl, rfl⟩

/-! ## Disabling the cache (05 R128) -/

/-- A fill under way that `p` selects. -/
def selectsFill (p : Handler → Bool) (h : Handler) : Bool := (isFill h.kind || h.kind == .sectorMiss) && !h.cancelled && p h

/-- What cancels fills marks the handlers it selects and counts the prefetches. -/
theorem cancelFills_eq (s : State) (p : Handler → Bool) : ∃ l, cancelFills s p = { s with
    cch := { s.cch with handlers := updIf s.cch.handlers (selectsFill p) fun h => { h with cancelled := true } }
    cfg := { s.cfg with live := l } } := by
  unfold cancelFills
  dsimp only
  split
  · exact ⟨_, rfl⟩
  · exact ⟨_, rfl⟩

theorem disableCache_of_enabled {s : State} (h : s.cch.enabled = true) :
    disableCache s = cancelFills { s with cch := { s.cch with enabled := false, invDone := false } } fun _ => true := if_pos h

theorem disableCache_of_disabled {s : State} (h : s.cch.enabled = false) : disableCache s = s := if_neg (ne_true_of_eq_false h)

theorem disableCache_disables (s : State) : (disableCache s).cch.enabled = false := by
  cases h : s.cch.enabled with
  | false => rw [disableCache_of_disabled h, h]
  | true =>
    obtain ⟨l, hl⟩ := cancelFills_eq { s with cch := { s.cch with enabled := false, invDone := false } } fun _ => true
    rw [disableCache_of_enabled h, hl]

theorem disableCache_keeps (s : State) : (disableCache s).cch.tags = s.cch.tags ∧ (disableCache s).prb = s.prb ∧
    (disableCache s).cfg.regs = s.cfg.regs ∧ (disableCache s).cfg.parBad = s.cfg.parBad ∧ (disableCache s).vlt = s.vlt := by
  cases h : s.cch.enabled with
  | false =>
    rw [disableCache_of_disabled h]
    exact ⟨rfl, rfl, rfl, rfl, rfl⟩
  | true =>
    obtain ⟨l, hl⟩ := cancelFills_eq { s with cch := { s.cch with enabled := false, invDone := false } } fun _ => true
    rw [disableCache_of_enabled h, hl]
    exact ⟨rfl, rfl, rfl, rfl, rfl⟩

/-- Every fill under way is cancelled. -/
theorem disableCache_cancels {s : State} (hs : s.cch.enabled = true) : (disableCache s).cch.invDone = false ∧
    ∀ h ∈ (disableCache s).cch.handlers, (isFill h.kind = true ∨ h.kind = .sectorMiss) → h.cancelled = true := by
  obtain ⟨l, hl⟩ := cancelFills_eq { s with cch := { s.cch with enabled := false, invDone := false } } fun _ => true
  rw [disableCache_of_enabled hs, hl]
  refine ⟨rfl, fun h hmem hfill => ?_⟩
  obtain ⟨g, -, rfl⟩ := List.mem_map.1 hmem
  by_cases hc : selectsFill (fun _ => true) g = true
  · rw [if_pos hc]
  · rw [if_neg hc] at hfill ⊢
    simpa [selectsFill, hfill] using hc

/-! ## CCH_CTRL -/

theorem performRegWrite_cchCtrl (s : State) (who : Nat) (val : Reg32) : performRegWrite s who 0x2104 val = cchCtrl s val := by
  rw [performRegWrite_of_unkeyed who val (by decide) (by decide) (by decide) (by decide)]
  rfl

section
variable {s : State} {who : Fin 8} (hs : s.up)
include hs

theorem exec_cacheEnable (hr : rowReady s who 0x2104 1) :
    exec (.cacheEnable who) s = .next (settle (if s.cch.enabled then s else cacheOn s)) := by
  refine (guarded_of_defined hs.1 fun s => regRow s who 0x2104 1).trans (congrArg _ ?_)
  rw [regRow_of_ready hr, performRegWrite_cchCtrl]
  rfl

theorem exec_cacheDisable (hr : rowReady s who 0x2104 0) : exec (.cacheDisable who) s =
    .next (settle { disableCache s with cfg := { (disableCache s).cfg with stale := [] } }) := by
  refine (guarded_of_defined hs.1 fun s => regRow s who 0x2104 0).trans (congrArg _ ?_)
  rw [regRow_of_ready hr, performRegWrite_cchCtrl]
  rfl

end

/-- Settles O25: an enable is `cacheOn`, which fails with the code of the first check that fails (`cacheOn_of_fails`) or turns the cache
on and probes (`cacheOn_of_passes`); a disable is `disableCache`. -/
theorem cacheEnableAndDisable : Obligations.CacheEnableAndDisable := by
  refine ⟨fun s who hs hr hoff => ?_, fun s who hs hr hon => ?_, fun s who hs hr => ⟨_, exec_cacheDisable hs hr, ?_⟩⟩
  · have hx := settle_extends (cacheOn s)
    obtain ⟨hprobes, hregs, hvlt⟩ := cacheOn_keeps s
    rw [exec_cacheEnable hs hr, if_neg (ne_true_of_eq_false hoff)]
    refine ⟨_, rfl, ?_, hprobes.trans hx.probes, (hx.cfg Cfg.regs).trans hregs, hx.vlt.trans hvlt⟩
    rw [← enableCheck_eq]
    refine ⟨fun hfail => ?_, fun hpass => ?_⟩
    · rw [cacheOn_of_fails hfail] at hx ⊢
      exact ⟨hx.enFail, hx.enSeq, fun hp => (hx.enab hp).trans hoff, hx.fCsloss⟩
    · rw [cacheOn_of_passes hpass] at hx ⊢
      have hon := queueProbe_ext .invAll (attachedAgents (turnedOn s)) {} (Ext.refl (turnedOn s))
      have hx' := settle_ext hon
      refine ⟨fun hp => hx'.enab hp, hx'.fCsloss, hx'.enSeq, fun k hk hp => ?_⟩
      obtain ⟨x, hmem, hfields⟩ := queueProbe_attached (s := turnedOn s) (f := {}) .invAll rfl hk hp
      exact ⟨x, hx.probes.subset hmem, hfields⟩
  · rw [exec_cacheEnable hs hr, if_pos hon]
    exact ⟨_, rfl, settle_extends s⟩
  · have hx := settle_extends { disableCache s with cfg := { (disableCache s).cfg with stale := [] } }
    obtain ⟨htags, hprb, hregs, hpar, hvlt⟩ := disableCache_keeps s
    refine ⟨fun hp => (hx.enab (hpar.trans hp)).trans (disableCache_disables s), hx, disableCache_cancels, htags, ?_,
      (hx.cfg Cfg.regs).trans hregs, hx.vlt.trans hvlt⟩
    rw [← hprb]
    exact hx.probes

/-! ## Commands of a ring, stepped by a row of their own -/

theorem getRun_of_stepDue {s : State} {n op : Nat} {x : Running} (h : stepDue s n op = some x) : getRun s n = some x ∧ x.opcode = op := by
  obtain ⟨-, h⟩ := Option.ite_none_right_eq_some.1 h
  unfold unitDue at h
  split at h
  · next y hy =>
    obtain ⟨hc, he⟩ := Option.ite_none_right_eq_some.1 h
    cases he
    simp only [Bool.and_eq_true, decide_eq_true_eq] at hc
    obtain ⟨⟨hop, -⟩, -⟩ := hc
    exact ⟨hy, hop⟩
  · cases h

/-- A ring that runs a command is one that there is. -/
theorem lt_rings_length_of_run {s : State} {n : Nat} {x : Running} (h : getRun s n = some x) : n < s.eng.rings.length := by
  by_contra hn
  rw [getRun, getRing, List.getD_eq_default _ _ (Nat.le_of_not_lt hn)] at h
  cases h

theorem getRun_updRun_self {s : State} {n : Nat} {x : Running} (f : Running → Running) (h : getRun s n = some x) :
    getRun (updRun s n f) n = some (f x) := by
  rw [getRun, updRun, getRing_updRing_self _ (lt_rings_length_of_run h)]
  exact congrArg (Option.map f) h

theorem getRun_congr {s t : State} (h : t.eng = s.eng) (n : Nat) : getRun t n = getRun s n := by
  rw [getRun, getRing, h]
  rfl

/-- What taking its turn leaves of the state for an operation to find. -/
theorem turn_frame {s z : State} {o : PipeOp} {k c : Nat} (h : turn s o k = some (z, c)) : z.cch = s.cch ∧ z.eng = s.eng ∧ kept s z ∧
    probeRoom z (attachedAgents z) = probeRoom s (attachedAgents s) ∧ ∀ a, probeable z a false = probeable s a false := by
  obtain ⟨q, rfl⟩ := turn_eq h
  exact ⟨rfl, rfl, ⟨rfl, rfl, rfl⟩, rfl, fun _ => rfl⟩

/-- The row of a command that the pipeline gives its step. -/
theorem unitRow_of_turn {s z : State} {n op units c : Nat} {x : Running} (hd : stepDue s n op = some x)
    (ht : turn s (.step n) units = some (z, c)) : unitRow s n op units = settle (stepOp z n c) := by
  obtain ⟨hrun, hop⟩ := getRun_of_stepDue hd
  have hrow : pipeRow s (.step n) units false = settle (stepOp z n c) := by rw [pipeRow, ht]; rfl
  rw [unitRow, hrun, Option.any_some, beq_iff_eq.2 hop, if_pos rfl, hrow]

/-- The units of a walk that the pipeline gives. -/
theorem stepOp_of_walk {s z : State} {n units c : Nat} {x : Running} (ht : turn s (.step n) units = some (z, c)) (hc : c ≠ 0) :
    (stepDue s n 1 = some x → stepOp z n c = invStep z n c x) ∧ (stepDue s n 5 = some x → stepOp z n c = dropStep z n c x) := by
  obtain ⟨q, rfl⟩ := turn_eq ht
  have run (op : Nat) (hd : stepDue s n op = some x) : (getRun { s with qtk := q } n).map (·.opcode) = some op := by
    obtain ⟨hrun, hop⟩ := getRun_of_stepDue hd
    exact (congrArg _ hrun).trans (congrArg some hop)
  have due (op : Nat) : stepDue { s with qtk := q } n op = stepDue s n op := rfl
  exact ⟨fun hd => by simp only [stepOp, run 1 hd, due, hd, Option.elim_some, if_neg hc],
    fun hd => by simp only [stepOp, run 5 hd, due, hd, Option.elim_some, if_neg hc]⟩

section
variable {s z : State} {n : Fin 4} {units c : Nat} {x : Running} (hs : s.up)
include hs

theorem exec_nop (hd : stepDue s n 0 = some x) : exec (.nop n) s = .next (settle (finishRun s n x 0)) := by
  refine (guarded_of_defined hs.1 fun s => stepRow s n 0 fun s x => finishRun s n x 0).trans (congrArg _ ?_)
  rw [stepRow, hd]

theorem exec_invalidateAll (hd : stepDue s n 1 = some x) (ht : turn s (.step n) units = some (z, c)) (hc : c ≠ 0) :
    exec (.invalidateAll n units) s = .next (settle (invStep z n c x)) := by
  refine (guarded_of_defined hs.1 fun s => unitRow s n 1 units).trans (congrArg _ ?_)
  rw [unitRow_of_turn hd ht, (stepOp_of_walk ht hc).1 hd]

theorem exec_regionDrop (hd : stepDue s n 5 = some x) (ht : turn s (.step n) units = some (z, c)) (hc : c ≠ 0) :
    exec (.regionDrop n units) s = .next (settle (dropStep z n c x)) := by
  refine (guarded_of_defined hs.1 fun s => unitRow s n 5 units).trans (congrArg _ ?_)
  rw [unitRow_of_turn hd ht, (stepOp_of_walk ht hc).2 hd]

end

/-! ## NOP (09 R219, R225) -/

/-- The DONE entry of a command that ends without a fault. -/
def doneEntry (s : State) (n : Nat) (x : Running) : CEntry :=
  { runEntry s n x 3 0 1024 with final := true, irq := x.irq, durable := x.opcode == 6 || (x.opcode == 7 && x.repair) }

theorem finishRun_cents (s : State) {n : Nat} (x : Running) (hn : n < 4) :
    (finishRun s n x 0).eng.cents = s.eng.cents ++ [doneEntry s n x] := by
  have hq : queueEntry s (doneEntry s n x) = { s with eng := { s.eng with cents := s.eng.cents ++ [doneEntry s n x] } } :=
    if_neg (by simp [doneEntry, runEntry, blankEntry, Nat.ne_of_lt hn])
  have he : ({ runEntry s n x 3 0 1024 with
      final := true, irq := x.irq || decide (0 ≠ 0), durable := x.opcode == 6 || (x.opcode == 7 && x.repair) } : CEntry) =
      doneEntry s n x := by
    simp [doneEntry]
  unfold finishRun
  dsimp only
  rw [if_pos rfl, if_pos rfl, he, hq, if_neg (Nat.ne_of_lt hn)]
  split
  · split <;> rfl
  · rfl

/-! ## Tags that an invalidation writes -/

/-- A read of a list from which the keys that `r` does not keep were taken. -/
theorem mget_filter {α : Type} (d : Nat → α) (m : List (Nat × α)) (r : Nat → Bool) (j : Nat) :
    mget d (m.filter fun e => r e.1) j = if r j then mget d m j else d j := by
  induction m with
  | nil => simp [mget]
  | cons e m ih =>
    obtain ⟨i, v⟩ := e
    by_cases hij : i = j
    · subst hij
      cases hr : r i <;> simp [mget, ih, hr]
    · cases hr : r i <;> simp [mget, ih, hr, hij]

theorem tagBits_congr {s t : State} (hk : t.cch.known = s.cch.known) (ht : t.cch.tags = s.cch.tags) (he : t.cch.epoch = s.cch.epoch)
    (p : Nat) : tagBits t p = tagBits s p := by rw [tagBits, hk, ht, he, tagBits]

theorem tagBits_of_cch {s t : State} (h : t.cch = s.cch) (p : Nat) : tagBits t p = tagBits s p := by rw [tagBits, h, tagBits]

/-- All zeros hold no codeblock. -/
theorem not_valid_of_zero {s : State} {p : Nat} (h : tagBits s p = 0) : valid (tagAt s p) = false := by
  rw [tagAt, h]
  decide

section
variable {s : State} {lo hi p : Nat}

theorem tagBits_zeroTags_inside (hk : lo ≤ s.cch.known) (hlo : lo ≤ p) (hhi : p < hi) : tagBits (zeroTags s lo hi) p = 0 := by
  have hp : p < max s.cch.known hi := lt_max_of_lt_right hhi
  simp only [tagBits, zeroTags, if_pos hk, if_pos hp]
  rw [mget_filter _ _ fun p => !decide (lo ≤ p ∧ p < hi), decide_eq_true ⟨hlo, hhi⟩]
  rfl

theorem tagBits_zeroTags_outside (hk : lo ≤ s.cch.known) (h : p < lo ∨ hi ≤ p) : tagBits (zeroTags s lo hi) p = tagBits s p := by
  have hp : p < max s.cch.known hi ↔ p < s.cch.known := by omega
  have hout : ¬ (lo ≤ p ∧ p < hi) := by omega
  simp only [tagBits, zeroTags, if_pos hk, hp]
  rw [mget_filter _ _ fun p => !decide (lo ≤ p ∧ p < hi), decide_eq_false hout]
  rfl

end

/-! ## INVALIDATE_ALL (05 R127; 03 R71) -/

theorem queueProbe_cch (s : State) (k : ProbeKind) (m : BitVec 8) (f : ProbeFor) : (queueProbe s k m f).cch = s.cch := by
  have on (s : State) (p : PortId) : (queueOn s k m f p).cch = s.cch := (apply_ite State.cch ..).trans (ite_self _)
  exact (on _ .B).trans (on s .A)

theorem queueProbe_eng (s : State) (k : ProbeKind) (m : BitVec 8) (f : ProbeFor) : (queueProbe s k m f).eng = s.eng := by
  have on (s : State) (p : PortId) : (queueOn s k m f p).eng = s.eng := (apply_ite State.eng ..).trans (ite_self _)
  exact (on _ .B).trans (on s .A)

/-- The next `k` units written and counted. -/
def invWritten (s : State) (n k : Nat) (x : Running) : State :=
  updRun (zeroTags s (64 * x.doneN) (64 * (x.doneN + k))) n fun x =>
    { x with issued := x.issued + k, doneN := x.doneN + k, stuckQt := 0 }

section
variable (s : State) (n : Nat) (x : Running)

theorem invEnd_cch : (invEnd s n x).cch = { s.cch with invDone := s.cch.invDone || !x.keyed } := by
  rw [invEnd, queueProbe_cch]
  cases x.keyed <;> simp

theorem invEnd_eng : (invEnd s n x).eng = s.eng := by
  rw [invEnd, queueProbe_eng]
  cases x.keyed <;> rfl

theorem invEnd_kept {a : State} (h : kept a s) : kept a (invEnd s n x) := by
  unfold invEnd
  refine (queueProbe_ext _ _ _ (Ext.refl _)).keeps ?_
  cases x.keyed <;> exact h

theorem invEnd_probes {a : Nat} (ha : a < 8) (hp : probeable s a false = true) :
    ∃ y ∈ (invEnd s n x).prb.probes, y.kind = .invAll ∧ y.port = portOf a ∧ y.toSend.getLsbD (pairOf a) = true := by
  unfold invEnd
  cases x.keyed
  · exact queueProbe_attached .invAll rfl ha hp
  · exact queueProbe_attached .invAll rfl ha hp

end

section
variable {s : State} {n k c : Nat} {x : Running} (hk : k = min c (32768 - x.doneN)) (h0 : k ≠ 0)
  (hroom : x.doneN + k = 32768 → probeRoom s (attachedAgents s) = true)
include hk h0 hroom

/-- The step writes its units, and after the last one ends the walk. -/
theorem invStep_eq : invStep s n c x =
    if x.doneN + k = 32768 then invEnd (invWritten s n k x) n x else invWritten s n k x := by
  have hgo : (decide (k = 0) || (decide (x.doneN + k = 32768) && !probeRoom s (attachedAgents s))) = false := by
    by_cases hl : x.doneN + k = 32768
    · simp [h0, hroom hl]
    · simp [h0, hl]
  simp only [invStep, walkUnits, ← hk]
  rw [if_neg (ne_true_of_eq_false hgo)]
  rfl

theorem invStep_cch : (invStep s n c x).cch =
    { (invWritten s n k x).cch with invDone := s.cch.invDone || (x.doneN + k == 32768 && !x.keyed) } := by
  rw [invStep_eq hk h0 hroom]
  by_cases hl : x.doneN + k = 32768
  · rw [if_pos hl, invEnd_cch, beq_iff_eq.2 hl, Bool.true_and]
    rfl
  · rw [if_neg hl, beq_eq_false_iff_ne.2 hl, Bool.false_and, Bool.or_false]
    rfl

theorem tagBits_invStep (p : Nat) :
    tagBits (invStep s n c x) p = tagBits (zeroTags s (64 * x.doneN) (64 * (x.doneN + k))) p := by
  have h := invStep_cch hk h0 hroom (n := n)
  exact tagBits_congr (by rw [h]; rfl) (by rw [h]; rfl) (by rw [h]; rfl) p

theorem invStep_eng : (invStep s n c x).eng = (invWritten s n k x).eng := by
  rw [invStep_eq hk h0 hroom]
  split
  · exact invEnd_eng ..
  · rfl

theorem invStep_kept {a : State} (h : kept a s) : kept a (invStep s n c x) := by
  rw [invStep_eq hk h0 hroom]
  split
  · exact invEnd_kept (invWritten s n k x) n x h
  · exact h

theorem invStep_probes (hl : x.doneN + k = 32768) {a : Nat} (ha : a < 8) (hp : probeable s a false = true) :
    ∃ y ∈ (invStep s n c x).prb.probes, y.kind = .invAll ∧ y.port = portOf a ∧ y.toSend.getLsbD (pairOf a) = true := by
  rw [invStep_eq hk h0 hroom, if_pos hl]
  exact invEnd_probes (invWritten s n k x) n x ha hp

theorem invStep_doneN (hr : getRun s n = some x) :
    (getRun (invStep s n c x) n).map (·.doneN) = some (x.doneN + k) := by
  have hz : getRun (zeroTags s (64 * x.doneN) (64 * (x.doneN + k))) n = some x := hr
  rw [getRun_congr (invStep_eng hk h0 hroom), invWritten, getRun_updRun_self _ hz]
  rfl

end

/-! ## The walk over valid and pending entries (09 R226) -/

theorem mem_keys_minsert {α : Type} (k : Nat) (v : α) (m : List (Nat × α)) (j : Nat) :
    j ∈ (minsert k v m).map (·.1) ↔ j = k ∨ j ∈ m.map (·.1) := by
  induction m with
  | nil => simp [minsert]
  | cons e m ih =>
    obtain ⟨i, w⟩ := e
    unfold minsert
    split
    · simp
    · split
      · next hik => simp [hik]
      · rw [List.map_cons, List.mem_cons, ih, List.map_cons, List.mem_cons]
        exact or_left_comm

theorem mem_keys_foldl_minsert (l : List Nat) (m : List (Nat × Unit)) (j : Nat) :
    j ∈ (l.foldl (fun m p => minsert p () m) m).map (·.1) ↔ j ∈ l ∨ j ∈ m.map (·.1) := by
  induction l generalizing m with
  | nil => simp
  | cons p l ih => rw [List.foldl_cons, ih, mem_keys_minsert, List.mem_cons, or_left_comm, or_assoc]

section
variable {s : State} {lo hi p : Nat}

/-- A walk keeps within its positions. -/
theorem walkPositions_inside (h : p ∈ walkPositions s lo hi) : lo ≤ p ∧ p < hi := by
  rcases (mem_keys_foldl_minsert ..).1 h with hpend | hlist
  · obtain ⟨g, -, hg⟩ := List.mem_filterMap.1 hpend
    obtain ⟨-, hg⟩ := Option.ite_none_right_eq_some.1 hg
    exact of_decide_eq_true (Option.filter_eq_some_iff.1 hg).2
  · obtain ⟨e, he, rfl⟩ := List.mem_map.1 hlist
    obtain ⟨g, hg, rfl⟩ := List.mem_map.1 he
    exact of_decide_eq_true (List.mem_filter.1 hg).2

/-- It visits every valid entry there. -/
theorem mem_walkPositions_of_valid (hlo : lo ≤ p) (hhi : p < hi) (hk : p < s.cch.known) (hv : valid (tagAt s p) = true) :
    p ∈ walkPositions s lo hi := by
  refine (mem_keys_foldl_minsert ..).2 (.inr ?_)
  rcases mget_default_or_mem (fun _ => 0) s.cch.tags p with h | h
  · have h0 : tagBits s p = 0 := (if_pos hk).trans h
    exact absurd hv (ne_true_of_eq_false (not_valid_of_zero h0))
  · exact List.mem_map.2 ⟨(p, ()), List.mem_map.2 ⟨_, List.mem_filter.2 ⟨h, decide_eq_true ⟨hlo, hhi⟩⟩, rfl⟩, rfl⟩

end

/-! ### One position invalidated -/

theorem cancelFills_eng (s : State) (p : Handler → Bool) : (cancelFills s p).eng = s.eng := (apply_ite State.eng ..).trans (ite_self _)

theorem tagBits_cancelFills (s : State) (p : Handler → Bool) (q : Nat) : tagBits (cancelFills s p) q = tagBits s q := by
  obtain ⟨l, hl⟩ := cancelFills_eq s p
  rw [hl]
  exact tagBits_congr rfl rfl rfl q

theorem tagPutBits_eng (s : State) (p : Nat) (v : BitVec 40) : (tagPutBits s p v).eng = s.eng := (apply_ite State.eng ..).trans (ite_self _)

/-- Before the tag itself is written: the probe is queued and the fills are cancelled. -/
def invalReady (s : State) (p : Nat) (f : ProbeFor) : State :=
  cancelFills (if valid (tagAt s p) && s.cch.enabled then queueProbe s (.inv (cbAtPos s p)) (tagAt s p).pres f else s)
    fun h => h.pos == some p && (isFill h.kind || valid (tagAt s p))

section
variable (s : State) (p : Nat) (f : ProbeFor)

theorem invalPos_eq : invalPos s p f =
    if tagBits (invalReady s p f) p = 0 then invalReady s p f else tagPutBits (invalReady s p f) p 0 := rfl

theorem invalReady_eng : (invalReady s p f).eng = s.eng := by
  unfold invalReady
  rw [cancelFills_eng]
  split
  · exact queueProbe_eng ..
  · rfl

theorem tagBits_invalReady (q : Nat) : tagBits (invalReady s p f) q = tagBits s q := by
  unfold invalReady
  rw [tagBits_cancelFills]
  split
  · exact tagBits_of_cch (queueProbe_cch ..) q
  · rfl

theorem invalPos_eng : (invalPos s p f).eng = s.eng := by
  rw [invalPos_eq]
  split
  · exact invalReady_eng ..
  · exact (tagPutBits_eng ..).trans (invalReady_eng s p f)

end

theorem tagBits_tagPutBits {s : State} {p : Nat} (v : BitVec 40) (hp : p < s.cch.known) (q : Nat) :
    tagBits (tagPutBits s p v) q = if p = q then v else tagBits s q := by
  rw [tagPutBits, if_pos hp]
  by_cases hpq : p = q
  · subst hpq
    simp [tagBits, hp, mget_mset]
  · simp [tagBits, mget_mset, hpq]

theorem tagBits_tagPutBits_ne (s : State) {p q : Nat} (v : BitVec 40) (h : p ≠ q) : tagBits (tagPutBits s p v) q = tagBits s q := by
  by_cases hp : p < s.cch.known
  · rw [tagBits_tagPutBits v hp, if_neg h]
  · rw [tagPutBits, if_neg hp]

theorem tagBits_invalPos_ne (s : State) {p q : Nat} (f : ProbeFor) (h : p ≠ q) : tagBits (invalPos s p f) q = tagBits s q := by
  rw [invalPos_eq]
  split
  · exact tagBits_invalReady ..
  · rw [tagBits_tagPutBits_ne _ _ h, tagBits_invalReady]

theorem tagBits_invalPos_self {s : State} {p : Nat} (f : ProbeFor) (hp : p < s.cch.known) : tagBits (invalPos s p f) p = 0 := by
  have hk : (invalReady s p f).cch.known = s.cch.known := by
    unfold invalReady
    refine (cancelFills_ext _ ?_).known
    exact ite_ext (queueProbe_ext _ _ _ (Ext.refl s)) (Ext.refl s)
  rw [invalPos_eq]
  split
  · assumption
  · rw [tagBits_tagPutBits _ (hk.symm ▸ hp), if_pos rfl]

/-! ### The walk -/

/-- The position holds no codeblock that `r` selects. -/
def Cleared (r : Nat → Bool) (s : State) (p : Nat) : Prop := valid (tagAt s p) = true → r (cbAtPos s p) = false

theorem Cleared.congr {r : Nat → Bool} {s t : State} {p : Nat} (h : Cleared r s p) (hr : t.cfg.regs = s.cfg.regs)
    (hb : tagBits t p = tagBits s p) : Cleared r t p := by
  have ht : tagAt t p = tagAt s p := congrArg tagFields hb
  have hcb : cbAtPos t p = cbAtPos s p := by
    simp only [cbAtPos, cbOfTag, sets, logSets, ways, logWays, sizeCode, reg, hr, ht]
  rwa [Cleared, ht, hcb]

section
variable (r : Nat → Bool) (f : ProbeFor)

/-- A position is passed over, invalidated, or waits for room. -/
theorem walkPos_cases (a : Walk) (p : Nat) :
    (walkPos r f a p = a ∧ (a.room = true → (posBlock a.st p).filter r = none)) ∨
    ((walkPos r f a p).st = invalPos a.st p f ∧ a.room = true) ∨
    ((walkPos r f a p).st = a.st ∧ (walkPos r f a p).room = false) := by
  unfold walkPos
  split
  · next hroom _ =>
    split
    · refine .inr (.inl ?_)
      dsimp only
      exact ⟨rfl, hroom⟩
    · exact .inr (.inr ⟨rfl, rfl⟩)
  · next hno =>
    exact .inl ⟨rfl, fun hroom => Option.eq_none_iff_forall_not_mem.2 fun cb hcb => hno cb hroom hcb⟩

theorem walkPos_room {a : Walk} {p : Nat} (h : (walkPos r f a p).room = true) : a.room = true := by
  rcases walkPos_cases r f a p with ⟨he, -⟩ | ⟨-, hroom⟩ | ⟨-, hno⟩
  · rwa [he] at h
  · exact hroom
  · exact absurd h (ne_true_of_eq_false hno)

theorem walkPos_ext {s : State} {a : Walk} (p : Nat) (h : Ext s a.st) : Ext s (walkPos r f a p).st := by
  rcases walkPos_cases r f a p with ⟨he, -⟩ | ⟨he, -⟩ | ⟨he, -⟩
  · rwa [he]
  · rw [he]
    exact invalPos_ext _ _ h
  · rwa [he]

theorem walkPos_eng (a : Walk) (p : Nat) : (walkPos r f a p).st.eng = a.st.eng := by
  rcases walkPos_cases r f a p with ⟨he, -⟩ | ⟨he, -⟩ | ⟨he, -⟩
  · rw [he]
  · rw [he, invalPos_eng]
  · rw [he]

theorem tagBits_walkPos_ne (a : Walk) {p q : Nat} (h : p ≠ q) : tagBits (walkPos r f a p).st q = tagBits a.st q := by
  rcases walkPos_cases r f a p with ⟨he, -⟩ | ⟨he, -⟩ | ⟨he, -⟩
  · rw [he]
  · rw [he, tagBits_invalPos_ne _ _ h]
  · rw [he]

/-- A position dealt with is cleared: it was not selected, or it is all zeros. -/
theorem walkPos_clears {a : Walk} {p : Nat} (hp : p < a.st.cch.known) (h : (walkPos r f a p).room = true) :
    Cleared r (walkPos r f a p).st p := by
  rcases walkPos_cases r f a p with ⟨he, hnone⟩ | ⟨he, -⟩ | ⟨-, hno⟩
  · rw [he] at h ⊢
    intro hv
    have hcb : posBlock a.st p = some (cbAtPos a.st p) := if_pos hv
    simpa [hcb] using hnone h
  · rw [he]
    exact fun hv => absurd hv (ne_true_of_eq_false (not_valid_of_zero (tagBits_invalPos_self f hp)))
  · exact absurd h (ne_true_of_eq_false hno)

theorem foldl_walkPos_room (l : List Nat) {a : Walk} (h : (l.foldl (walkPos r f) a).room = true) : a.room = true := by
  induction l generalizing a with
  | nil => exact h
  | cons p l ih => exact walkPos_room r f (ih h)

theorem foldl_walkPos_ext (l : List Nat) (a : Walk) : Ext a.st (l.foldl (walkPos r f) a).st :=
  List.foldlRecOn (motive := fun b : Walk => Ext a.st b.st) l _ (Ext.refl _) fun _ h p _ => walkPos_ext r f p h

theorem foldl_walkPos_eng (l : List Nat) (a : Walk) : (l.foldl (walkPos r f) a).st.eng = a.st.eng :=
  List.foldlRecOn (motive := fun b : Walk => b.st.eng = a.st.eng) l _ rfl fun b h p _ => (walkPos_eng r f b p).trans h

theorem tagBits_foldl_walkPos (l : List Nat) (a : Walk) {q : Nat} (hq : q ∉ l) :
    tagBits (l.foldl (walkPos r f) a).st q = tagBits a.st q :=
  List.foldlRecOn (motive := fun b : Walk => tagBits b.st q = tagBits a.st q) l _ rfl fun b h _ hp =>
    (tagBits_walkPos_ne r f b (ne_of_mem_of_not_mem hp hq)).trans h

/-- With room for every probe, each position visited is cleared: a later one leaves it as it is. -/
theorem foldl_walkPos_clears (l : List Nat) {a : Walk} (hl : ∀ p ∈ l, p < a.st.cch.known)
    (h : (l.foldl (walkPos r f) a).room = true) : ∀ p ∈ l, Cleared r (l.foldl (walkPos r f) a).st p := by
  induction l generalizing a with
  | nil => simp
  | cons p l ih =>
    have hknown := (walkPos_ext r f p (Ext.refl a.st)).known
    have hl' : ∀ q ∈ l, q < (walkPos r f a p).st.cch.known := fun q hq => hknown ▸ hl q (List.mem_cons_of_mem _ hq)
    intro q hq
    by_cases hql : q ∈ l
    · exact ih hl' h q hql
    · obtain rfl : q = p := (List.mem_cons.1 hq).resolve_right hql
      have hroom := foldl_walkPos_room r f l h
      exact (walkPos_clears r f (hl q (List.mem_cons_self ..)) hroom).congr ((foldl_walkPos_ext r f l _).cfg Cfg.regs)
        (tagBits_foldl_walkPos r f l _ hql)

end

section
variable {s : State} {lo hi : Nat} {r : Nat → Bool} {f : ProbeFor}

theorem walk_ext : Ext s (walk s lo hi r f).st :=
  foldl_walkPos_ext r f (walkPositions s lo hi) { st := s, inval := 0, fills := 0, room := true }

theorem walk_eng : (walk s lo hi r f).st.eng = s.eng :=
  foldl_walkPos_eng r f (walkPositions s lo hi) { st := s, inval := 0, fills := 0, room := true }

theorem tagBits_walk_outside {p : Nat} (hp : p < lo ∨ hi ≤ p) : tagBits (walk s lo hi r f).st p = tagBits s p :=
  tagBits_foldl_walkPos _ _ _ _ fun hmem => by
    have := walkPositions_inside hmem
    omega

/-- A walk with room clears its positions: those it visits one by one, and the others hold nothing. -/
theorem walk_clears (hk : hi ≤ s.cch.known) (hroom : (walk s lo hi r f).room = true) {p : Nat} (hlo : lo ≤ p) (hhi : p < hi) :
    Cleared r (walk s lo hi r f).st p := by
  by_cases hmem : p ∈ walkPositions s lo hi
  · exact foldl_walkPos_clears r f _ (fun q hq => (walkPositions_inside hq).2.trans_le hk) hroom p hmem
  · have hb : tagBits (walk s lo hi r f).st p = tagBits s p := tagBits_foldl_walkPos _ _ _ _ hmem
    have hs : Cleared r s p := fun hv => absurd (mem_walkPositions_of_valid hlo hhi (hhi.trans_le hk) hv) hmem
    exact hs.congr (walk_ext.cfg Cfg.regs) hb

end

/-! ## REGION_DROP (09 R226; 10 R247) -/

/-- The command's walk has begun: its recent-write entries are cleared. -/
def dropBegun (s : State) (n : Nat) (x : Running) : State :=
  if x.begun then s else updRun (dropRecent s (x.addr, x.addr + x.len)) n fun x => { x with begun := true }

/-- The walk of its next `k` units. -/
def dropWalk (s : State) (n k : Nat) (x : Running) : Walk :=
  walk (dropBegun s n x) (64 * x.doneN) (64 * (x.doneN + k)) (fun cb => inPool (x.addr, x.addr + x.len) (cb * 512)) { ring := some n }

/-- The units of a walk with room, counted. -/
def dropCounted (w : Walk) (n k : Nat) : State :=
  updRun (addCount1 (addCount0 w.st n w.inval) n w.fills) n fun x => { x with issued := x.issued + k, doneN := x.doneN + k, stuckQt := 0 }

theorem dropCounted_cch (w : Walk) (n k : Nat) : (dropCounted w n k).cch = w.st.cch := rfl

theorem dropCounted_ext {a : State} {w : Walk} (n k : Nat) (h : Ext a w.st) : Ext a (dropCounted w n k) :=
  updRun_ext _ _ (updRun_ext _ _ (updRun_ext _ _ h))

theorem dropCounted_doneN {w : Walk} {n k : Nat} {y : Running} (h : getRun w.st n = some y) :
    (getRun (dropCounted w n k) n).map (·.doneN) = some (y.doneN + k) := by
  unfold dropCounted addCount1 addCount0
  rw [getRun_updRun_self _ (getRun_updRun_self _ (getRun_updRun_self _ h))]
  rfl

section
variable (s : State) (n k : Nat) (x : Running)

theorem dropBegun_cch : (dropBegun s n x).cch = s.cch := by
  unfold dropBegun
  split <;> rfl

theorem dropBegun_kept {a : State} (h : kept a s) : kept a (dropBegun s n x) := by
  unfold dropBegun
  split <;> exact h

theorem dropBegun_run (hr : getRun s n = some x) :
    getRun (dropBegun s n x) n = some { x with begun := true } := by
  unfold dropBegun
  split
  · next hb => rw [hr, ← hb]
  · have hd : getRun (dropRecent s (x.addr, x.addr + x.len)) n = some x := hr
    rw [getRun_updRun_self _ hd]

theorem dropBegun_recent (hb : x.begun = false) :
    ∀ e ∈ (dropBegun s n x).icb.recent, inPool (x.addr, x.addr + x.len) (e.1 * 512) = false := by
  rw [dropBegun, if_neg (ne_true_of_eq_false hb)]
  intro e he
  simpa using (List.mem_filter.1 he).2

theorem dropWalk_ext : Ext (dropBegun s n x) (dropWalk s n k x).st := walk_ext

theorem dropWalk_known : (dropWalk s n k x).st.cch.known = s.cch.known :=
  (dropWalk_ext s n k x).known.trans (congrArg Cch.known (dropBegun_cch s n x))

end

/-- Known tags and room for every probe: the step is its walk. -/
theorem dropStep_eq {s : State} {n k c : Nat} {x : Running} (hk : k = min c (32768 - x.doneN)) (h0 : k ≠ 0)
    (hknown : 64 * (x.doneN + k) ≤ s.cch.known) (hroom : (dropWalk s n k x).room = true) :
    dropStep s n c x = dropCounted (dropWalk s n k x) n k := by
  unfold dropStep
  extract_lets r k' s1 w s2
  have hk' : k' = k := hk.symm
  rw [if_neg (hk' ▸ h0)]
  have hw : w = dropWalk s n k x := by
    unfold w s1
    rw [hk']
    rfl
  have hs2 : s2.cch.known = s.cch.known := by
    unfold s2
    rw [hw]
    exact dropWalk_known s n k x
  have hdef : (w.room && decide (s2.cch.known < 64 * (x.doneN + k'))) = false := by
    rw [hs2, hk', decide_eq_false (Nat.not_lt.2 hknown), Bool.and_false]
  rw [hdef, if_neg Bool.false_ne_true]
  dsimp only
  rw [if_pos (hw ▸ hroom)]
  unfold s2
  rw [hw, hk']
  rfl

section
variable {s : State} {n k c : Nat} {x : Running} (hk : k = min c (32768 - x.doneN)) (h0 : k ≠ 0)
  (hknown : 64 * (x.doneN + k) ≤ s.cch.known) (hroom : (dropWalk s n k x).room = true)
include hk h0 hknown hroom

theorem dropStep_ext : Ext (dropBegun s n x) (dropStep s n c x) := by
  rw [dropStep_eq hk h0 hknown hroom]
  exact dropCounted_ext n k (dropWalk_ext s n k x)

theorem tagBits_dropStep (p : Nat) : tagBits (dropStep s n c x) p = tagBits (dropWalk s n k x).st p := by
  rw [dropStep_eq hk h0 hknown hroom]
  exact tagBits_of_cch (dropCounted_cch ..) p

theorem dropStep_clears {p : Nat} (hlo : 64 * x.doneN ≤ p) (hhi : p < 64 * (x.doneN + k)) :
    Cleared (fun cb => inPool (x.addr, x.addr + x.len) (cb * 512)) (dropStep s n c x) p := by
  have hknown' : 64 * (x.doneN + k) ≤ (dropBegun s n x).cch.known := by rwa [dropBegun_cch]
  have hregs : (dropStep s n c x).cfg.regs = (dropWalk s n k x).st.cfg.regs := by
    rw [dropStep_eq hk h0 hknown hroom]
    exact (dropCounted_ext n k (Ext.refl _)).cfg Cfg.regs
  exact (walk_clears hknown' hroom hlo hhi).congr hregs (tagBits_dropStep hk h0 hknown hroom p)

theorem tagBits_dropStep_outside {p : Nat} (hp : p < 64 * x.doneN ∨ 64 * (x.doneN + k) ≤ p) :
    tagBits (dropStep s n c x) p = tagBits s p := by
  rw [tagBits_dropStep hk h0 hknown hroom, dropWalk, tagBits_walk_outside hp]
  exact tagBits_of_cch (dropBegun_cch ..) p

theorem dropStep_doneN (hr : getRun s n = some x) : (getRun (dropStep s n c x) n).map (·.doneN) = some (x.doneN + k) := by
  have hrun : getRun (dropWalk s n k x).st n = some { x with begun := true } :=
    (getRun_congr walk_eng n).trans (dropBegun_run s n x hr)
  rw [dropStep_eq hk h0 hknown hroom]
  exact (dropCounted_doneN hrun).trans rfl

theorem dropStep_recent (hb : x.begun = false) :
    ∀ e ∈ (dropStep s n c x).icb.recent, inPool (x.addr, x.addr + x.len) (e.1 * 512) = false := by
  rw [(dropStep_ext hk h0 hknown hroom).icb]
  exact dropBegun_recent s n x hb

end

/-- Settles O43: NOP by its final entry (`finishRun_cents`), INVALIDATE_ALL by the tags its units write (`invStep_eq`), and REGION_DROP by
its walk, which clears every position that it covers (`walk_clears`). -/
theorem tagWalkCommands : Obligations.TagWalkCommands := by
  refine ⟨fun s n x hs _ hd => ?_, fun s z n x units c k hs _ hd hlt ht hc hk hknown hroom => ?_,
    fun s z n x units c k hs _ hd hlt ht hc hk hknown hroom => ?_⟩
  · have hx := settle_extends (finishRun s n x 0)
    have hf := (finishRun_ext n.val x 0 (Ext.refl s)).kept
    have hcents := hx.cents
    rw [finishRun_cents s x n.isLt] at hcents
    exact ⟨_, exec_nop hs hd, hx.keeps hf, hx, doneEntry s n x, hcents, rfl, rfl, rfl, rfl, rfl, rfl, rfl⟩
  · obtain ⟨hcch, heng, hkept, hfree, hprobe⟩ := turn_frame ht
    have hrun : getRun z n = some x := (getRun_congr heng n).trans (getRun_of_stepDue hd).1
    have h0 : k ≠ 0 := by omega
    have hknown' : 64 * x.doneN ≤ z.cch.known := hcch ▸ hknown
    have hroom' : x.doneN + k = 32768 → probeRoom z (attachedAgents z) = true := fun hl => hfree.trans (hroom hl)
    have hx := settle_extends (invStep z n c x)
    refine ⟨_, exec_invalidateAll hs hd ht hc, hx.keeps (invStep_kept hk h0 hroom' hkept), hx, fun p hlo hhi => ?_, fun p hp => ?_,
      fun p hp => ?_, invStep_doneN hk h0 hroom' hrun, ?_, fun hl a ha hp => ?_⟩
    · rw [tagBits_invStep hk h0 hroom', tagBits_zeroTags_inside hknown' hlo hhi]
    · rw [tagBits_invStep hk h0 hroom', tagBits_zeroTags_outside hknown' (.inl hp), tagBits_of_cch hcch]
    · rw [tagBits_invStep hk h0 hroom', tagBits_zeroTags_outside hknown' (.inr hp), tagBits_of_cch hcch]
    · rw [invStep_cch hk h0 hroom', hcch]
    · obtain ⟨y, hy, hfields⟩ := invStep_probes hk h0 hroom' hl ha ((hprobe a).trans hp)
      exact ⟨y, hx.probes.subset hy, hfields⟩
  · obtain ⟨hcch, heng, hkept, -⟩ := turn_frame ht
    have hrun : getRun z n = some x := (getRun_congr heng n).trans (getRun_of_stepDue hd).1
    have h0 : k ≠ 0 := by omega
    have hknown' : 64 * (x.doneN + k) ≤ z.cch.known := hcch ▸ hknown
    have hx := settle_extends (dropStep z n c x)
    have hkeeps := (dropStep_ext hk h0 hknown' hroom).keeps (dropBegun_kept z n x hkept)
    refine ⟨_, exec_regionDrop hs hd ht hc, hx.keeps hkeeps, hx, fun p hlo hhi => dropStep_clears hk h0 hknown' hroom hlo hhi,
      fun p hp => ?_, dropStep_doneN hk h0 hknown' hroom hrun, dropStep_recent hk h0 hknown' hroom⟩
    rw [tagBits_dropStep_outside hk h0 hknown' hroom hp, tagBits_of_cch hcch]

end Sys2Proof.Machine

/-! SUPPORT. Proofs of the statements of `06_misses_replacement_locking.md`: the lookup pipeline's turns, the order in which miss handlers are
given, fill installs, prefetch candidates, and the commands that preload and lock. -/

namespace Sys2Proof.Machine
set_option Elab.async false

/-! ## Turns of the lookup pipeline (08 R196, R197) -/

theorem oldest_of_rank {s : State} {r : Rank} (h : oldest (((readyOps s).map (·.2)).filter (·.rank == r.rank)) r = true) :
    ∀ x ∈ readyOps s, x.2.rank = r.rank → r.age ≤ x.2.age := fun x hx hr =>
  of_decide_eq_true (List.all_eq_true.1 h x.2 (List.mem_filter.2 ⟨List.mem_map.2 ⟨x, hx, rfl⟩, beq_iff_eq.2 hr⟩))

/-- An operation that is taken is ready, gets no more cycles than it asks for, and ranks with or before every other ready one, unless it is
the wake walk; at ranks 1 and 2 it is the oldest. -/
theorem turn_takes {s z : State} {o : PipeOp} {k n : Nat} (h : turn s o k = some (z, n)) :
    n ≤ k ∧ opReady s o = true ∧ ((opRank s o).rank ≠ 15 → ∀ x ∈ readyOps s, (opRank s o).rank ≤ x.2.rank) ∧
      ((opRank s o).rank = 10 ∨ (opRank s o).rank = 20 →
        ∀ x ∈ readyOps s, x.2.rank = (opRank s o).rank → (opRank s o).age ≤ x.2.age) := by
  unfold turn at h
  extract_lets l r took at h
  have hr : opRank s o = r := rfl
  split at h
  · cases h
  next hdue =>
  have hready : opReady s o = true := by
    simp only [Bool.or_eq_true, Bool.not_eq_true', not_or, Bool.not_eq_false] at hdue
    exact hdue.2
  rw [hr]
  split at h
  · obtain ⟨hwalk, h⟩ := Option.ite_none_right_eq_some.1 h
    have h15 : r.rank = 15 := by simpa using (Bool.and_eq_true_iff.1 hwalk).1
    cases h
    exact ⟨min_le_left .., hready, fun hne => absurd h15 hne, fun h => by omega⟩
  next hnone =>
  have hfirst : ∀ x ∈ readyOps s, r.rank ≤ x.2.rank := fun x hx => by
    by_contra hlt
    exact hnone (List.any_eq_true.2 ⟨x.2, List.mem_map.2 ⟨x, hx, rfl⟩, decide_eq_true (Nat.lt_of_not_le hlt)⟩)
  have counted (ho : oldest (l.filter (·.rank == r.rank)) r = true) (hn : n ≤ k) : n ≤ k ∧ opReady s o = true ∧
      (r.rank ≠ 15 → ∀ x ∈ readyOps s, r.rank ≤ x.2.rank) ∧
      (r.rank = 10 ∨ r.rank = 20 → ∀ x ∈ readyOps s, x.2.rank = r.rank → r.age ≤ x.2.age) :=
    ⟨hn, hready, fun _ => hfirst, fun _ => oldest_of_rank ho⟩
  have other (h10 : r.rank ≠ 10) (h20 : r.rank ≠ 20) (hn : n ≤ k) : n ≤ k ∧ opReady s o = true ∧
      (r.rank ≠ 15 → ∀ x ∈ readyOps s, r.rank ≤ x.2.rank) ∧
      (r.rank = 10 ∨ r.rank = 20 → ∀ x ∈ readyOps s, x.2.rank = r.rank → r.age ≤ x.2.age) :=
    ⟨hn, hready, fun _ => hfirst, fun h => absurd h (not_or.2 ⟨h10, h20⟩)⟩
  split at h
  next h10 =>
    obtain ⟨ho, h⟩ := Option.ite_none_right_eq_some.1 h
    cases h
    exact counted ho le_rfl
  next h20 =>
    obtain ⟨ho, h⟩ := Option.ite_none_right_eq_some.1 h
    cases h
    exact counted ho le_rfl
  next h40 =>
    obtain ⟨-, rfl⟩ := Prod.mk.inj (Option.some.inj h)
    exact other (by omega) (by omega) (min_le_left ..)
  next h50 =>
    split at h
    · obtain ⟨-, h⟩ := Option.ite_none_right_eq_some.1 h
      cases h
      refine other (by omega) (by omega) ?_
      split
      · exact le_rfl
      · exact min_le_left ..
    · cases h
  next h10 h20 _ _ =>
    cases h
    exact other h10 h20 le_rfl

/-- The row of a pipeline operation that is taken. -/
theorem pipeRow_of_turn {s z : State} {o : PipeOp} {k n : Nat} {perr : Bool} (hs : s.up) (ht : turn s o k = some (z, n)) :
    guarded s (fun s => when s (isOn s) fun s => pipeRow s o k perr) = .next (settle (opRun z n perr o)) := by
  have hon : isOn s = true := beq_iff_eq.2 hs.2
  rw [guarded_of_defined hs.1, when, if_pos hon, pipeRow, ht]

/-! ## What a lookup does not see

The choice of a victim and the room for its probes do not depend on the tick, the engine and the live counts, which taking a turn and
admitting a unit change. -/

/-- `s` with another tick, another engine and other live counts. -/
def beside (q : Qtk) (e : Eng) (l : List (Nat × BitVec 64)) (s : State) : State :=
  { s with qtk := q, eng := e, cfg := { s.cfg with live := l } }

section
variable (q : Qtk) (e : Eng) (l : List (Nat × BitVec 64)) (s : State)

theorem tagPut_beside (p : Nat) (t : TagEntry) : tagPut (beside q e l s) p t = beside q e l (tagPut s p t) := by
  unfold tagPut tagPutBits
  rw [apply_ite (beside q e l)]
  rfl

theorem ageRounds_beside (i n : Nat) (ws : List Nat) :
    ageRounds (beside q e l s) i ws n = Prod.map (beside q e l) id (ageRounds s i ws n) := by
  induction n generalizing s with
  | zero => rfl
  | succ n ih =>
    have hfind : (ws.find? fun w => (tagAt (beside q e l s) (posOf (beside q e l s) i w)).age == 3) =
        ws.find? fun w => (tagAt s (posOf s i w)).age == 3 := rfl
    simp only [ageRounds, hfind]
    split
    · rfl
    · rw [← ih]
      refine congrArg (fun x => ageRounds x i ws n) (List.foldl_hom (beside q e l) ?_)
      exact fun x w => tagPut_beside q e l x _ _

theorem victim_beside (i : Nat) (protect : Bool) (mask : Option (BitVec 16)) :
    victim (beside q e l s) i protect mask = Prod.map (beside q e l) id (victim s i protect mask) := by
  have hways : victimWays (beside q e l s) i mask = victimWays s i mask := rfl
  have hfree : ((victimWays s i mask).find? fun w => !valid (tagAt (beside q e l s) (posOf (beside q e l s) i w))) =
      (victimWays s i mask).find? fun w => !valid (tagAt s (posOf s i w)) := rfl
  unfold victim
  simp only [hways, hfree, ageRounds_beside]
  split
  · rfl
  · split
    · rfl
    · rfl

theorem fillRoom_beside (cb : Nat) (protect : Bool) (mask : Option (BitVec 16)) :
    fillRoom (beside q e l s) cb protect mask = fillRoom s cb protect mask := by
  have hset : setOf (beside q e l s) cb = setOf s cb := rfl
  simp only [fillRoom, hset, victim_beside]
  rcases victim s (setOf s cb) protect mask with ⟨x, _ | w⟩ <;> rfl

theorem decodeReq_beside (who : Nat) (c : ReqCmd) (mark : Mark) (a : BitVec 48) (len : Nat) (m : SectorMask) :
    decodeReq (beside q e l s) who c mark a len m = decodeReq s who c mark a len m := rfl

theorem unitBlock_beside (x : Running) (u : Nat) : unitBlock (beside q e l s) x u = unitBlock s x u := by
  simp only [unitBlock, engDecode, decodeReq_beside]

theorem candidateWaits_beside (c : Candidate) : candidateWaits (beside q s.eng l s) c = candidateWaits s c := by
  rw [candidateWaits, fillRoom_beside]
  rfl

end

/-! ## The order in which miss handlers are given (06 R133, R134) -/

theorem not_handlerBusy_of_reserved {s : State} {i : Nat} (h : i ∈ freeReserved s) : handlerBusy s i = false ∧ i < 8 := by
  obtain ⟨hr, hb⟩ := List.mem_filter.1 h
  exact ⟨by simpa using hb, List.mem_range.1 hr⟩

theorem not_handlerBusy_of_shared {s : State} {i : Nat} (h : i ∈ freeShared s) : handlerBusy s i = false ∧ 8 ≤ i ∧ i < 64 := by
  obtain ⟨hm, hb⟩ := List.mem_filter.1 h
  obtain ⟨j, hj, rfl⟩ := List.mem_map.1 hm
  have := List.mem_range.1 hj
  exact ⟨by simpa using hb, by omega, by omega⟩

/-- The free miss handlers, the reserved ones first. -/
def freeHandlers (s : State) : List Nat := freeReserved s ++ freeShared s

theorem nodup_freeHandlers (s : State) : (freeHandlers s).Nodup := by
  have hres : (freeReserved s).Nodup := List.nodup_range.filter _
  have hshared : (freeShared s).Nodup := (List.nodup_range.map fun _ _ h => Nat.add_right_cancel h).filter _
  refine hres.append hshared fun i hi hj => ?_
  have h8 := (not_handlerBusy_of_reserved hi).2
  have h64 := (not_handlerBusy_of_shared hj).2.1
  omega

/-- How many waiting operations counted as class 0 are older. -/
def countedBefore (s : State) (age : Nat) : Nat := ((handlerWaits s).filter fun x => x.counted && decide (x.age < age)).length

/-- The place among the free handlers of the one that a waiting operation may take: one counted as class 0 takes the next that older ones
leave; the others the next shared one that all those, and older ones of their own, leave. -/
def handlerPlace (s : State) (w : HWait) : Nat :=
  if w.counted then countedBefore s w.age
  else (freeReserved s).length + (((handlerWaits s).filter (·.counted)).length - (freeReserved s).length +
    ((handlerWaits s).filter fun x => !x.counted && decide (x.age < w.age)).length)

theorem handlerInTurn_eq (s : State) (w : HWait) : handlerInTurn s w = (freeHandlers s)[handlerPlace s w]? := by
  unfold handlerInTurn handlerPlace freeHandlers countedBefore
  cases w.counted with
  | true => simp [← List.drop_append, List.head?_drop]
  | false => simp [List.head?_drop, List.getElem?_append_right]

/-- A condition that some element of a longer selection fails selects fewer. -/
theorem length_filter_lt {α : Type} {l : List α} {p q : α → Bool} {x : α} (hpq : ∀ y, p y = true → q y = true) (hx : x ∈ l)
    (hq : q x = true) (hp : p x = false) : (l.filter p).length < (l.filter q).length := by
  have hf : l.filter p = (l.filter q).filter p := by
    rw [List.filter_filter]
    refine List.filter_congr fun y _ => ?_
    cases hy : p y with
    | true => simp [hpq y hy]
    | false => simp
  rw [hf, List.length_filter_lt_length_iff_exists]
  exact ⟨x, List.mem_filter.2 ⟨hx, hq⟩, by simp [hp]⟩

/-- Before another in R134's order, an operation has an earlier place: those that may take a reserved handler, then by age. -/
theorem handlerPlace_lt {s : State} {q r : HWait} (hq : q ∈ handlerWaits s)
    (h : (q.counted = true ∧ r.counted = false) ∨ (q.counted = r.counted ∧ q.age < r.age)) : handlerPlace s q < handlerPlace s r := by
  unfold handlerPlace
  rcases h with ⟨hqc, hrc⟩ | ⟨hc, hage⟩
  · have hlt : countedBefore s q.age < ((handlerWaits s).filter (·.counted)).length :=
      length_filter_lt (fun y hy => (Bool.and_eq_true_iff.1 hy).1) hq hqc (by simp)
    rw [if_pos hqc, if_neg (ne_true_of_eq_false hrc)]
    omega
  · cases hqc : q.counted with
    | true =>
      have hlt : countedBefore s q.age < countedBefore s r.age := by
        refine length_filter_lt (fun y hy => ?_) hq (by simp [hqc, hage]) (by simp)
        simp only [Bool.and_eq_true, decide_eq_true_eq] at hy ⊢
        exact ⟨hy.1, hy.2.trans hage⟩
      rw [← hc, hqc]
      exact hlt
    | false =>
      have hlt : ((handlerWaits s).filter fun x => !x.counted && decide (x.age < q.age)).length <
          ((handlerWaits s).filter fun x => !x.counted && decide (x.age < r.age)).length := by
        refine length_filter_lt (fun y hy => ?_) hq (by simp [hqc, hage]) (by simp)
        simp only [Bool.and_eq_true, decide_eq_true_eq] at hy ⊢
        exact ⟨hy.1, hy.2.trans hage⟩
      rw [← hc, hqc]
      simp only [Bool.false_eq_true, if_false]
      omega

/-- Enough handlers are left for every operation before one that may take one. -/
theorem handlerInTurn_leaves {s : State} {q r : HWait} {i : Nat} (hr : handlerInTurn s r = some i)
    (h : handlerPlace s q < handlerPlace s r) : ∃ j, handlerInTurn s q = some j ∧ j ≠ i := by
  rw [handlerInTurn_eq] at hr ⊢
  obtain ⟨hlt, rfl⟩ := List.getElem?_eq_some_iff.1 hr
  refine ⟨_, List.getElem?_eq_getElem (h.trans hlt), fun he => ?_⟩
  exact absurd ((nodup_freeHandlers s).getElem_inj_iff.1 he) h.ne

theorem handlerInTurn_free {s : State} {w : HWait} {i : Nat} (h : handlerInTurn s w = some i) :
    handlerBusy s i = false ∧ i < 64 ∧ (w.counted = false → 8 ≤ i) := by
  rw [handlerInTurn_eq] at h
  have hmem : i ∈ freeReserved s ∨ i ∈ freeShared s := List.mem_append.1 (List.mem_of_getElem? h)
  have hbusy : handlerBusy s i = false ∧ i < 64 := by
    rcases hmem with hi | hi
    · obtain ⟨hb, h8⟩ := not_handlerBusy_of_reserved hi
      exact ⟨hb, by omega⟩
    · obtain ⟨hb, -, h64⟩ := not_handlerBusy_of_shared hi
      exact ⟨hb, h64⟩
  refine ⟨hbusy.1, hbusy.2, fun hc => ?_⟩
  have hplace : (freeReserved s).length ≤ handlerPlace s w := by
    rw [handlerPlace, if_neg (ne_true_of_eq_false hc)]
    exact Nat.le_add_right ..
  rw [freeHandlers, List.getElem?_append_right hplace] at h
  exact (not_handlerBusy_of_shared (List.mem_of_getElem? h)).2.1

/-- A request as it waits for a handler. -/
def reqWait (r : Req) : HWait := { age := reqAge r.id, counted := takesReserved r }

theorem reqWait_mem {s : State} {q : Req} (hq : q ∈ s.bus.reqs) (hp : q.phase = .handler) : reqWait q ∈ handlerWaits s :=
  List.mem_append_left _ (List.mem_filterMap.2 ⟨q, hq, if_pos (beq_iff_eq.2 hp)⟩)

theorem handlerFor_waits {s : State} {w : Waiter} {i : Nat} (h : handlerFor s = some (w, i)) :
    ∃ a, (w, a) ∈ waiters s ∧ handlerInTurn s a = some i := by
  obtain ⟨⟨v, a⟩, hmem, hv⟩ := List.exists_of_findSome?_eq_some h
  obtain ⟨j, hj, he⟩ := Option.map_eq_some_iff.1 hv
  cases he
  exact ⟨a, hmem, hj⟩

theorem mem_waiters_req {s : State} {r : Req} {a : HWait} (h : (Waiter.req r, a) ∈ waiters s) :
    r ∈ s.bus.reqs ∧ r.phase = .handler ∧ a = reqWait r := by
  rcases List.mem_append.1 h with h | h
  · obtain ⟨q, hq, hw⟩ := List.mem_filterMap.1 h
    obtain ⟨hp, he⟩ := Option.ite_none_right_eq_some.1 hw
    cases he
    exact ⟨hq, beq_iff_eq.1 hp, rfl⟩
  · obtain ⟨m, -, hm⟩ := List.mem_flatMap.1 h
    split at hm
    · obtain ⟨w, -, hw⟩ := List.mem_filterMap.1 hm
      obtain ⟨t, -, he⟩ := Option.map_eq_some_iff.1 hw
      cases he
    · cases hm

theorem mem_waiters_unit {s : State} {m : Nat} {x : Running} {w : UnitWait} {a : HWait} (h : (Waiter.unit m x w, a) ∈ waiters s) :
    getRun s m = some x ∧ w ∈ x.waiting := by
  rcases List.mem_append.1 h with h | h
  · obtain ⟨q, -, hw⟩ := List.mem_filterMap.1 h
    obtain ⟨-, he⟩ := Option.ite_none_right_eq_some.1 hw
    cases he
  · obtain ⟨n, -, hm⟩ := List.mem_flatMap.1 h
    split at hm
    · next y hy =>
      obtain ⟨v, hv, hw⟩ := List.mem_filterMap.1 hm
      obtain ⟨t, -, he⟩ := Option.map_eq_some_iff.1 hw
      cases he
      exact ⟨hy, hv⟩
    · cases hm

/-- A request that takes a handler leaves enough for every request before it. -/
theorem handlerFor_leaves {s : State} {q r : Req} {i : Nat} (h : handlerFor s = some (.req r, i)) (hq : q ∈ s.bus.reqs)
    (hp : q.phase = .handler) (hb : (takesReserved q = true ∧ takesReserved r = false) ∨ (takesReserved q = takesReserved r ∧ q.id < r.id)) :
    ∃ j, handlerInTurn s (reqWait q) = some j ∧ j ≠ i := by
  obtain ⟨a, hmem, hi⟩ := handlerFor_waits h
  obtain ⟨-, -, rfl⟩ := mem_waiters_req hmem
  refine handlerInTurn_leaves hi (handlerPlace_lt (reqWait_mem hq hp) ?_)
  rcases hb with hb | ⟨hc, hid⟩
  · exact .inl hb
  · refine .inr ⟨hc, ?_⟩
    show 2 * q.id + 1 < 2 * r.id + 1
    omega

/-- What a request that takes a handler does with it. -/
def reqGrant (s : State) (r : Req) (i : Nat) : State := if r.queued then fetchPass s r (some i) else goRead s r (some i)

theorem reqGrant_ext (s : State) (r : Req) (i : Nat) : Ext s (reqGrant s r i) :=
  ite_ext (fetchPass_ext _ _ (Ext.refl s)) (goRead_ext _ _ (Ext.refl s))

section
variable {s z : State} {n i : Nat} (hs : s.up) (ht : turn s .reenter 1 = some (z, n))
include hs ht

theorem exec_missHandlerGrant : exec .missHandlerGrant s = .next (settle (grantHandler z)) := pipeRow_of_turn hs ht

theorem exec_missHandlerGrant_req {r : Req} (h : handlerFor s = some (.req r, i)) :
    exec .missHandlerGrant s = .next (settle (reqGrant z r i)) := by
  rw [exec_missHandlerGrant hs ht]
  obtain ⟨q, rfl⟩ := turn_eq ht
  have hf : handlerFor { s with qtk := q } = some (.req r, i) := h
  rw [grantHandler, hf]
  rfl

theorem exec_missHandlerGrant_unit {m : Nat} {x : Running} {w : UnitWait} (h : handlerFor s = some (.unit m x w, i)) :
    exec .missHandlerGrant s = .next (settle (grantUnit z m x w i)) := by
  rw [exec_missHandlerGrant hs ht]
  obtain ⟨q, rfl⟩ := turn_eq ht
  have hf : handlerFor { s with qtk := q } = some (.unit m x w, i) := h
  rw [grantHandler, hf]

end

/-! ## The install of a fill (06 R141) -/

section
variable {a s : State}

theorem answerRead_ext (r : Req) (x : Sector) (h : Ext a s) : Ext a (answerRead s r x) :=
  armWatch_ext _ (respond_ext _ _ _ _ (updReq_ext _ _ (fun _ => rfl) (fun _ => rfl) h))

theorem handTo_ext (b : Block) (id : Nat) (h : Ext a s) : Ext a (handTo b 0 s id) := by
  unfold handTo
  split
  · exact h
  · exact answerRead_ext _ _ h

theorem dropHandler_ext (i : Nat) (h : Ext a s) : Ext a (dropHandler s i) := { h with }

theorem installEnd_ext (g : Handler) (b : Block) (h : Ext a s) : Ext a (installEnd s g b) := by
  have hh : Ext a (handAll s g b 0) := foldl_ext _ _ (fun _ _ h => handTo_ext b _ h) (dropHandler_ext _ h)
  exact foldl_ext _ _ (fun _ _ h => unitDone_ext _ h) hh

theorem installFill_ext (g : Handler) (b : Block) (h : Ext a s) : Ext a (installFill s g b) := by
  unfold installFill
  split
  · exact installEnd_ext _ _ h
  · dsimp only
    refine ite_ext (ite_ext ?_ ?_) ?_
    · exact installEnd_ext _ _ (addRuns_ext _ _ _ _ _ _ _ (tagPut_ext _ _ h))
    · exact installEnd_ext _ _ h
    · exact installEnd_ext _ _ (addAcc_ext _ _ _ _ _ _ _ (tagPut_ext _ _ h))

end

section
variable (s : State)

/-- An answer to a read changes requests, responses and watch arms. -/
theorem answerRead_eq (r : Req) (x : Sector) : ∃ b w, answerRead s r x = { s with bus := b, wrb := w } := by
  unfold answerRead
  extract_lets f y t
  obtain ⟨l, m, h⟩ := respond_eq t r.id .ok (dataBeats r y) (if isNormal r then some (reqCb r) else none)
  rw [h, armWatch]
  split
  · exact ⟨_, _, rfl⟩
  · exact ⟨_, _, rfl⟩

theorem handTo_eq (b : Block) (id : Nat) : ∃ y w, handTo b 0 s id = { s with bus := y, wrb := w } := by
  unfold handTo
  split
  · exact ⟨_, _, rfl⟩
  · exact answerRead_eq ..

/-- Data handed out: the handler is released, and reads and command units go on. -/
theorem installEnd_eq (h : Handler) (b : Block) :
    ∃ y w e, installEnd s h b = { dropHandler s h.idx with bus := y, wrb := w, eng := e } := by
  obtain ⟨y, w, hh⟩ : ∃ y w, handAll s h b 0 = { dropHandler s h.idx with bus := y, wrb := w } := by
    refine List.foldlRecOn (motive := fun x : State => ∃ y w, x = { dropHandler s h.idx with bus := y, wrb := w }) _ _ ⟨_, _, rfl⟩ ?_
    rintro _ ⟨y, w, rfl⟩ id -
    obtain ⟨y', w', hto⟩ := handTo_eq { dropHandler s h.idx with bus := y, wrb := w } b id
    exact ⟨y', w', hto⟩
  rw [installEnd, hh]
  refine List.foldlRecOn (motive := fun x : State => ∃ y w e, x = { dropHandler s h.idx with bus := y, wrb := w, eng := e }) _ _
    ⟨y, w, _, rfl⟩ ?_
  rintro _ ⟨y, w, e, rfl⟩ u -
  exact ⟨y, w, _, rfl⟩

theorem installEnd_cch (h : Handler) (b : Block) : (installEnd s h b).cch = (dropHandler s h.idx).cch := by
  obtain ⟨y, w, e, he⟩ := installEnd_eq s h b
  rw [he]

theorem installEnd_csp (h : Handler) (b : Block) : (installEnd s h b).csp = s.csp := by
  obtain ⟨y, w, e, he⟩ := installEnd_eq s h b
  rw [he]
  rfl

end

section
variable {s : State} {h : Handler} {b : Block}

theorem overlaid_of_clean (hp : (overlay s h.cb h.later b).2 = false) : overlaid s h b 0 = (s, (overlay s h.cb h.later b).1, 0) := by
  simp [overlaid, hp]

/-- A fill that was cancelled, or meets a cache that is not enabled or not ready, installs nothing. -/
theorem install_of_dropped (hp : (overlay s h.cb h.later b).2 = false)
    (hd : h.cancelled = true ∨ s.cch.enabled = false ∨ s.csp.ready = false) :
    install s h b = installEnd s h (overlay s h.cb h.later b).1 := by
  have hcond : (h.cancelled || !s.cch.enabled || !s.csp.ready) = true := by
    rcases hd with hd | hd | hd <;> simp [hd]
  simp only [install, overlaid_of_clean hp]
  rw [if_neg (by simp), if_pos hcond]

theorem install_of_good (hp : (overlay s h.cb h.later b).2 = false) (hc : h.cancelled = false) (he : s.cch.enabled = true)
    (hr : s.csp.ready = true) (hb : badWays s h.cb = 0) : install s h b = installFill s h (overlay s h.cb h.later b).1 := by
  simp [install, overlaid_of_clean hp, hc, he, hr, hb]

/-- The tag entry that a fill of its own entry installs (06 R141). -/
def installedTag (s : State) (h : Handler) : TagEntry :=
  { tag := h.tagF, age := h.age, lock := false, c0 := h.c0, pres := presFor s h.reqs, svalid := 0xFF }

theorem installFill_of_new {p : Nat} (hk : h.kind = .demand ∨ h.kind = .prefetch) (hp : h.pos = some p) : installFill s h b =
    installEnd (addAcc (tagPut s p (installedTag s h)) (.install h.idx) p (List.range 8) b (BitVec.allOnes 512) h.counted h.cls) h b := by
  have hs : h.kind ≠ .sectorMiss := by rcases hk with hk | hk <;> rw [hk] <;> decide
  simp only [installFill, hp, if_neg hs]
  rfl

theorem not_mem_dropHandler {i : Nat} {g : Handler} (hg : g ∈ (dropHandler s i).cch.handlers) : g.idx ≠ i := by
  simpa using (List.mem_filter.1 hg).2

theorem tagPut_csp (p : Nat) (t : TagEntry) : (tagPut s p t).csp = s.csp := (apply_ite State.csp ..).trans (ite_self _)

end

/-- The access of a whole codeblock that an install hands to the Cache Store Port. -/
def installAcc (s : State) (h : Handler) (p : Nat) (x : Block) : Acc :=
  { id := s.csp.nextAcc, kind := .install h.idx, pos := p, sectors := List.range 8, data := x, mask := BitVec.allOnes 512,
    counted := h.counted, cls := h.cls, left := List.range 8, inRow := false, issued := false }

/-- A fill that installs an entry of its own writes all of it, and releases its handler. -/
theorem installFill_installs {s : State} {h : Handler} {p : Nat} (x : Block) (hk : h.kind = .demand ∨ h.kind = .prefetch)
    (hp : h.pos = some p) (hknown : p < s.cch.known) :
    tagBits (installFill s h x) p = tagWord (installedTag s h) ∧ (∀ g ∈ (installFill s h x).cch.handlers, g.idx ≠ h.idx) ∧
      (installFill s h x).csp.accs = s.csp.accs ++ [installAcc s h p x] := by
  rw [installFill_of_new hk hp]
  refine ⟨?_, fun g hg => ?_, ?_⟩
  · rw [tagBits_of_cch (installEnd_cch ..)]
    refine (tagBits_tagPutBits _ hknown p).trans (if_pos rfl)
  · rw [installEnd_cch] at hg
    exact not_mem_dropHandler hg
  · rw [installEnd_csp]
    show (tagPut s p (installedTag s h)).csp.accs ++ [installAcc (tagPut s p (installedTag s h)) h p x] = _
    rw [installAcc, tagPut_csp]
    rfl

section
variable {s z : State} {i : Fin 64} {n f : Nat} {h : Handler} {b : Block} (hs : s.up) (ht : turn s (.install i) 1 = some (z, n))
  (hg : getHandler s i = some h) (hd : h.data = some (b, f)) (hk : ∀ m u, h.kind ≠ .unit m u)
include hg hd hk

theorem installOp_of_data : installOp s i =
    if backBusy s h.cb || !installRoom s h then s else install (over2 s (.install i)) h b := by
  simp only [installOp, hg, hd]

include hs ht

/-- The install of a fill that the pipeline takes. -/
theorem exec_fillInstall : exec (.fillInstall i) s = .next (settle (install (over2 z (.install i)) h b)) := by
  obtain ⟨-, hready, -⟩ := turn_takes ht
  have hmoves : installOp s i ≠ s := of_decide_eq_true hready
  have hgo : ¬ (backBusy s h.cb || !installRoom s h) = true := fun hc =>
    hmoves ((installOp_of_data hg hd hk).trans (if_pos hc))
  have hrow : exec (.fillInstall i) s = .next (settle (installOp z i)) := pipeRow_of_turn hs ht
  obtain ⟨q, rfl⟩ := turn_eq ht
  rw [hrow, installOp_of_data (s := { s with qtk := q }) hg hd hk]
  exact congrArg (fun x => Host.Outcome.next (settle x)) (if_neg hgo)

end

/-! ## Prefetch candidates (06 R150) -/

/-- A candidate's lookup keeps the stored registers, the Vault and the clocks: it does what waiting work may do, and counts an issue. -/
theorem prefetch_kept (s : State) (c : Candidate) : kept s (prefetch s c) := by
  have refl : kept s s := (Ext.refl s).kept
  have dropped : kept s (count s cntPfDrop) := (count_ext mem_cntPfDrop (Ext.refl s)).kept
  unfold prefetch
  split
  · exact refl
  · cases lookup s c.cb 0xFF with
    | parErr bad => exact (tagParity_ext _ _ (Ext.refl s)).kept
    | filtered => exact refl
    | hit w => exact refl
    | smiss w => exact refl
    | miss =>
      dsimp only
      split
      · exact refl
      · cases pfHandler s with
        | none => exact dropped
        | some i =>
          dsimp only
          split
          · exact dropped
          · split
            · next t ht => exact (fillStart_ext _ _ (Ext.refl s) t ht).kept
            · exact refl

theorem prefetch_of_unfit {s : State} {c : Candidate} (h : candidateOk s c = false) : prefetch s c = s := by simp [prefetch, h]

theorem candidateOk_of_fails {s : State} {c : Candidate} (h : pfEn s = false ∨ s.cch.enabled = false ∨
    inPool (poolRange s c.region) (c.cb * 512) = false ∨ span s ≤ c.cb * 512 ∨ dataEnd s ≤ c.cb * 512) : candidateOk s c = false := by
  unfold candidateOk
  rcases h with h | h | h | h | h
  · simp [h]
  · simp [h]
  · simp [h]
  · simp [Nat.not_lt.2 h]
  · simp [Nat.not_lt.2 h]

/-- The oldest candidate has left the queue. -/
def candTaken (s : State) (l : List Candidate) : State := { s with cch := { s.cch with cands := l } }

section
variable {s z : State} {n : Nat} {c : Candidate} {l : List Candidate} (hs : s.up) (hc : s.cch.cands = c :: l)
  (ht : turn s .candidate 1 = some (z, n))
include hs hc ht

theorem exec_prefetchCandidate_closed (ho : prefetchOpen s = false) : exec .prefetchCandidate s = .next (settle (candTaken z l)) := by
  have hrow : exec .prefetchCandidate s = .next (settle (candidateOp z)) := pipeRow_of_turn hs ht
  obtain ⟨q, rfl⟩ := turn_eq ht
  have ho' : prefetchOpen { s with qtk := q } = false := ho
  rw [hrow]
  simp only [candidateOp, hc, ho']
  rfl

/-- A candidate whose turn it is does not wait. -/
theorem exec_prefetchCandidate_open (ho : prefetchOpen s = true) :
    exec .prefetchCandidate s = .next (settle (prefetch (candTaken z l) c)) := by
  obtain ⟨-, hready, -⟩ := turn_takes ht
  have hmoves : candidateOp s ≠ s := of_decide_eq_true hready
  have hgo : candidateWaits s c = false := by
    by_contra hw
    exact hmoves (by simp [candidateOp, hc, ho, hw])
  have hrow : exec .prefetchCandidate s = .next (settle (candidateOp z)) := pipeRow_of_turn hs ht
  obtain ⟨q, rfl⟩ := turn_eq ht
  have ho' : prefetchOpen { s with qtk := q } = true := ho
  have hgo' : candidateWaits { s with qtk := q } c = false := (candidateWaits_beside q s.cfg.live s c).trans hgo
  rw [hrow]
  simp only [candidateOp, hc, ho', hgo']
  rfl

end

/-- Settles O26: turns by `turn_takes`; the order of R134 by the places of the waiting operations among the free handlers
(`handlerPlace_lt`); an install by what it writes and releases (`installFill_installs`, `install_of_dropped`); a candidate by
`prefetch`, which leaves one that fails R150's checks. -/
theorem missHandlersAndFills : Obligations.MissHandlersAndFills := by
  refine ⟨fun s z o k n ht => ?_, ⟨fun s z r i n hs hf ht => ?_, fun s z m i n x w hs hf ht => ?_⟩,
    ⟨fun s z i n h b p hs _ ht hg hd hk hp hknown hc he hr hb hclean => ?_, fun s z i n h b hs ht hg hd hk hdrop hclean => ?_⟩,
    fun s z n c l hs hc ht hfail => ?_, fun s z n c l hs hc ht ho => ?_⟩
  · obtain ⟨hn, hready, hrank, hage⟩ := turn_takes ht
    obtain ⟨q, rfl⟩ := turn_eq ht
    exact ⟨rfl, hn, hready, hrank, hage⟩
  · obtain ⟨a, hmem, hi⟩ := handlerFor_waits hf
    obtain ⟨hr, hphase, rfl⟩ := mem_waiters_req hmem
    obtain ⟨hbusy, h64, hshared⟩ := handlerInTurn_free hi
    have hx := settle_extends (reqGrant z r i)
    have howed : owed z = owed s := by
      obtain ⟨q, rfl⟩ := turn_eq ht
      rfl
    exact ⟨⟨_, exec_missHandlerGrant_req hs ht hf, hx, (hx.owed.trans (reqGrant_ext z r i).owed).trans howed⟩, hr, hphase, hbusy, h64,
      fun hc => hshared (by simp [reqWait, takesReserved, hc]), fun q hq hp hb => handlerFor_leaves hf hq hp hb⟩
  · obtain ⟨a, hmem, hi⟩ := handlerFor_waits hf
    obtain ⟨hrun, hw⟩ := mem_waiters_unit hmem
    obtain ⟨hbusy, h64, -⟩ := handlerInTurn_free hi
    exact ⟨⟨_, exec_missHandlerGrant_unit hs ht hf, settle_extends _⟩, hbusy, h64, hrun, hw⟩
  · have hu : ∀ m u, h.kind ≠ .unit m u := by rcases hk with hk | hk <;> simp [hk]
    refine ⟨_, exec_fillInstall hs ht hg hd hu, ?_⟩
    obtain ⟨q, rfl⟩ := turn_eq ht
    have hfill : install (over2 { s with qtk := q } (.install i)) h b =
        installFill (over2 { s with qtk := q } (.install i)) h (overlay s h.cb h.later b).1 := install_of_good hclean hc he hr hb
    obtain ⟨htag, hhandlers, haccs⟩ := installFill_installs (s := over2 { s with qtk := q } (.install i)) (overlay s h.cb h.later b).1
      hk hp hknown
    have hx := settle_extends (install (over2 { s with qtk := q } (.install i)) h b)
    have hy : Ext (over2 { s with qtk := q } (.install i)) (install (over2 { s with qtk := q } (.install i)) h b) := by
      rw [hfill]
      exact installFill_ext _ _ (Ext.refl _)
    rw [← hfill] at htag hhandlers haccs
    refine ⟨⟨hx, htag, hhandlers⟩, ?_, (hx.cfg Cfg.regs).trans (hy.cfg Cfg.regs), hx.vlt.trans hy.vlt, hx.icb.trans hy.icb⟩
    have := hx.accs
    rwa [haccs] at this
  · have hu : ∀ m u, h.kind ≠ .unit m u := by rcases hk with hk | hk | hk <;> simp [hk]
    refine ⟨_, exec_fillInstall hs ht hg hd hu, ?_⟩
    obtain ⟨q, rfl⟩ := turn_eq ht
    have hend : install (over2 { s with qtk := q } (.install i)) h b =
        installEnd (over2 { s with qtk := q } (.install i)) h (overlay s h.cb h.later b).1 := install_of_dropped hclean hdrop
    have hx := settle_extends (install (over2 { s with qtk := q } (.install i)) h b)
    have hy : Ext (over2 { s with qtk := q } (.install i)) (install (over2 { s with qtk := q } (.install i)) h b) := by
      rw [hend]
      exact installEnd_ext _ _ (Ext.refl _)
    refine ⟨⟨hx, ?_, ?_⟩, (hx.cfg Cfg.regs).trans (hy.cfg Cfg.regs), hx.vlt.trans hy.vlt⟩
    · rw [hend, installEnd_cch]
      rfl
    · rw [hend, installEnd_csp]
      rfl
  · cases ho : prefetchOpen s with
    | false => exact ⟨_, exec_prefetchCandidate_closed hs hc ht ho, settle_extends _⟩
    | true =>
      refine ⟨_, exec_prefetchCandidate_open hs hc ht ho, ?_⟩
      have hunfit : candidateOk s c = false := candidateOk_of_fails (hfail.resolve_left (ne_false_of_eq_true ho))
      obtain ⟨q, rfl⟩ := turn_eq ht
      have hskip : prefetch (candTaken { s with qtk := q } l) c = candTaken { s with qtk := q } l := prefetch_of_unfit hunfit
      rw [hskip]
      exact settle_extends _
  · have hx := settle_extends (prefetch (candTaken z l) c)
    obtain ⟨q, rfl⟩ := turn_eq ht
    obtain ⟨hregs, hvlt, -⟩ := hx.keeps (prefetch_kept (candTaken { s with qtk := q } l) c)
    exact ⟨_, exec_prefetchCandidate_open hs hc ht ho, ⟨hx, hx.counts _ (by decide)⟩, hregs, hvlt⟩

/-! ## Units of PRELOAD, LOCK_WAYS and UNLOCK_WAYS (06 R153, R154; 09 R221)

### What a step does beyond its command -/

section
variable {a s : State}

theorem stopRun_ext (n st u : Nat) (h : Ext a s) : Ext a (stopRun s n st u) := updRun_ext _ _ h
theorem issueUnit_ext (n : Nat) (h : Ext a s) : Ext a (issueUnit s n) := updRun_ext _ _ h
theorem skipUnit_ext (n : Nat) (h : Ext a s) : Ext a (skipUnit s n) := unitDone_ext _ (updRun_ext _ _ h)
theorem wholeUnit_ext (n : Nat) (h : Ext a s) : Ext a (wholeUnit s n) := unitDone_ext _ (issueUnit_ext _ h)

/-- A step that may have to wait does what waiting work may do, if it acts. -/
def ActsExt (a : State) (o : Option State) : Prop := ∀ t, o = some t → Ext a t

theorem ActsExt.some (h : Ext a s) : ActsExt a (some s) := fun _ e => Option.some.inj e ▸ h
theorem ActsExt.none : ActsExt a none := fun _ e => nomatch e

theorem ActsExt.ite {c : Prop} [Decidable c] {x y : Option State} (hx : ActsExt a x) (hy : ActsExt a y) :
    ActsExt a (if c then x else y) := by
  split <;> assumption

theorem ActsExt.getD {o : Option State} (ho : ActsExt a o) (h : Ext a s) : Ext a (o.getD s) := by
  cases o with
  | none => exact h
  | some t => exact ho t rfl

theorem preloadFill_ext (n u cb : Nat) (attr : Reg32) (mask : Option (BitVec 16)) (counted again : Bool) (held : Option Nat)
    (h : Ext a s) : ActsExt a (preloadFill s n u cb attr mask counted again held) := by
  unfold preloadFill
  refine .ite .none fun t ht => withUnit_ext ht (fun s i h => ite_ext (stopRun_ext _ _ _ h) ?_) h
  dsimp only
  split
  · next hf => exact fillStart_ext _ _ h _ hf
  · exact skipUnit_ext _ h

theorem preloadSectors_ext (n u cb p : Nat) (attr : Reg32) (counted again : Bool) (held : Option Nat) (h : Ext a s) :
    ActsExt a (preloadSectors s n u cb p attr counted again held) := by
  unfold preloadSectors
  split
  · exact .some (updHandler_ext _ _ h)
  · exact fun t ht => withUnit_ext ht (fun s i h => ite_ext (stopRun_ext _ _ _ h) (readFor_ext _ h)) h

theorem preloadDecide_ext (n u : Nat) (x : Running) (attr : Reg32) (cb : Nat) (counted again : Bool) (held : Option Nat) (h : Ext a s) :
    ActsExt a (preloadDecide s n u x attr cb counted again held) := by
  have young (p : Nat) : Ext a (tagPut s p { tagAt s p with age := 0 }) := tagPut_ext _ _ h
  have refill (p : Nat) := preloadFill_ext n u cb attr (if x.wmask then some x.ways else none) counted again held
    (invalPos_ext p { ring := some n } h)
  unfold preloadDecide
  dsimp only
  refine .ite (.some (skipUnit_ext _ h)) (.ite .none ?_)
  cases lookup s cb 0xFF with
  | parErr bad => exact .some (tagParity_ext _ _ h)
  | filtered => exact .ite (.some (skipUnit_ext _ (dropFiltered_ext _ _ h))) .none
  | hit w => exact .ite (.some (unitDone_ext _ (young _))) (.ite .none (refill _))
  | smiss w => exact .ite (preloadSectors_ext _ _ _ _ _ _ _ _ (young _)) (.ite .none (refill _))
  | miss =>
    dsimp only
    split
    · exact .ite (.some (skipUnit_ext _ h)) (.some (updHandler_ext _ _ (unitWait_ext _ _ _ _ _ _ h)))
    · exact preloadFill_ext _ _ _ _ _ _ _ _ h

theorem preloadStep_ext (n : Nat) (x : Running) (h : Ext a s) : Ext a (preloadStep s n x) := by
  unfold preloadStep
  refine ite_ext h ?_
  split
  · exact stopRun_ext _ _ _ h
  · exact ite_ext ((preloadDecide_ext _ _ _ _ _ _ _ _ (admitUnit_ext _ _ _ h)).getD h)
      ((preloadDecide_ext _ _ _ _ _ _ _ _ (issueUnit_ext _ (admitUnit_ext _ _ _ h))).getD h)

theorem lockEntry_ext (n set p : Nat) (lock : Bool) (h : Ext a s) : Ext a (lockEntry s n set p lock) := by
  unfold lockEntry
  dsimp only
  exact ite_ext (wholeUnit_ext _ (tagPut_ext _ _ h)) (ite_ext (wholeUnit_ext _ h)
    (ite_ext (skipUnit_ext _ (issueUnit_ext _ h)) (wholeUnit_ext _ (tagPut_ext _ _ h))))

theorem lockStep_ext (n : Nat) (x : Running) (lock : Bool) (h : Ext a s) : Ext a (lockStep s n x lock) := by
  unfold lockStep
  refine ite_ext h ?_
  split
  · exact stopRun_ext _ _ _ h
  · next attr cb _ =>
    have ha : Ext a (admitUnit s n x.issued attr).1 := admitUnit_ext _ _ _ h
    have missed {t : State} (h : Ext a t) : Ext a (skipUnit (issueUnit t n) n) := skipUnit_ext _ (issueUnit_ext _ h)
    have found (w : Nat) : Ext a (if x.ways.getLsbD w then lockEntry (admitUnit s n x.issued attr).1 n (setOf s cb)
        (posOf s (setOf s cb) w) lock else skipUnit (issueUnit (admitUnit s n x.issued attr).1 n) n) :=
      ite_ext (lockEntry_ext _ _ _ _ ha) (missed ha)
    refine ite_ext (missed ha) (ite_ext h ?_)
    cases lookup s cb 0 with
    | parErr bad => exact tagParity_ext _ _ ha
    | filtered => exact ite_ext (missed (dropFiltered_ext _ _ ha)) h
    | hit w => exact found w
    | smiss w => exact found w
    | miss => exact missed ha

end

/-! ### A unit admitted and counted -/

theorem getRun_updRun (s : State) (n : Nat) (f : Running → Running) : getRun (updRun s n f) n = (getRun s n).map f := by
  by_cases h : n < s.eng.rings.length
  · rw [getRun, updRun, getRing_updRing_self _ h]
    rfl
  · have hl : (updRun s n f).eng.rings.length = s.eng.rings.length := length_updAt ..
    rw [getRun, getRun, getRing, getRing, List.getD_eq_default _ _ (Nat.le_of_not_lt h),
      List.getD_eq_default _ _ (hl.trans_le (Nat.le_of_not_lt h))]
    rfl

section
variable (s : State) (n : Nat)

theorem runTally_updRun (f : Running → Running) (g : _ → _) (hf : ∀ x, tally (f x) = g (tally x)) :
    runTally (updRun s n f) n = (runTally s n).map g := by
  rw [runTally, getRun_updRun, Option.map_map, runTally, Option.map_map]
  exact congrArg (Option.map · _) (funext hf)

theorem runTally_issueUnit : runTally (issueUnit s n) n = (runTally s n).map fun (i, d, c, c', st) => (i + 1, d, c, c', st) :=
  runTally_updRun s n _ _ fun _ => rfl

theorem runTally_unitDone : runTally (unitDone s n) n = (runTally s n).map fun (i, d, c, c', st) => (i, d + 1, c, c', st) :=
  runTally_updRun s n _ _ fun _ => rfl

theorem runTally_addCount0 : runTally (addCount0 s n 1) n = (runTally s n).map fun (i, d, c, c', st) => (i, d, c + 1, c', st) :=
  runTally_updRun s n _ _ fun _ => rfl

theorem runTally_skipUnit : runTally (skipUnit s n) n = (runTally s n).map fun (i, d, c, c', st) => (i, d + 1, c + 1, c', st) := by
  rw [skipUnit, runTally_unitDone, runTally_addCount0, Option.map_map]
  rfl

theorem runTally_wholeUnit : runTally (wholeUnit s n) n = (runTally s n).map fun (i, d, c, c', st) => (i + 1, d + 1, c, c', st) := by
  rw [wholeUnit, runTally_unitDone, runTally_issueUnit, Option.map_map]
  rfl

theorem runTally_congr {t : State} (h : t.eng = s.eng) : runTally t n = runTally s n := by rw [runTally, getRun_congr h, runTally]

theorem tagPut_eng (p : Nat) (t : TagEntry) : (tagPut s p t).eng = s.eng := tagPutBits_eng ..

/-- Admission changes the tick's budget and live counts, and that of a unit the engine too. -/
theorem admitClass_beside (k : Nat) : ∃ q l, (admitClass s k).1 = beside q s.eng l s := by
  obtain ⟨-, h⟩ | ⟨-, -, h⟩ | ⟨-, -, h⟩ := admitClass_cases s k <;> rw [h] <;> exact ⟨_, _, rfl⟩

theorem admitUnit_beside (u : Nat) (attr : Reg32) : ∃ q e l, (admitUnit s n u attr).1 = beside q e l s := by
  have same : ∃ q e l, s = beside q e l s := ⟨_, _, _, rfl⟩
  unfold admitUnit
  split
  · exact same
  · split
    · exact same
    · split
      · exact same
      · obtain ⟨q, l, h⟩ := admitClass_beside s 0
        dsimp only
        rw [h]
        exact ⟨_, _, _, rfl⟩

/-- A unit is recorded as admitted. -/
theorem admitUnit_run (u : Nat) (attr : Reg32) {x : Running} (hr : getRun s n = some x) :
    ∃ k c, getRun (admitUnit s n u attr).1 n = some { x with admitted := k, c0 := c } := by
  simp only [admitUnit, hr]
  split
  · exact ⟨_, _, hr⟩
  · split
    · exact ⟨_, _, hr⟩
    · obtain ⟨q, l, h⟩ := admitClass_beside s 0
      have ha : getRun (admitClass s 0).1 n = some x := by rw [h]; exact hr
      exact ⟨_, _, (getRun_updRun _ n _).trans ((congrArg (Option.map _) ha).trans rfl)⟩

/-- Unit `u` admitted and issued. -/
def issuedUnit (u : Nat) (attr : Reg32) : State := issueUnit (admitUnit s n u attr).1 n

theorem issuedUnit_beside (u : Nat) (attr : Reg32) : ∃ q e l, issuedUnit s n u attr = beside q e l s := by
  obtain ⟨q, e, l, h⟩ := admitUnit_beside s n u attr
  rw [issuedUnit, h]
  exact ⟨q, _, l, rfl⟩

variable {x : Running} (u : Nat) (attr : Reg32) (hr : getRun s n = some x) (hst : x.stop = none)
include hr hst

/-- A unit that stops its command. -/
theorem getRun_stopRun (st : Nat) : getRun (stopRun s n st u) n = some { x with stop := some (st, u) } := by
  rw [stopRun, getRun_updRun, hr, Option.map_some, hst]

theorem runTally_admitUnit :
    runTally (admitUnit s n u attr).1 n = some (x.issued, x.doneN, x.count0, x.count1, none) := by
  obtain ⟨k, c, h⟩ := admitUnit_run s n u attr hr
  rw [runTally, h, ← hst]
  rfl

theorem runTally_issuedUnit :
    runTally (issuedUnit s n u attr) n = some (x.issued + 1, x.doneN, x.count0, x.count1, none) := by
  rw [issuedUnit, runTally_issueUnit, runTally_admitUnit s n u attr hr hst]
  rfl

/-- A unit that is skipped. -/
theorem runTally_skipped :
    runTally (skipUnit (issuedUnit s n u attr) n) n = some (x.issued + 1, x.doneN + 1, x.count0 + 1, x.count1, none) := by
  rw [runTally_skipUnit, runTally_issuedUnit s n u attr hr hst]
  rfl

/-- A unit that writes a tag entry. -/
theorem runTally_entry (p : Nat) (t : TagEntry) :
    runTally (unitDone (tagPut (issuedUnit s n u attr) p t) n) n = some (x.issued + 1, x.doneN + 1, x.count0, x.count1, none) := by
  rw [runTally_unitDone, runTally_congr _ n (tagPut_eng ..), runTally_issuedUnit s n u attr hr hst]
  rfl

end

/-! ### The tag entry that a unit writes (05 R112) -/

/-- The stored word as the sum of its fields in their places, above two parity bits. -/
theorem tagWord_toNat (t : TagEntry) : ∃ par < 4, (tagWord t).toNat = 2 ^ 22 * t.tag.toNat + 2 ^ 20 * t.age.toNat + 2 ^ 19 * t.lock.toNat +
    2 ^ 18 * t.c0.toNat + 2 ^ 10 * t.pres.toNat + 4 * t.svalid.toNat + par := by
  have htag := t.tag.isLt
  have hage := t.age.isLt
  have hpres := t.pres.isLt
  have hsv := t.svalid.isLt
  have hlock := t.lock.toNat_lt
  have hc0 := t.c0.toNat_lt
  unfold tagWord
  extract_lets v ph pl
  have hph : ph = 0 ∨ ph = 2 := by unfold ph; split <;> simp
  have hpl : pl = 0 ∨ pl = 1 := by unfold pl; split <;> simp
  have hv : v = 2 ^ 22 * t.tag.toNat + 2 ^ 20 * t.age.toNat + 2 ^ 19 * t.lock.toNat + 2 ^ 18 * t.c0.toNat + 2 ^ 10 * t.pres.toNat +
      4 * t.svalid.toNat := by
    simp only [v, Nat.shiftLeft_eq]
    omega
  clear_value v ph pl
  refine ⟨ph + pl, by omega, ?_⟩
  rw [BitVec.toNat_ofNat]
  omega

theorem tagFields_tagWord (t : TagEntry) : tagFields (tagWord t) = t := by
  obtain ⟨par, hpar, h⟩ := tagWord_toNat t
  have htag := t.tag.isLt
  have hage := t.age.isLt
  have hpres := t.pres.isLt
  have hsv := t.svalid.isLt
  have hlock := t.lock.toNat_lt
  have hc0 := t.c0.toNat_lt
  have field {w : Nat} (lo : Nat) (x : BitVec w) (hx : (tagWord t).toNat / 2 ^ lo % 2 ^ w = x.toNat) :
      (tagWord t).extractLsb' lo w = x := by
    refine BitVec.eq_of_toNat_eq ?_
    rw [BitVec.extractLsb'_toNat, Nat.shiftRight_eq_div_pow, hx]
  have flagBit (i : Nat) (b : Bool) (hb : (tagWord t).toNat / 2 ^ i % 2 = b.toNat) : (tagWord t).getLsbD i = b := by
    rw [BitVec.getLsbD, Nat.testBit_eq_decide_div_mod_eq]
    exact decide_eq_of_toNat hb
  simp only [tagFields, field 22 t.tag (by omega), field 20 t.age (by omega), field 10 t.pres (by omega), field 2 t.svalid (by omega),
    flagBit 19 t.lock (by omega), flagBit 18 t.c0 (by omega)]

theorem tagAt_tagPut {s : State} {p : Nat} (t : TagEntry) (hp : p < s.cch.known) : tagAt (tagPut s p t) p = t := by
  rw [tagAt, tagPut, tagBits_tagPutBits _ hp, if_pos rfl, tagFields_tagWord]

/-! ### Handlers that a unit may take (06 R133; 09 R220) -/

/-- An update of a ring's command that leaves what waits leaves its waiting units. -/
theorem unitWaits_updRun (s : State) (n m : Nat) {f : Running → Running} (hw : ∀ x, (f x).waiting = x.waiting)
    (hc : ∀ x, (f x).c0 = x.c0) : unitWaits (updRun s n f) m = unitWaits s m := by
  by_cases h : n = m
  · subst h
    rw [unitWaits, getRun_updRun, unitWaits]
    cases getRun s n with
    | none => rfl
    | some x => simp only [Option.map_some, hw, hc]
  · rw [unitWaits, getRun, updRun, getRing_updRing_ne _ (Ne.symm h), unitWaits, getRun]

theorem unitWaits_issueUnit (s : State) (n m : Nat) : unitWaits (issueUnit s n) m = unitWaits s m :=
  unitWaits_updRun s n m (fun _ => rfl) fun _ => rfl

theorem pickHandler_issueUnit (s : State) (n : Nat) (counted : Bool) : pickHandler (issueUnit s n) counted = pickHandler s counted := by
  have hw : handlerWaits (issueUnit s n) = handlerWaits s := by
    have hu : unitWaits (issueUnit s n) = unitWaits s := funext (unitWaits_issueUnit s n)
    rw [handlerWaits, hu]
    rfl
  rw [pickHandler, hw]
  rfl

theorem unitWaits_ages {s : State} {n : Nat} {x : Running} (h : getRun s n = some x) :
    (unitWaits s n).map (·.age) = x.waiting.filterMap (·.age) := by
  simp [unitWaits, h, List.map_filterMap, Function.comp_def]

theorem unitHandlers_issuedUnit {s : State} {n : Nat} {x : Running} (u : Nat) (attr : Reg32) (hr : getRun s n = some x) :
    unitHandlers (issuedUnit s n u attr) n = unitHandlers s n := by
  have hlen : (unitWaits (issuedUnit s n u attr) n).length = (unitWaits s n).length := by
    obtain ⟨k, c, hrun⟩ := admitUnit_run s n u attr hr
    have hages : (unitWaits (issuedUnit s n u attr) n).map (·.age) = (unitWaits s n).map (·.age) := by
      rw [issuedUnit, unitWaits_issueUnit, unitWaits_ages hrun, unitWaits_ages hr]
    simpa using congrArg List.length hages
  obtain ⟨q, e, l, h⟩ := issuedUnit_beside s n u attr
  rw [unitHandlers, hlen, h]
  rfl

/-! ### The handler of a fill (06 R140) -/

/-- What the handlers are held for, and their codeblocks. -/
def handlerUses (s : State) : List (HKind × Nat) := s.cch.handlers.map fun h => (h.kind, h.cb)

theorem handlerUses_sendTlp (s : State) (t : Tlp) : handlerUses (sendTlp s t) = handlerUses s := by
  unfold sendTlp
  split <;> rfl

theorem handlerUses_captureWseq (s : State) (o : ReadOwner) : handlerUses (captureWseq s o) = handlerUses s := by
  unfold captureWseq
  split
  · exact map_updIf _ _ _ _ fun _ _ => rfl
  · rfl
  · rfl

theorem handlerUses_sendReads (k : Nat) (s : State) : handlerUses (sendReads k s) = handlerUses s := by
  induction k generalizing s with
  | zero => rfl
  | succ k ih =>
    unfold sendReads
    split
    · rfl
    · split
      · rfl
      · rw [ih, sendRead, handlerUses_sendTlp, handlerUses_captureWseq]
        rfl

theorem handlerUses_askRead (s : State) (o : ReadOwner) (addr bytes cls : Nat) :
    handlerUses (askRead s o addr bytes cls) = handlerUses s := handlerUses_sendReads ..

theorem handlerUses_askBlock (s : State) (o : Bool → ReadOwner) (cb cls : Nat) : handlerUses (askBlock s o cb cls) = handlerUses s := by
  rw [askBlock, handlerUses_askRead, handlerUses_askRead]

theorem handlerUses_readFor (s : State) (h : Handler) : handlerUses (readFor s h) = handlerUses s ++ [(h.kind, h.cb)] := by
  unfold readFor
  split
  · exact List.map_append
  · rw [handlerUses_askBlock]
    exact List.map_append

/-- A fill that starts holds its handler. -/
theorem fillStart_holds {s t : State} {h : Handler} {mask : Option (BitVec 16)} (ht : fillStart s h mask = some t) :
    ∃ g ∈ t.cch.handlers, g.kind = h.kind ∧ g.cb = h.cb := by
  have huse : (h.kind, h.cb) ∈ handlerUses t := by
    unfold fillStart at ht
    dsimp only at ht
    split at ht
    · cases ht
    · obtain rfl := Option.some.inj ht
      rw [handlerUses_readFor]
      exact List.mem_append_right _ (List.mem_singleton_self _)
  obtain ⟨g, hg, he⟩ := List.mem_map.1 huse
  exact ⟨g, hg, congrArg Prod.fst he, congrArg Prod.snd he⟩

/-! ### PRELOAD (06 R153) -/

theorem keepsUnit_of_good {s : State} {attr : Reg32} {cb : Nat} (h : ∀ bad, lookup s cb 0xFF ≠ .parErr bad) : keepsUnit s attr cb = false := by
  unfold keepsUnit
  split
  · next bad hl => exact absurd hl (h bad)
  · exact Bool.and_false _

theorem keepsUnit_of_unlooked {s : State} {attr : Reg32} {cb : Nat} (h : lookable s (attrCacheable attr) cb = false) :
    keepsUnit s attr cb = false := by simp [keepsUnit, h]

section
variable {s : State} {n : Nat} {x : Running} {attr : Reg32} {cb : Nat} (hlt : x.issued < x.total)

section
include hlt

theorem preloadStep_undecoded (hb : unitBlock s x x.issued = none) : preloadStep s n x = stopRun s n 4 x.issued := by
  rw [preloadStep, if_neg (Nat.not_le.2 hlt), hb]

/-- A unit that decodes, and whose set has no parity error, is issued and decided. -/
theorem preloadStep_decoded (hb : unitBlock s x x.issued = some (attr, cb)) (hk : keepsUnit s attr cb = false) :
    preloadStep s n x = (preloadDecide (issuedUnit s n x.issued attr) n x.issued x attr cb (admitUnit s n x.issued attr).2 false none).getD s := by
  rw [preloadStep, if_neg (Nat.not_le.2 hlt), hb]
  dsimp only
  rw [if_neg (ne_true_of_eq_false hk)]
  rfl

theorem preloadStep_skips (hb : unitBlock s x x.issued = some (attr, cb)) (hl : lookable s (attrCacheable attr) cb = false) :
    preloadStep s n x = skipUnit (issuedUnit s n x.issued attr) n := by
  rw [preloadStep_decoded hlt hb (keepsUnit_of_unlooked hl)]
  obtain ⟨q, e, l, h⟩ := issuedUnit_beside s n x.issued attr
  have hl' : lookable (beside q e l s) (attrCacheable attr) cb = false := hl
  simp [preloadDecide, h, hl']

section
variable (hb : unitBlock s x x.issued = some (attr, cb)) (hl : lookable s (attrCacheable attr) cb = true) (hc : clearingDue s cb = false)
include hb hl hc

/-- A hit in a way of its mask takes age 0. -/
theorem preloadStep_hits {w : Nat} (hw : lookup s cb 0xFF = .hit w) (hm : x.wmask = false ∨ x.ways.getLsbD w = true) :
    preloadStep s n x = unitDone (tagPut (issuedUnit s n x.issued attr) (posOf s (setOf s cb) w)
      { tagAt s (posOf s (setOf s cb) w) with age := 0 }) n := by
  rw [preloadStep_decoded hlt hb (keepsUnit_of_good fun bad h => by rw [hw] at h; cases h)]
  obtain ⟨q, e, l, h⟩ := issuedUnit_beside s n x.issued attr
  have hl' : lookable (beside q e l s) (attrCacheable attr) cb = true := hl
  have hc' : clearingDue (beside q e l s) cb = false := hc
  have hw' : lookup (beside q e l s) cb 0xFF = .hit w := hw
  have hm' : (!x.wmask || x.ways.getLsbD w) = true := by rcases hm with hm | hm <;> simp [hm]
  simp only [preloadDecide, h, hl', hc', hw', hm', Bool.not_true, Bool.false_eq_true, if_false, if_true, Option.getD_some]
  rfl

/-- A miss with room and a handler for its fill starts it, or is skipped where no way may be its victim. -/
theorem preloadStep_fills (hr : getRun s n = some x) (hm : lookup s cb 0xFF = .miss) (hf : fillOf s cb = none)
    (hroom : fillRoom (admitUnit s n x.issued attr).1 cb false (if x.wmask then some x.ways else none) = true)
    (hmax : unitHandlers s n < mhMax s)
    (hp : (pickHandler (admitUnit s n x.issued attr).1 (admitUnit s n x.issued attr).2).isSome = true) (hd : s.err.fPoolDown = false) :
    (∃ g ∈ (preloadStep s n x).cch.handlers, g.kind = .preload n x.issued ∧ g.cb = cb) ∨
      preloadStep s n x = skipUnit (issuedUnit s n x.issued attr) n := by
  obtain ⟨i, hi⟩ := Option.isSome_iff_exists.1 hp
  have hi' : pickHandler (issuedUnit s n x.issued attr) (admitUnit s n x.issued attr).2 = some i :=
    (pickHandler_issueUnit ..).trans hi
  have hmax' : unitHandlers (issuedUnit s n x.issued attr) n < mhMax s := by rwa [unitHandlers_issuedUnit _ _ hr]
  have hroom' : fillRoom (issuedUnit s n x.issued attr) cb false (if x.wmask then some x.ways else none) = true := by
    obtain ⟨q, e, l, h⟩ := admitUnit_beside s n x.issued attr
    obtain ⟨q', e', l', h'⟩ := issuedUnit_beside s n x.issued attr
    rwa [h', fillRoom_beside, ← fillRoom_beside q e l, ← h]
  rw [preloadStep_decoded hlt hb (keepsUnit_of_good fun bad h => by rw [hm] at h; cases h)]
  obtain ⟨q, e, l, h⟩ := issuedUnit_beside s n x.issued attr
  rw [h] at hi' hmax' hroom' ⊢
  have hl' : lookable (beside q e l s) (attrCacheable attr) cb = true := hl
  have hc' : clearingDue (beside q e l s) cb = false := hc
  have hm' : lookup (beside q e l s) cb 0xFF = .miss := hm
  have hf' : fillOf (beside q e l s) cb = none := hf
  have hd' : (beside q e l s).err.fPoolDown = false := hd
  have hx : mhMax (beside q e l s) = mhMax s := rfl
  simp only [preloadDecide, preloadFill, withUnit, hl', hc', hm', hf', hroom', hd', hx, Nat.not_le.2 hmax', hi', Bool.not_true,
    Bool.false_eq_true, if_false, Option.getD_some]
  split
  · next t ht => exact .inl (fillStart_holds ht)
  · exact .inr rfl

end
end

/-! ### LOCK_WAYS and UNLOCK_WAYS (06 R154) -/

section
variable (set p : Nat)

theorem lockEntry_unlocks : lockEntry s n set p false = wholeUnit (tagPut s p { tagAt s p with lock := false }) n := rfl

theorem lockEntry_locks (hl : (tagAt s p).lock = false) (hn : lockedWays s set + 1 ≤ lockMax s) :
    lockEntry s n set p true = wholeUnit (tagPut s p { tagAt s p with lock := true }) n := by
  simp [lockEntry, hl, Nat.not_lt.2 hn]

theorem lockEntry_full (hl : (tagAt s p).lock = false) (hn : lockMax s < lockedWays s set + 1) :
    lockEntry s n set p true = skipUnit (issueUnit s n) n := by
  simp [lockEntry, hl, hn]

end

section
variable (lock : Bool)
include hlt

theorem lockStep_undecoded (hb : unitBlock s x x.issued = none) : lockStep s n x lock = stopRun s n 4 x.issued := by
  rw [lockStep, if_neg (Nat.not_le.2 hlt), hb]

theorem lockStep_skips (hb : unitBlock s x x.issued = some (attr, cb)) (hl : lookable s (attrCacheable attr) cb = false) :
    lockStep s n x lock = skipUnit (issuedUnit s n x.issued attr) n := by
  simp only [lockStep, if_neg (Nat.not_le.2 hlt), hb, hl]
  rfl

variable (hb : unitBlock s x x.issued = some (attr, cb)) (hl : lookable s (attrCacheable attr) cb = true) (hc : clearingDue s cb = false)
include hb hl hc

theorem lockStep_misses (hw : lookup s cb 0 = .miss) : lockStep s n x lock = skipUnit (issuedUnit s n x.issued attr) n := by
  simp only [lockStep, if_neg (Nat.not_le.2 hlt), hb, hl, hc, hw]
  rfl

theorem lockStep_finds {w : Nat} (hw : lookup s cb 0 = .hit w ∨ lookup s cb 0 = .smiss w) : lockStep s n x lock =
    if x.ways.getLsbD w then lockEntry (admitUnit s n x.issued attr).1 n (setOf s cb) (posOf s (setOf s cb) w) lock
    else skipUnit (issuedUnit s n x.issued attr) n := by
  rcases hw with hw | hw
  · simp only [lockStep, if_neg (Nat.not_le.2 hlt), hb, hl, hc, hw]
    rfl
  · simp only [lockStep, if_neg (Nat.not_le.2 hlt), hb, hl, hc, hw]
    rfl

end
end

section
variable {s : State} {n : Nat} {x : Running} (u : Nat) (attr : Reg32)

/-- A skipped unit leaves the tags. -/
theorem skipped_cch : (skipUnit (issuedUnit s n u attr) n).cch = s.cch := by
  obtain ⟨q, e, l, h⟩ := issuedUnit_beside s n u attr
  rw [h]
  rfl

variable {p : Nat} (t : TagEntry)

theorem tagAt_preloaded (hp : p < s.cch.known) : tagAt (unitDone (tagPut (issuedUnit s n u attr) p t) n) p = t := by
  obtain ⟨q, e, l, h⟩ := issuedUnit_beside s n u attr
  rw [h]
  exact tagAt_tagPut (s := beside q e l s) t hp

theorem admitUnit_cch : (admitUnit s n u attr).1.cch = s.cch := by
  obtain ⟨q, e, l, h⟩ := admitUnit_beside s n u attr
  rw [h]
  rfl

theorem admitUnit_sees (set : Nat) : tagAt (admitUnit s n u attr).1 p = tagAt s p ∧
    lockedWays (admitUnit s n u attr).1 set = lockedWays s set ∧ lockMax (admitUnit s n u attr).1 = lockMax s := by
  obtain ⟨q, e, l, h⟩ := admitUnit_beside s n u attr
  rw [h]
  exact ⟨rfl, rfl, rfl⟩

/-- A unit that writes an entry of its own, admitted, issued and performed. -/
theorem tagAt_wholeUnit (hp : p < s.cch.known) : tagAt (wholeUnit (tagPut (admitUnit s n u attr).1 p t) n) p = t := by
  have hp' : p < (admitUnit s n u attr).1.cch.known := by rwa [admitUnit_cch]
  have hbits : tagBits (wholeUnit (tagPut (admitUnit s n u attr).1 p t) n) p = tagBits (tagPut (admitUnit s n u attr).1 p t) p :=
    tagBits_of_cch rfl p
  rw [tagAt, hbits, ← tagAt, tagAt_tagPut t hp']

theorem runTally_wholeUnit_tagPut (hr : getRun s n = some x) (hst : x.stop = none) :
    runTally (wholeUnit (tagPut (admitUnit s n u attr).1 p t) n) n = some (x.issued + 1, x.doneN + 1, x.count0, x.count1, none) := by
  rw [runTally_wholeUnit, runTally_congr _ n (tagPut_eng ..), runTally_admitUnit s n u attr hr hst]
  rfl

end

/-! ### Their rows -/

section
variable {s z : State} {n : Fin 4} {c : Nat} {x : Running}

theorem stop_of_stepDue {s : State} {n op : Nat} (h : stepDue s n op = some x) : x.stop = none ∧ x.final = false := by
  obtain ⟨-, h⟩ := Option.ite_none_right_eq_some.1 h
  unfold unitDue at h
  split at h
  · obtain ⟨hc, he⟩ := Option.ite_none_right_eq_some.1 h
    cases he
    simp only [Bool.and_eq_true, Bool.not_eq_true', Option.isNone_iff_eq_none] at hc
    obtain ⟨⟨-, hfinal⟩, hstop⟩ := hc
    exact ⟨hstop, hfinal⟩
  · cases h

theorem preloadRow_of_step {s : State} {n : Nat} (hd : stepDue s n 2 = some x) (hre : reentry s n x = none) :
    preloadRow s n (holds s n false) = preloadStep s n x := by
  obtain ⟨hrun, hop⟩ := getRun_of_stepDue hd
  obtain ⟨hstop, hfinal⟩ := stop_of_stepDue hd
  have hh : holds s n false = true := by
    obtain ⟨hc, -⟩ := Option.ite_none_right_eq_some.1 hd
    simp only [Bool.and_eq_true, Bool.or_eq_true, Bool.not_eq_true'] at hc
    obtain ⟨⟨-, hbuf⟩, -⟩ := hc
    exact hbuf.resolve_left (by decide)
  simp [preloadRow, hrun, hop, hfinal, hre, hh, hstop]

variable (hs : s.up) (ht : turn s (.step n) 1 = some (z, c))
include hs ht

theorem exec_preload (hd : stepDue s n 2 = some x) (hre : reentry s n x = none) :
    exec (.preload n) s = .next (settle (preloadStep z n x)) := by
  have hon : isOn s = true := beq_iff_eq.2 hs.2
  refine (guarded_of_defined hs.1 fun s => when s (isOn s) fun s => unitRow s n 2 1).trans (congrArg _ ?_)
  rw [when, if_pos hon, unitRow_of_turn hd ht]
  obtain ⟨q, rfl⟩ := turn_eq ht
  obtain ⟨hrun, hop⟩ := getRun_of_stepDue hd
  have hrun' : (getRun { s with qtk := q } n).map (·.opcode) = some 2 := (congrArg _ hrun).trans (congrArg some hop)
  have hrow := preloadRow_of_step (s := { s with qtk := q }) hd hre
  simp only [stepOp, hrun', hrow]

theorem exec_lockStep {lock : Bool} (hd : stepDue s n (if lock then 3 else 4) = some x) :
    exec (if lock then .lockWays n else .unlockWays n) s = .next (settle (lockStep z n x lock)) := by
  have hrow : exec (if lock then .lockWays n else .unlockWays n) s = .next (unitRow s n (if lock then 3 else 4) 1) := by
    cases lock
    · exact guarded_of_defined hs.1 _
    · exact guarded_of_defined hs.1 _
  rw [hrow, unitRow_of_turn hd ht]
  obtain ⟨q, rfl⟩ := turn_eq ht
  obtain ⟨hrun, hop⟩ := getRun_of_stepDue hd
  have hrun' : (getRun { s with qtk := q } n).map (·.opcode) = some (if lock then 3 else 4) := (congrArg _ hrun).trans (congrArg some hop)
  have hd' : stepDue { s with qtk := q } n (if lock then 3 else 4) = some x := hd
  cases lock
  · simp only [Bool.false_eq_true, if_false] at hrun' hd'
    simp only [stepOp, hrun', hd', Option.elim_some]
  · simp only [if_true] at hrun' hd'
    simp only [stepOp, hrun', hd', Option.elim_some]

end

/-! ### What becomes of a unit -/

section
variable {s : State} {n : Nat} {x : Running} (hr : getRun s n = some x) (hst : x.stop = none) (hlt : x.issued < x.total)
include hr hst hlt

theorem preloadUnit_undecoded (hb : unitBlock s x x.issued = none) :
    getRun (preloadStep s n x) n = some { x with stop := some (4, x.issued) } := by
  rw [preloadStep_undecoded hlt hb, getRun_stopRun s n _ hr hst]

theorem lockUnit_undecoded {lock : Bool} (hb : unitBlock s x x.issued = none) :
    getRun (lockStep s n x lock) n = some { x with stop := some (4, x.issued) } := by
  rw [lockStep_undecoded hlt lock hb, getRun_stopRun s n _ hr hst]

variable {attr : Reg32} {cb : Nat} (hb : unitBlock s x x.issued = some (attr, cb))
include hb

theorem preloadUnit_unlooked (hl : lookable s (attrCacheable attr) cb = false) :
    runTally (preloadStep s n x) n = some (x.issued + 1, x.doneN + 1, x.count0 + 1, x.count1, none) := by
  rw [preloadStep_skips hlt hb hl, runTally_skipped s n _ _ hr hst]

theorem lockUnit_unlooked {lock : Bool} (hl : lookable s (attrCacheable attr) cb = false) :
    runTally (lockStep s n x lock) n = some (x.issued + 1, x.doneN + 1, x.count0 + 1, x.count1, none) ∧
      (lockStep s n x lock).cch.tags = s.cch.tags := by
  rw [lockStep_skips hlt lock hb hl, runTally_skipped s n _ _ hr hst, skipped_cch]
  exact ⟨rfl, rfl⟩

variable (hl : lookable s (attrCacheable attr) cb = true) (hc : clearingDue s cb = false)
include hl hc

theorem preloadUnit_hits {w : Nat} (hw : lookup s cb 0xFF = .hit w) (hm : x.wmask = false ∨ x.ways.getLsbD w = true)
    (hp : posOf s (setOf s cb) w < s.cch.known) :
    tagAt (preloadStep s n x) (posOf s (setOf s cb) w) = { tagAt s (posOf s (setOf s cb) w) with age := 0 } ∧
      runTally (preloadStep s n x) n = some (x.issued + 1, x.doneN + 1, x.count0, x.count1, none) := by
  rw [preloadStep_hits hlt hb hl hc hw hm]
  exact ⟨tagAt_preloaded _ _ _ hp, runTally_entry s n _ _ hr hst _ _⟩

theorem preloadUnit_fills (hm : lookup s cb 0xFF = .miss) (hf : fillOf s cb = none)
    (hroom : fillRoom (admitUnit s n x.issued attr).1 cb false (if x.wmask then some x.ways else none) = true)
    (hmax : unitHandlers s n < mhMax s)
    (hp : (pickHandler (admitUnit s n x.issued attr).1 (admitUnit s n x.issued attr).2).isSome = true) (hd : s.err.fPoolDown = false) :
    (∃ g ∈ (preloadStep s n x).cch.handlers, g.kind = .preload n x.issued ∧ g.cb = cb) ∨
      (getRun (preloadStep s n x) n).map (·.count0) = some (x.count0 + 1) := by
  refine (preloadStep_fills hlt hb hl hc hr hm hf hroom hmax hp hd).imp_right fun hskip => ?_
  have htally := congrArg (Option.map (·.2.2.1)) (runTally_skipped s n x.issued attr hr hst)
  rw [hskip]
  rwa [runTally, Option.map_map] at htally

theorem lockUnit_misses {lock : Bool} (hw : lookup s cb 0 = .miss) :
    runTally (lockStep s n x lock) n = some (x.issued + 1, x.doneN + 1, x.count0 + 1, x.count1, none) := by
  rw [lockStep_misses hlt lock hb hl hc hw, runTally_skipped s n _ _ hr hst]

variable {w : Nat} (hw : lookup s cb 0 = .hit w ∨ lookup s cb 0 = .smiss w)
include hw

/-- A way outside the mask. -/
theorem lockUnit_unmasked {lock : Bool} (hm : x.ways.getLsbD w = false) (p : Nat) : tagBits (lockStep s n x lock) p = tagBits s p ∧
    runTally (lockStep s n x lock) n = some (x.issued + 1, x.doneN + 1, x.count0 + 1, x.count1, none) := by
  rw [lockStep_finds hlt lock hb hl hc hw, if_neg (ne_true_of_eq_false hm)]
  exact ⟨tagBits_of_cch (skipped_cch ..) p, runTally_skipped s n _ _ hr hst⟩

variable (hm : x.ways.getLsbD w = true)
include hm

theorem unlockUnit_found (hp : posOf s (setOf s cb) w < s.cch.known) :
    tagAt (lockStep s n x false) (posOf s (setOf s cb) w) = { tagAt s (posOf s (setOf s cb) w) with lock := false } ∧
      runTally (lockStep s n x false) n = some (x.issued + 1, x.doneN + 1, x.count0, x.count1, none) := by
  obtain ⟨htag, -⟩ := admitUnit_sees (s := s) (n := n) (p := posOf s (setOf s cb) w) x.issued attr (setOf s cb)
  rw [lockStep_finds hlt false hb hl hc hw, if_pos hm, lockEntry_unlocks, htag]
  exact ⟨tagAt_wholeUnit _ _ _ hp, runTally_wholeUnit_tagPut _ _ _ hr hst⟩

variable (hlock : (tagAt s (posOf s (setOf s cb) w)).lock = false)
include hlock

theorem lockUnit_locks (hp : posOf s (setOf s cb) w < s.cch.known) (hn : lockedWays s (setOf s cb) + 1 ≤ lockMax s) :
    tagAt (lockStep s n x true) (posOf s (setOf s cb) w) = { tagAt s (posOf s (setOf s cb) w) with lock := true } ∧
      runTally (lockStep s n x true) n = some (x.issued + 1, x.doneN + 1, x.count0, x.count1, none) := by
  obtain ⟨htag, hways, hmax⟩ := admitUnit_sees (s := s) (n := n) (p := posOf s (setOf s cb) w) x.issued attr (setOf s cb)
  rw [lockStep_finds hlt true hb hl hc hw, if_pos hm, lockEntry_locks _ _ (by rw [htag, hlock]) (by rwa [hways, hmax]), htag]
  exact ⟨tagAt_wholeUnit _ _ _ hp, runTally_wholeUnit_tagPut _ _ _ hr hst⟩

theorem lockUnit_full (hn : lockMax s < lockedWays s (setOf s cb) + 1) (p : Nat) : tagBits (lockStep s n x true) p = tagBits s p ∧
    runTally (lockStep s n x true) n = some (x.issued + 1, x.doneN + 1, x.count0 + 1, x.count1, none) := by
  obtain ⟨htag, hways, hmax⟩ := admitUnit_sees (s := s) (n := n) (p := posOf s (setOf s cb) w) x.issued attr (setOf s cb)
  rw [lockStep_finds hlt true hb hl hc hw, if_pos hm, lockEntry_full _ _ (by rw [htag, hlock]) (by rwa [hways, hmax])]
  exact ⟨tagBits_of_cch (skipped_cch ..) p, runTally_skipped s n _ _ hr hst⟩

end

/-- Settles O44: what becomes of a unit is that of its decision (`preloadDecide`, `lockEntry`) in the state in which it is issued, which
sees the same cache (`issuedUnit_beside`). -/
theorem preloadAndLockCommands : Obligations.PreloadAndLockCommands := by
  refine ⟨fun s z n c x hs _ hd hre hlt ht => ?_, fun s z n c x lock hs _ hd hlt ht => ?_⟩
  · have hx := settle_extends (preloadStep z n x)
    obtain ⟨hrun, -⟩ := getRun_of_stepDue hd
    obtain ⟨hst, -⟩ := stop_of_stepDue hd
    refine ⟨_, exec_preload hs ht hd hre, ?_⟩
    obtain ⟨q, rfl⟩ := turn_eq ht
    have hr : getRun { s with qtk := q } n = some x := hrun
    have hblock : unitBlock { s with qtk := q } x x.issued = unitBlock s x x.issued := unitBlock_beside q s.eng s.cfg.live s x x.issued
    have hkept : kept s (preloadStep { s with qtk := q } n x) := (preloadStep_ext n x (Ext.refl _)).keeps ⟨rfl, rfl, rfl⟩
    refine ⟨hx.keeps hkept, hx, fun hb => ?_, fun attr cb hb => ⟨fun hl => ?_, fun hl hc => ⟨fun w hw hm hp => ?_, ?_⟩⟩⟩
    · exact preloadUnit_undecoded hr hst hlt (hblock.trans hb)
    · exact preloadUnit_unlooked hr hst hlt (hblock.trans hb) hl
    · exact preloadUnit_hits hr hst hlt (hblock.trans hb) hl hc hw hm hp
    · exact preloadUnit_fills hr hst hlt (hblock.trans hb) hl hc
  · have hx := settle_extends (lockStep z n x lock)
    obtain ⟨hrun, -⟩ := getRun_of_stepDue hd
    obtain ⟨hst, -⟩ := stop_of_stepDue hd
    refine ⟨_, exec_lockStep hs ht hd, ?_⟩
    obtain ⟨q, rfl⟩ := turn_eq ht
    have hr : getRun { s with qtk := q } n = some x := hrun
    have hblock : unitBlock { s with qtk := q } x x.issued = unitBlock s x x.issued := unitBlock_beside q s.eng s.cfg.live s x x.issued
    have hkept : kept s (lockStep { s with qtk := q } n x lock) := (lockStep_ext n x lock (Ext.refl _)).keeps ⟨rfl, rfl, rfl⟩
    refine ⟨hx.keeps hkept, hx, fun hb => ?_, fun attr cb hb => ⟨fun hl => ?_, fun hl hc => ⟨fun hw => ?_, fun w hw hp => ⟨?_, ?_, ?_, ?_⟩⟩⟩⟩
    · exact lockUnit_undecoded hr hst hlt (hblock.trans hb)
    · exact lockUnit_unlooked hr hst hlt (hblock.trans hb) hl
    · exact lockUnit_misses hr hst hlt (hblock.trans hb) hl hc hw
    · exact fun hm => lockUnit_unmasked hr hst hlt (hblock.trans hb) hl hc hw hm _
    · rintro hm rfl
      exact unlockUnit_found hr hst hlt (hblock.trans hb) hl hc hw hm hp
    · rintro hm rfl hlock hn
      exact lockUnit_locks hr hst hlt (hblock.trans hb) hl hc hw hm hlock hp hn
    · rintro hm rfl hlock hn
      exact lockUnit_full hr hst hlt (hblock.trans hb) hl hc hw hm hlock hn _

end Sys2Proof.Machine

/-! SUPPORT. Proofs of the statements of `07_write_path.md`: the items of a boundary with rows of their own, the retirement of a NORMAL
store, the start and lookups of drains, and the two posted writes and flush reads that end them. -/

namespace Sys2Proof.Machine
set_option Elab.async false

/-! ## Marks of the open entries (07 R165) -/

/-- An entry but for its mark and what is deferred. -/
def unmarked (e : Entry) : Entry := { e with mark := none, deferred := none }

/-- The entry waits for its drain, or will once the fetch into it is over. -/
def isMarked (e : Entry) : Prop := if e.fetching then e.deferred.isSome = true else e.mark.isSome = true

theorem unmarked_markE (r : DrainRank) (e : Entry) : unmarked (markE r e) = unmarked e := by
  unfold markE
  split <;> rfl

theorem isMarked_markE (r : DrainRank) (e : Entry) : isMarked (markE r e) := by
  cases h : e.fetching <;> simp [isMarked, markE, h]

theorem eq_of_unmarked {α : Type} {e x : Entry} (h : unmarked e = unmarked x) (f : Entry → α)
    (hf : ∀ y, f (unmarked y) = f y := by intros; rfl) : f e = f x := (hf e).symm.trans ((congrArg f h).trans (hf x))

/-- `e` once the entry of `x` is marked. -/
def markedWith (e x : Entry) : Entry := if e.id == x.id then markE .other e else e

/-- `e` once the entries of `l` are marked, one after the other. -/
def markedBy (l : List Entry) (e : Entry) : Entry := l.foldl markedWith e

theorem unmarked_markedBy (l : List Entry) (e : Entry) : unmarked (markedBy l e) = unmarked e := by
  refine List.foldlRecOn (motive := fun x => unmarked x = unmarked e) l _ rfl fun x hx y _ => ?_
  unfold markedWith
  split
  · rw [unmarked_markE, hx]
  · exact hx

theorem markedBy_of_others {l : List Entry} {e : Entry} (h : ∀ x ∈ l, x.id ≠ e.id) : markedBy l e = e :=
  List.foldlRecOn (motive := fun x => x = e) l _ rfl fun x hx y hy => by
    rw [hx, markedWith, if_neg (by simpa using (h y hy).symm)]

/-- The mark comes with the entry's own turn, and stays. -/
theorem isMarked_markedBy {l : List Entry} {e x : Entry} (hx : x ∈ l) (he : x.id = e.id) : isMarked (markedBy l e) := by
  obtain ⟨l₁, l₂, rfl⟩ := List.append_of_mem hx
  have hid : (markedBy l₁ e).id = x.id := (eq_of_unmarked (unmarked_markedBy l₁ e) Entry.id).trans he.symm
  have hm : markedBy (l₁ ++ x :: l₂) e = markedBy l₂ (markE .other (markedBy l₁ e)) := calc
    markedBy (l₁ ++ x :: l₂) e = markedBy l₂ (markedWith (markedBy l₁ e) x) := by simp [markedBy]
    _ = _ := by rw [markedWith, if_pos (beq_iff_eq.2 hid)]
  rw [hm]
  refine List.foldlRecOn (motive := isMarked) l₂ _ (isMarked_markE ..) fun y hy z _ => ?_
  unfold markedWith
  split
  · exact isMarked_markE ..
  · exact hy

/-- Marking touches the open entries alone. -/
theorem markAged_eq (s : State) : markAged s =
    { s with wrb := { s.wrb with entries := s.wrb.entries.map (markedBy (s.wrb.entries.filter (agedOut s))) } } := by
  have fold (l : List Entry) (s : State) : l.foldl (fun s e => markEntry s e.id .other) s =
      { s with wrb := { s.wrb with entries := s.wrb.entries.map (markedBy l) } } := by
    induction l generalizing s with
    | nil =>
      have : markedBy [] = id := rfl
      simp [this]
    | cons x l ih =>
      have : markedBy (x :: l) = markedBy l ∘ (markedWith · x) := rfl
      rw [List.foldl_cons, ih, this, ← List.map_map]
      rfl
  exact fold ..

/-! ## Items of a boundary with rows of their own (16 R390, R401, R402; 11 R271, R272, R277) -/

section
variable {s : State} (hs : s.ticks)
include hs

theorem ticking_of_ticks : ticking s = true := by
  obtain ⟨⟨-, hon⟩, hrun⟩ := hs
  simp [ticking, isOn, hon, hrun]

/-- An item that nothing but the tick holds back. -/
theorem guarded_of_ticks (f : State → State) : guarded s (fun s => when s (ticking s) f) = .next (f s) :=
  (guarded_of_defined hs.1.1 _).trans (congrArg _ (if_pos (ticking_of_ticks hs)))

/-- An item with a condition of its own. -/
theorem guarded_of_due (c : State → Bool) (f : State → State) :
    guarded s (fun s => when s (ticking s && c s) f) = .next (if c s then f s else s) := by
  rw [guarded_of_defined hs.1.1, when, ticking_of_ticks hs, Bool.true_and]

theorem exec_mergeAgeMark : exec .mergeAgeMark s = .next (markAged s) := guarded_of_ticks hs markAged

theorem exec_lockTimeout {k : Fin 8} {cb q : Nat}
    (h : s.wrb.locks.find? (fun l => l.1 == k.val && decide (lockTmo s ≤ l.2.2)) = some (k.val, cb, q)) :
    exec (.lockTimeout k) s = .next (settle (breakLock s k cb 1)) := by
  have hover : lockOverdue s k = some cb := by rw [lockOverdue, h]; rfl
  refine (guarded_of_ticks hs fun s => settle (lockBoundary s k)).trans ?_
  rw [lockBoundary, hover]

theorem exec_bucketLeak {n : Fin 6} {b : Bucket} (hb : s.err.buckets[n.val]? = some b) (hr : b.rst = false) (h0 : bktLeak s n ≠ 0)
    (hl : bktLeak s n ≤ b.leak) : exec (.bucketLeak n) s = .next { s with err := { s.err with
      buckets := s.err.buckets.set n { b with leak := 0, level := b.level - 1 } } } := by
  have hd : leakDue s n = true := by simp [leakDue, List.getD_eq_getElem?_getD, hb, hr, h0, hl]
  refine (guarded_of_due hs (leakDue · n) fun s => { s with err := { s.err with
    buckets := updAt s.err.buckets n fun b => { b with leak := 0, level := b.level - 1 } } }).trans ?_
  rw [if_pos hd, updAt, List.modify_eq_set_getElem?, hb]
  rfl

theorem exec_suspectExpire : exec .suspectExpire s = .next { s with err := { s.err with
    suspects := s.err.suspects.filter fun e => decide ((tickCnt s - e.wstart).toNat < max 1 (fld (reg s 0x7060) 15 0)) } } := by
  have hold (e : Suspect) : (!suspectOld s e) = decide ((tickCnt s - e.wstart).toNat < max 1 (fld (reg s 0x7060) 15 0)) :=
    (decide_not ..).symm.trans (decide_eq_decide.2 Nat.not_le)
  refine (guarded_of_ticks hs expireSuspects).trans ?_
  simp only [expireSuspects, hold]

theorem exec_commitWindowExpire : exec .commitWindowExpire s =
    .next (if s.cfg.window = true ∧ 64 ≤ s.cfg.winQt then { s with cfg := { s.cfg with window := false } } else s) := by
  refine (guarded_of_ticks hs closeWindow).trans ?_
  simp [closeWindow, when, windowOverdue]

theorem exec_keyLapse : exec .keyLapse s =
    .next (if s.cfg.unlocked.isSome = true ∧ 2 ≤ s.cfg.unlkQt then { s with cfg := { s.cfg with unlocked := none } } else s) := by
  refine (guarded_of_ticks hs lapseKey).trans ?_
  simp [lapseKey, when, keyOverdue]

theorem exec_crcPassStart : exec .crcPassStart s = .next (if s.cfg.passWait then passRead (startPass s) else s) :=
  guarded_of_due hs (·.cfg.passWait) fun s => passRead (startPass s)

end

/-- A use of registers whose stored parity is good is no cause. -/
theorem foldl_useReg_of_good {s : State} (hp : s.cfg.parBad = []) (l : List Nat) : l.foldl useReg s = s :=
  List.foldlRecOn (motive := (· = s)) l _ rfl fun x hx o _ => by rw [hx, useReg, hp]; rfl

/-- A pass begins with its first 16 members, and does not end with them (16 R401). -/
theorem passRead_startPass {s : State} (hp : s.cfg.parBad = []) : passRead (startPass s) = { s with cfg := { s.cfg with
    passWait := false, pass := true, passPos := 16, passNew := true,
    passCrc := crcRun 0xFFFFFFFF ((members.take 16).flatMap fun o => numBytes 4 (reg s o).toNat) } } := by
  have hread : (members.take 16).length = 16 := by decide
  have hgoes : ¬ 16 ≥ members.length := by decide
  have hgood := foldl_useReg_of_good (s := startPass s) hp
  simp only [passRead, hgood]
  simp only [startPass, List.drop_zero, hread, Nat.zero_add, hgoes, if_false]
  rfl

/-- Settles O24: each row is its own item (`exec_mergeAgeMark` and the like); marking leaves an entry but for its mark
(`unmarked_markedBy`) and marks the old ones (`isMarked_markedBy`). -/
theorem boundaryItems : Obligations.BoundaryItems := by
  refine ⟨fun s hs => ?_, fun s k cb q hs hl => ?_, fun s n b hs hb hr h0 hl => exec_bucketLeak hs hb hr h0 hl,
    fun s hs => exec_suspectExpire hs, fun s hs => exec_commitWindowExpire hs, fun s hs => exec_keyLapse hs,
    fun s hs hw => ?_, fun s hs hp hw => ?_⟩
  · refine ⟨_, exec_mergeAgeMark hs, ?_⟩
    rw [markAged_eq]
    refine ⟨rfl, List.length_map .., fun i e e' he he' => ?_⟩
    obtain rfl : markedBy (s.wrb.entries.filter (agedOut s)) e = e' := by simpa [he] using he'
    have hu := unmarked_markedBy (s.wrb.entries.filter (agedOut s)) e
    refine ⟨eq_of_unmarked hu fun x => { x with mark := e.mark, deferred := e.deferred }, fun hold => ?_, fun h => ?_⟩
    · have haged : e ∈ s.wrb.entries.filter (agedOut s) := List.mem_filter.2 ⟨List.mem_of_getElem? he, decide_eq_true hold⟩
      have hm := isMarked_markedBy haged rfl
      rwa [isMarked, eq_of_unmarked hu Entry.fetching] at hm
    · exact markedBy_of_others fun x hx => h x (List.mem_of_mem_filter hx) (List.mem_filter.1 hx).2
  · have hx := settle_extends (breakLock s k cb 1)
    refine ⟨_, exec_lockTimeout hs hl, hx.brk.trans (breakLock_brk ..), (hx.counts _ (by decide)).trans (live_breakLock ..),
      hx.ints _ (breakLock_raises ..), hx, ?_, ?_, (hx.cfg Cfg.regs).trans (breakLock_regs ..)⟩
    · simp [breakLock, dropLock]
    · simp [breakLock, dropLock]
  · rw [exec_crcPassStart hs, hw, if_neg Bool.false_ne_true]
  · rw [exec_crcPassStart hs, hw, if_pos rfl, passRead_startPass hp]

/-! ## A buffer's parity error, if there is one (10 R256) -/

/-- A parity error of structure `k` is reported if there is one. -/
def ifParity (s : State) (perr : Bool) (k who : Nat) : State := if perr then bufParity s k who else s

section
variable (s : State) (perr : Bool) (k who : Nat)

theorem ifParity_extends : Ext (if perr then count s cntIcbBpar else s) (ifParity s perr k who) := by
  cases perr
  · exact Ext.refl s
  · exact bufParity_extends ..

theorem ifParity_kept : kept s (ifParity s perr k who) := by
  cases perr
  · exact ⟨rfl, rfl, rfl⟩
  · exact (bufParity_extends s k who).keeps ⟨rfl, rfl, rfl⟩

@[simp] theorem ifParity_bus : (ifParity s perr k who).bus = s.bus := by cases perr <;> simp [ifParity]
@[simp] theorem ifParity_wrb : (ifParity s perr k who).wrb = s.wrb := by cases perr <;> simp [ifParity, bufParity_wrb]
@[simp] theorem ifParity_out : (ifParity s perr k who).out = s.out := by cases perr <;> simp [ifParity]
@[simp] theorem ifParity_icb : (ifParity s perr k who).icb = s.icb :=
  (ifParity_extends s perr k who).icb.trans (by cases perr <;> rfl)
@[simp] theorem ifParity_dlUp : (ifParity s perr k who).mem.dlUp = s.mem.dlUp :=
  (congrArg (fun x => x.mem.dlUp) (ifParity_extends s perr k who).fixed).trans (by cases perr <;> rfl)
@[simp] theorem ifParity_reg (off : Nat) : reg (ifParity s perr k who) off = reg s off := by cases perr <;> simp [ifParity, reg]

theorem live_ifParity : live (ifParity s perr k who) cntIcbBpar = live s cntIcbBpar + if perr then 1 else 0 := by
  rw [(ifParity_extends s perr k who).counts _ (by decide)]
  cases perr
  · simp
  · exact live_count_self ..

theorem live_ifParity_ne {s perr k who} {c : Nat} (hc : c ∉ settleCounters) (hb : c ≠ cntIcbBpar) :
    live (ifParity s perr k who) c = live s c := by
  rw [(ifParity_extends s perr k who).counts _ hc]
  cases perr
  · rfl
  · exact live_count_ne _ hb

end

/-! ## Updates of requests and open entries, seen from the other side -/

/-- A request with the number of an update is what the update makes. -/
theorem mem_updReq {s : State} {id : Nat} {f : Req → Req} {x : Req} (hx : x ∈ (updReq s id f).bus.reqs) (hid : x.id = id) :
    ∃ y ∈ s.bus.reqs, x = f y := by
  obtain ⟨y, hy, rfl⟩ := List.mem_map.1 hx
  by_cases h : (y.id == id) = true
  · exact ⟨y, hy, if_pos h⟩
  · rw [if_neg h] at hid
    exact absurd (beq_iff_eq.2 hid) h

/-- The open entries but for their marks. -/
def unmarkedEntries (s : State) : List Entry := s.wrb.entries.map unmarked

/-- The open entry of a codeblock stays the same while only marks change. -/
theorem openEntry_of_unmarked {s t : State} {cb : Nat} {e : Entry} (h : unmarkedEntries t = unmarkedEntries s)
    (he : openEntry s cb = some e) : ∃ e', openEntry t cb = some e' ∧ unmarked e' = unmarked e := by
  have hmap (s : State) : (unmarkedEntries s).find? (·.cb == cb) = (openEntry s cb).map unmarked := by
    rw [unmarkedEntries, List.find?_map]
    rfl
  have ht := hmap t
  rw [h, hmap s, he] at ht
  exact Option.map_eq_some_iff.1 ht.symm

/-- The open entry of a codeblock after an update of an entry. -/
theorem openEntry_updEntry {s : State} {cb : Nat} {e : Entry} (f : Entry → Entry) (hf : ∀ e, (f e).cb = e.cb)
    (he : openEntry s cb = some e) : openEntry (updEntry s e.id f) cb = some (f e) := by
  refine (find?_updIf s.wrb.entries _ _ f fun x _ => by rw [hf]).trans ?_
  rw [openEntry] at he
  simp [he]

theorem unmarkedEntries_markIfFull (s : State) (id : Nat) : unmarkedEntries (markIfFull s id) = unmarkedEntries s := by
  unfold markIfFull
  split
  · extract_lets full
    split
    · exact map_updIf _ _ _ _ fun e _ => unmarked_markE _ e
    · rfl
  · rfl

theorem wakeWatches_entries (s : State) (cb : Nat) : (wakeWatches s cb).wrb.entries = s.wrb.entries := by
  unfold wakeWatches
  dsimp only
  refine (congrArg Wrb.entries (foldl_wrb _ _ ?_ _)).trans ?_
  · exact fun s r => respond_wrb ..
  · rfl

theorem isMarked_or {e : Entry} (h : isMarked e) : e.deferred.isSome = true ∨ e.mark.isSome = true := by
  unfold isMarked at h
  split at h
  · exact .inl h
  · exact .inr h

/-! ## Bytes merge into the open entry (07 R163) -/

/-- An entry with bytes merged into it. -/
def mergedEntry (e : Entry) (data : Block) (mask : BlockMask) (who : Nat) (poison : Bool) : Entry :=
  { e with
    data := overBlock e.data data mask, valid := e.valid ||| mask, contrib := setBit e.contrib who true, poison := e.poison || poison }

theorem mergeInto_opens {s : State} {cb : Nat} {e : Entry} (data : Block) (mask : BlockMask) (who : Nat) (poison : Bool)
    (he : openEntry s cb = some e) : ∃ e', openEntry (mergeInto s e.id data mask who poison) cb = some e' ∧
      unmarked e' = unmarked (mergedEntry e data mask who poison) :=
  openEntry_of_unmarked (unmarkedEntries_markIfFull _ _) (openEntry_updEntry (mergedEntry · data mask who poison) (fun _ => rfl) he)

theorem find?_append_new {α : Type} {l : List α} {p : α → Bool} {x : α} (h : l.find? p = none) (hx : p x = true) :
    (l ++ [x]).find? p = some x := by simp [List.find?_append, h, hx]

/-- The entry that a store finds or takes is the open one of its codeblock. -/
theorem entryFor_opens (s : State) (r : Req) : ∃ e, openEntry (entryFor s r).1 (reqCb r) = some e ∧ (entryFor s r).2 = e.id := by
  unfold entryFor allocEntry
  cases h : openEntry s (reqCb r) with
  | some e => exact ⟨e, h, rfl⟩
  | none => exact ⟨_, find?_append_new h (beq_self_eq_true _), rfl⟩

/-- What a store writes stands in the codeblock's open entry. -/
theorem writeThrough_opens (s : State) (r : Req) (data : Block) (mask : BlockMask) (all poison : Bool) :
    ∃ e₀ e, openEntry (writeThrough s r data mask all poison) (reqCb r) = some e ∧
      unmarked e = unmarked (mergedEntry e₀ data mask r.who poison) := by
  obtain ⟨e₀, h₀, hid⟩ := entryFor_opens (writeProbes s r data mask all poison) r
  obtain ⟨e, he, hu⟩ := mergeInto_opens data mask r.who poison h₀
  refine ⟨e₀, e, ?_, hu⟩
  rw [writeThrough_eq, openEntry, wakeWatches_entries, ← openEntry, hid]
  exact he

/-! ## The retirement of a NORMAL store (07 R158, R159, R177) -/

/-- A LOCK_WRITE releases its lock. -/
def released (s : State) (q : Req) : State := if q.cmd = .lockWrite then dropLock s q.who else s

theorem released_entries (s : State) (q : Req) : (released s q).wrb.entries = s.wrb.entries :=
  (apply_ite (fun s : State => s.wrb.entries) ..).trans (ite_self _)

theorem released_ext {a s : State} (q : Req) (h : Ext a s) : Ext a (released s q) := by
  have hdrop : Ext a (dropLock s q.who) := { h with }
  exact ite_ext hdrop h

/-- The state once a store has written, before its answer. -/
def storeWritten (s : State) (q : Req) (perr : Bool) : State :=
  released (writeThrough (ifParity s perr 1 q.who) q (reqData q) (reqMask q) false perr) q

section
variable (s : State) (q : Req) (perr : Bool)

theorem retireStore_eq : retireStore s q perr =
    let a := storeWritten s q perr
    if q.mark = .durable then
      match openEntry a (reqCb q) with
      | some e => retireWait (markEntry a e.id .durable) q (.drains [e.id] [])
      | none => retireWait a q (.drains [] [])
    else retireWith a q .ok [] := rfl

theorem storeWritten_opens : ∃ e₀ e, openEntry (storeWritten s q perr) (reqCb q) = some e ∧
    unmarked e = unmarked (mergedEntry e₀ (reqData q) (reqMask q) q.who perr) := by
  obtain ⟨e₀, e, he, hu⟩ := writeThrough_opens (ifParity s perr 1 q.who) q (reqData q) (reqMask q) false perr
  refine ⟨e₀, e, ?_, hu⟩
  rw [openEntry, storeWritten, released_entries, ← openEntry]
  exact he

variable {s q perr}

theorem lockOf_storeWritten (hc : q.cmd = .lockWrite) : lockOf (storeWritten s q perr) q.who = none := by
  rw [storeWritten, released, if_pos hc]
  exact lockOf_dropLock ..

theorem retireStore_of_durable {e : Entry} (hd : q.mark = .durable) (he : openEntry (storeWritten s q perr) (reqCb q) = some e) :
    retireStore s q perr = retireWait (markEntry (storeWritten s q perr) e.id .durable) q (.drains [e.id] []) := by
  rw [retireStore_eq]
  simp only [hd, if_true, he]

theorem retireStore_of_plain (hd : q.mark ≠ .durable) : retireStore s q perr = retireWith (storeWritten s q perr) q .ok [] := by
  rw [retireStore_eq]
  exact if_neg hd

/-- A store's bytes, its requester and its parity error stand in the open entry, which a durable store marks. -/
theorem retireStore_opens (hw : q.who < 13) : ∃ e, openEntry (retireStore s q perr) (reqCb q) = some e ∧ e.cb = reqCb q ∧
    e.data &&& spreadBlock (reqMask q) = reqData q &&& spreadBlock (reqMask q) ∧ e.valid &&& reqMask q = reqMask q ∧
    e.contrib.getLsbD q.who = true ∧ (perr = true → e.poison = true) ∧
    (q.mark = .durable → e.mark.isSome = true ∨ e.deferred.isSome = true) := by
  obtain ⟨e₀, e, he, hu⟩ := storeWritten_opens s q perr
  obtain ⟨e', he', hu', hm⟩ : ∃ e', openEntry (retireStore s q perr) (reqCb q) = some e' ∧ unmarked e' = unmarked e ∧
      (q.mark = .durable → isMarked e') := by
    by_cases hd : q.mark = .durable
    · refine ⟨markE .durable e, ?_, unmarked_markE .., fun _ => isMarked_markE ..⟩
      rw [retireStore_of_durable hd he]
      exact openEntry_updEntry _ (fun e => eq_of_unmarked (unmarked_markE .durable e) Entry.cb) he
    · refine ⟨e, ?_, rfl, fun h => absurd h hd⟩
      rw [retireStore_of_plain hd, openEntry, retireWith_wrb]
      exact he
  have h := hu'.trans hu
  refine ⟨e', he', by simpa using List.find?_some he', ?_⟩
  rw [eq_of_unmarked h Entry.data, eq_of_unmarked h Entry.valid, eq_of_unmarked h Entry.contrib, eq_of_unmarked h Entry.poison]
  refine ⟨overBlock_masked .., or_and_mask .., getLsbD_setBit_self _ _ hw, fun hp => by simp [mergedEntry, hp], fun hd => ?_⟩
  exact (isMarked_or (hm hd)).symm

theorem retireStore_unqueued {x : Req} (hx : x ∈ (retireStore s q perr).bus.reqs) (hid : x.id = q.id) : x.queued = false := by
  by_cases hd : q.mark = .durable
  · obtain ⟨e₀, e, he, -⟩ := storeWritten_opens s q perr
    rw [retireStore_of_durable hd he] at hx
    obtain ⟨y, -, rfl⟩ := mem_updReq hx hid
    rfl
  · rw [retireStore_of_plain hd] at hx
    obtain ⟨y, hy, hyid, hyq⟩ := mem_respond_reqs hx
    obtain ⟨r, -, rfl⟩ := mem_updReq hy (hyid.trans hid)
    exact hyq.symm

theorem lockOf_retireStore (hc : q.cmd = .lockWrite) : lockOf (retireStore s q perr) q.who = none := by
  by_cases hd : q.mark = .durable
  · obtain ⟨e₀, e, he, -⟩ := storeWritten_opens s q perr
    rw [retireStore_of_durable hd he]
    exact lockOf_storeWritten hc
  · rw [retireStore_of_plain hd, lockOf, retireWith_wrb]
    exact lockOf_storeWritten hc

theorem retireStore_responded {x : Req} (hd : q.mark ≠ .durable) (hx : getReq (retireStore s q perr) q.id = some x) (hw : x.who < 12) :
    responded (retireStore s q perr) x = true := by
  rw [retireStore_of_plain hd] at hx ⊢
  exact responded_respond hx hw

/-- Beside a parity error that it reports, a retirement does no more than `Ext` allows. -/
theorem retireStore_extends : Ext (ifParity s perr 1 q.who) (retireStore s q perr) := by
  have hwritten : Ext (ifParity s perr 1 q.who) (storeWritten s q perr) := released_ext q (writeThrough_ext _ _ _ _ _ (Ext.refl _))
  by_cases hd : q.mark = .durable
  · obtain ⟨e₀, e, he, -⟩ := storeWritten_opens s q perr
    rw [retireStore_of_durable hd he]
    exact updReq_ext _ _ (fun _ => rfl) (fun _ => rfl) (markEntry_ext _ _ hwritten)
  · rw [retireStore_of_plain hd]
    exact respond_ext _ _ _ _ (updReq_ext _ _ (fun _ => rfl) (fun _ => rfl) hwritten)

theorem retireHead_of_store (hc : q.cmd = .write ∨ q.cmd = .writeNt ∨ q.cmd = .lockWrite) (hn : isNormal q = true)
    (hb : brokenFor s q = false) (hm : storeMayRetire s q perr = true) : retireHead s q perr = retireStore s q perr := by
  unfold isNormal at hn
  split at hn
  · next n a ht =>
    have ha : attrDevice a = false := by simpa using hn
    rcases hc with hc | hc | hc <;> simp [retireHead, hb, hc, ht, ha, hm]
  · cases hn

end

section
variable {s z : State} {r : Fin 13} {q : Req} {n : Nat} {perr : Bool} (hs : s.up) (hq : (storeQueue s r).head? = some q)
  (hp : q.phase = .queue) (hm : markMet s q = true) (hc : q.cmd = .write ∨ q.cmd = .writeNt ∨ q.cmd = .lockWrite)
  (hn : isNormal q = true) (hb : brokenFor s q = false)

include hq hp hc hn hb in
theorem storeOps_of_store : storeOps s r = [.store r] := by
  rcases hc with hc | hc | hc <;> simp [storeOps, hq, hn, hb, hp, hc]

include hs hq hp hm hc hn hb in
/-- A store that the pipeline takes retires, and what waits goes on. -/
theorem exec_storeRetirement_of_store (hr : storeMayRetire s q perr = true) (ht : turn s (.store r) 1 = some (z, n)) :
    exec (.storeRetirement r perr) s = .next (settle (retireStore z q perr)) := by
  have hops : (storeOps s r).contains (.store r) = true := by simp [storeOps_of_store hq hp hc hn hb]
  have hrow : storeRow s r perr = settle (storeRetire z r perr) := by
    rw [storeRow, if_pos hops, pipeRow, ht]
    rfl
  have hon : isOn s = true := beq_iff_eq.2 hs.2
  refine (guarded_of_defined hs.1 fun s => when s (isOn s) fun s => storeRow s r perr).trans (congrArg _ ?_)
  rw [when, if_pos hon, hrow]
  obtain ⟨k, rfl⟩ := turn_eq ht
  have hq : (storeQueue { s with qtk := k } r).head? = some q := hq
  have hm : markMet { s with qtk := k } q = true := hm
  have hhead : retireHead { s with qtk := k } q perr = retireStore { s with qtk := k } q perr := retireHead_of_store hc hn hb hr
  simp only [storeRetire, hq, hp, hm, hhead]
  rfl

end

/-- Settles O31: the row is `retireStore` (`exec_storeRetirement_of_store`), whose write stands in the open entry (`retireStore_opens`).
Beside a parity error it does what `Ext` allows (`retireStore_extends`). -/
theorem storeRetires : Obligations.StoreRetires := by
  intro s z n r q perr hs hq hp hm hc hn hb hr ht
  have hx := settle_extends (retireStore z q perr)
  have hzt := settle_ext (retireStore_extends (s := z) (q := q) (perr := perr))
  have hwho : q.who = r.val := by
    obtain ⟨-, hown⟩ := List.mem_filter.1 (List.mem_of_head? hq)
    exact beq_iff_eq.1 (Bool.and_eq_true_iff.1 hown).1
  refine ⟨_, exec_storeRetirement_of_store hs hq hp hm hc hn hb hr ht, ⟨hx, retireStore_opens (by omega), fun x => retireStore_unqueued,
    lockOf_retireStore, fun hd x => retireStore_responded hd⟩, ?_⟩
  obtain ⟨k, rfl⟩ := turn_eq ht
  obtain ⟨hregs, hvlt, -⟩ := hzt.keeps (ifParity_kept ..)
  exact ⟨(hzt.counts _ (by decide)).trans (live_ifParity ..), hregs, hvlt, hzt.icb.trans (ifParity_icb ..)⟩

/-! ## The start of a drain (07 R166) -/

/-- Where a marked entry stands in R166's order. -/
def drainKey (e : Entry) : Nat ×ₗ Nat := toLex (rankKey (e.mark.getD .other))

/-- The one of two entries that drains first, the earlier one of equals. -/
def drainsFirst (a : Option Entry) (e : Entry) : Option Entry :=
  match a with
  | none => some e
  | some b => if drainKey e < drainKey b then some e else some b

theorem drainPick_eq (s : State) : drainPick s = (s.wrb.entries.filter (mayDrain s)).foldl drainsFirst none := by
  refine congrArg (fun f => List.foldl f none _) (funext₂ fun a e => ?_)
  cases a with
  | none => rfl
  | some b => exact if_congr Prod.Lex.toLex_lt_toLex.symm rfl rfl

theorem drainsFirst_some (b y : Entry) :
    ∃ c, drainsFirst (some b) y = some c ∧ c ∈ [b, y] ∧ drainKey c ≤ drainKey b ∧ drainKey c ≤ drainKey y := by
  by_cases h : drainKey y < drainKey b
  · exact ⟨y, if_pos h, by simp, h.le, le_rfl⟩
  · exact ⟨b, if_neg h, by simp, le_rfl, not_lt.1 h⟩

theorem foldl_drainsFirst {l : List Entry} {b e : Entry} (h : l.foldl drainsFirst (some b) = some e) :
    e ∈ b :: l ∧ ∀ x ∈ b :: l, drainKey e ≤ drainKey x := by
  induction l generalizing b with
  | nil =>
    obtain rfl : b = e := Option.some.inj h
    simp
  | cons y l ih =>
    obtain ⟨c, hc, hmem, hb, hy⟩ := drainsFirst_some b y
    rw [List.foldl_cons, hc] at h
    obtain ⟨he, hle⟩ := ih h
    have hec := hle c List.mem_cons_self
    refine ⟨?_, List.forall_mem_cons.2 ⟨hec.trans hb, List.forall_mem_cons.2 ⟨hec.trans hy, fun x hx => ?_⟩⟩⟩
    · rcases List.mem_cons.1 he with rfl | he
      · exact List.mem_append_left l hmem
      · exact List.mem_append_right [b, y] he
    · exact hle x (List.mem_cons_of_mem _ hx)

/-- The entry that drains next is marked, and none that may drain comes before it. -/
theorem drainPick_first {s : State} {e : Entry} (h : drainPick s = some e) :
    e ∈ s.wrb.entries ∧ mayDrain s e = true ∧ ∀ x ∈ s.wrb.entries, mayDrain s x = true → drainKey e ≤ drainKey x := by
  rw [drainPick_eq] at h
  cases hl : s.wrb.entries.filter (mayDrain s) with
  | nil =>
    rw [hl] at h
    cases h
  | cons b l =>
    rw [hl] at h
    obtain ⟨he, hle⟩ := foldl_drainsFirst h
    rw [← hl] at he hle
    obtain ⟨hmem, hmay⟩ := List.mem_filter.1 he
    exact ⟨hmem, hmay, fun x hx hm => hle x (List.mem_filter.2 ⟨hx, hm⟩)⟩

section
variable {s : State} {e : Entry}

theorem exec_drainStart (hs : s.up) (hq : s.tst.quiescing = false) (he : drainPick s = some e) (hl : drainSlotLeft s = true) (perr : Bool) :
    exec (.drainStart perr) s = .next (settle (startDrain s e perr)) := by
  have hon : isOn s = true := beq_iff_eq.2 hs.2
  have hmark : quiesceMark s = s := by simp [quiesceMark, hq]
  refine (guarded_of_defined hs.1 fun s => when s (isOn s) fun s => drainRow (quiesceMark s) perr).trans (congrArg _ ?_)
  rw [when, if_pos hon, hmark, drainRow, he]
  exact if_pos hl

/-- The slot that a drain takes. -/
def drainSlot (id : Nat) (e : Entry) (perr : Bool) : Slot :=
  { newSlot id .drain with
    entry := e.id, cb := e.cb, data := e.data, valid := e.valid, own := e.valid, contrib := e.contrib, str := e.str, cls := e.cls,
    poison := e.poison || perr, cacheable := e.cacheable, nt := e.nt, rewrite := e.rewrite,
    stage := if e.valid = BitVec.allOnes 512 then .ready else .lookup }

/-- The entry of a drain that starts is gone from the buffers. -/
def withoutEntry (s : State) (id : Nat) : State := { s with wrb := { s.wrb with entries := s.wrb.entries.filter (·.id != id) } }

/-- The entry moves whole into its slot. -/
theorem startDrain_eq (s : State) (e : Entry) (perr : Bool) : startDrain s e perr =
    let a := count (ifParity s perr 2 0xFF) cntDrain
    addSlot (withoutEntry a e.id) (drainSlot a.wrb.nextSlot e perr) := rfl

theorem startDrain_entries (perr : Bool) : (startDrain s e perr).wrb.entries = s.wrb.entries.filter (·.id != e.id) := by
  rw [startDrain_eq]
  simp [addSlot, withoutEntry]

theorem startDrain_slots (perr : Bool) :
    (startDrain s e perr).wrb.slots = s.wrb.slots ++ [drainSlot s.wrb.nextSlot e perr] := by
  rw [startDrain_eq]
  simp [addSlot, withoutEntry]

theorem startDrain_cfg (perr : Bool) : (startDrain s e perr).cfg = (count (ifParity s perr 2 0xFF) cntDrain).cfg := by
  rw [startDrain_eq]
  exact addSlot_cfg ..

theorem startDrain_kept (perr : Bool) : kept s (startDrain s e perr) := by
  obtain ⟨hregs, hvlt, hclk⟩ := ifParity_kept s perr 2 0xFF
  rw [kept, startDrain_cfg, startDrain_eq, addSlot_vlt, addSlot_clk]
  exact ⟨hregs, hvlt, hclk⟩

theorem live_startDrain (perr : Bool) : live (startDrain s e perr) cntDrain = live s cntDrain + 1 := by
  rw [← live_ifParity_ne (s := s) (perr := perr) (k := 2) (who := 0xFF) (by decide) (by decide), ← live_count_self, live, startDrain_cfg,
    live]

end

/-! ## The completion lookup of a drain (07 R168) -/

section
variable {s z : State} {i n : Nat} {x : Slot} (hs : s.up) (hx : getSlot s i = some x) (hk : x.kind = .drain) (hg : x.stage = .lookup)
  (ht : turn s (.completion i) 1 = some (z, n))
include hs hx hk hg ht

theorem exec_completionLookup : exec (.completionLookup i) s = .next (settle (completionLookup z x)) := by
  refine (pipeRow_of_turn hs ht).trans (congrArg (fun y => Host.Outcome.next (settle y)) ?_)
  obtain ⟨q, rfl⟩ := turn_eq ht
  have hx : getSlot { s with qtk := q } i = some x := hx
  simp [opRun, lookupOp, hx, hk, hg]

end

section
variable {s : State} {x : Slot}

theorem completionLookup_ext {a : State} (h : Ext a s) : Ext a (completionLookup s x) := by
  have hp (s : State) (h : Ext a s) : Ext a (completeFromPool s x) := updSlot_ext _ _ h
  unfold completionLookup
  extract_lets ks need set
  refine ite_ext (hp _ h) (ite_ext h ?_)
  generalize lookup s x.cb need = l
  cases l with
  | parErr bad => exact tagParity_ext _ _ h
  | filtered => exact ite_ext (hp _ (dropFiltered_ext _ _ h)) h
  | hit w => exact ite_ext h (ite_ext (hp _ h) (ite_ext h (updSlot_ext _ _ (addRuns_ext _ _ _ _ _ _ _ h))))
  | smiss w => exact hp _ h
  | miss => exact hp _ h

theorem getSlot_updSlot {i : Nat} (f : Slot → Slot) (hf : ∀ y, (f y).id = y.id) (hx : getSlot s i = some x) :
    getSlot (updSlot s i f) i = some (f x) := by
  have hid : x.id = i := by simpa using List.find?_some hx
  refine (find?_updIf s.wrb.slots _ _ f fun y _ => by rw [hf]).trans ?_
  rw [getSlot] at hx
  simp [hx, hid]

theorem completionLookup_of_unlooked (hl : lookable s x.cacheable x.cb = false) : completionLookup s x = completeFromPool s x := by
  simp [completionLookup, hl]

/-- Sectors that the completion lookup needs. -/
def needOf (x : Slot) : BitVec 8 := (missingSectors x).foldl (fun m k => setBit m k true) 0

/-- Handing over accesses sees the port alone. -/
theorem addRuns_csp_congr {s t : State} (h : t.csp = s.csp) (k : AccKind) (p : Nat) (l : List Nat) (d : Block) (m : BlockMask) (c : Bool)
    (n : Nat) : (addRuns t k p l d m c n).csp = (addRuns s k p l d m c n).csp := by
  unfold addRuns
  induction sectorRuns l generalizing s t with
  | nil => exact h
  | cons r rs ih =>
    rw [List.foldl_cons, List.foldl_cons]
    exact ih (by simp only [addAcc, h])

theorem completionLookup_of_hit {w : Nat} (hl : lookable s x.cacheable x.cb = true) (hc : clearingDue s x.cb = false)
    (hw : lookup s x.cb (needOf x) = .hit w) (hd : secDue s (posOf s (setOf s x.cb) w) (needOf x) = false) (hr : s.csp.ready = true)
    (ha : accRoomFor s false (sectorRuns (missingSectors x)).length = true) : completionLookup s x =
      updSlot (addRuns s (.completion x.id) (posOf s (setOf s x.cb) w) (missingSectors x) 0 0 false x.cls) x.id fun t =>
        { t with stage := .cacheRead s.csp.nextAcc } := by
  unfold completionLookup
  extract_lets ks need set
  have hw : lookup s x.cb need = .hit w := hw
  have hd : secDue s (posOf s set w) need = false := hd
  rw [if_neg (by simp [hl]), if_neg (by simp [hc]), hw]
  dsimp only
  rw [if_neg (by simp [hd]), if_neg (by simp [hr]), if_neg (by simp [ks, ha])]

end

/-- Settles O34: the entry that drains is the one `drainPick_first` says, and moves whole into its slot (`startDrain_slots`); the completion
lookup goes to the pool (`completionLookup_of_unlooked`) or to the cache store (`completionLookup_of_hit`). -/
theorem drainStartsAndLookups : Obligations.DrainStartsAndLookups := by
  refine ⟨fun s e perr hs hq he hl => ?_, fun s z i n x hs hx hk hg ht => ?_⟩
  · obtain ⟨hmem, hmay, hfirst⟩ := drainPick_first he
    have hx := settle_extends (startDrain s e perr)
    obtain ⟨hregs, hvlt, -⟩ := hx.keeps (startDrain_kept perr)
    refine ⟨⟨hmem, hmay, fun x hx hm => Prod.Lex.toLex_le_toLex.1 (hfirst x hx hm)⟩, _, exec_drainStart hs hq he hl perr, hx,
      (hx.counts _ (by decide)).trans (live_startDrain perr), fun x hx => ?_, ⟨drainSlot s.wrb.nextSlot e perr, ?_⟩,
      hregs, hvlt⟩
    · rw [startDrain_entries] at hx
      simpa using (List.mem_filter.1 hx).2
    · exact ⟨startDrain_slots perr, rfl, rfl, rfl, rfl, rfl, rfl, rfl, rfl⟩
  · have hxt := settle_extends (completionLookup z x)
    have hzt := settle_ext (completionLookup_ext (x := x) (Ext.refl z))
    refine ⟨_, exec_completionLookup hs hx hk hg ht, hxt, ?_⟩
    obtain ⟨q, rfl⟩ := turn_eq ht
    refine ⟨hzt.cfg Cfg.regs, hzt.vlt, fun hl => ?_, fun w hl hc hw hd hr ha => ?_⟩
    · obtain rfl : x.id = i := by simpa using List.find?_some hx
      rw [completionLookup_of_unlooked (s := { s with qtk := q }) hl]
      exact getSlot_updSlot (s := { s with qtk := q }) (fun t => { t with stage := .poolWait }) (fun _ => rfl) hx
    · have hpos : posOf { s with qtk := q } (setOf { s with qtk := q } x.cb) w = posOf s (setOf s x.cb) w := rfl
      calc (addRuns s (.completion x.id) (posOf s (setOf s x.cb) w) (missingSectors x) 0 0 false x.cls).csp.accs
          = (completionLookup { s with qtk := q } x).csp.accs := by
            rw [completionLookup_of_hit (s := { s with qtk := q }) hl hc hw hd hr ha, updSlot_csp, hpos,
              addRuns_csp_congr (s := s) (t := { s with qtk := q }) rfl]
        _ <+: (settle (completionLookup { s with qtk := q } x)).csp.accs := hxt.accs

/-! ## The drain that the port issues next (07 R167; 08 R196, R198) -/

theorem pickDrain_next {s : State} {x : Slot} {r : Round} (h : pickDrain s = some (x, r)) :
    x ∈ s.wrb.slots ∧ drainReady s x = true ∧ ∀ m ∈ readyReads s, m.1.cls ≠ 0 ∧ m.1.cls ≠ roundClass x.cls := by
  unfold pickDrain at h
  split at h
  · next k d hk =>
    obtain ⟨hnone, h⟩ := Option.ite_none_left_eq_some.1 h
    obtain ⟨y, hy, he⟩ := Option.map_eq_some_iff.1 h
    cases he
    obtain ⟨hmem, hx⟩ := List.mem_filter.1 (List.mem_of_head? hy)
    obtain ⟨hready, hcls⟩ := Bool.and_eq_true_iff.1 hx
    have hclass : ∀ m ∈ readyReads s, m.1.cls ≠ roundClass x.cls := fun m hm hc =>
      hnone (List.any_eq_true.2 ⟨m, hm, beq_iff_eq.2 (hc.trans (beq_iff_eq.1 hcls))⟩)
    refine ⟨hmem, hready, fun m hm => ⟨fun h0 => ?_, hclass m hm⟩⟩
    have hany : ((readyReads s).any fun m => m.1.cls == 0) = true := List.any_eq_true.2 ⟨m, hm, beq_iff_eq.2 h0⟩
    rw [memPick, if_pos hany] at hk
    obtain ⟨h0k, -⟩ := Prod.mk.inj (Option.some.inj hk)
    exact hclass m hm (h0.trans (h0k.trans (beq_iff_eq.1 hcls).symm))
  · cases h

/-! ## The two posted writes of a drain (07 R167; 10 R244, R247) -/

/-- A posted write of a drain: counted and sent. -/
def postWrite (s : State) (a : BitVec 64) (d : Block) (n : Nat) (m : SectorMask) : State := sendTlp (count s cntMwr) (.mwr a d n m)

section
variable (s : State) (a : BitVec 64) (d : Block) (n : Nat) (m : SectorMask)

theorem postWrite_frame : ∃ o p l, postWrite s a d n m =
    { s with out := o, mem := { s.mem with pstate := p }, cfg := { s.cfg with live := l } } := by
  unfold postWrite sendTlp
  split
  · exact ⟨_, _, _, rfl⟩
  · exact ⟨_, s.mem.pstate, _, rfl⟩

theorem postWrite_keeps :
    kept s (postWrite s a d n m) ∧ (postWrite s a d n m).icb = s.icb ∧ (postWrite s a d n m).mem.dlUp = s.mem.dlUp := by
  obtain ⟨o, p, l, h⟩ := postWrite_frame s a d n m
  rw [h]
  exact ⟨⟨rfl, rfl, rfl⟩, rfl, rfl⟩

theorem postWrite_out (h : s.mem.dlUp = true) : (postWrite s a d n m).out = .tlp (.mwr a d n m) :: s.out :=
  congrArg State.out (if_pos (show (count s cntMwr).mem.dlUp = true from h))

theorem live_postWrite : live (postWrite s a d n m) cntMwr = live s cntMwr + 1 := (live_sendTlp ..).trans (live_count_self ..)

end

/-- The drain's slot is free, its unit of a VERIFY done, and earlier reads of its codeblock overlay its bytes. -/
def slotDone (s : State) (x : Slot) (poison : Bool) : State := rewriteDone (dropSlot (drainedLater s x poison) x.id) x

theorem slotDone_frame (s : State) (x : Slot) (poison : Bool) : ∃ c e, slotDone s x poison =
    { dropSlot s x.id with cch := c, eng := e } := by
  unfold slotDone rewriteDone
  split
  · split
    · split
      · exact ⟨_, _, rfl⟩
      · exact ⟨_, s.eng, rfl⟩
    · exact ⟨_, s.eng, rfl⟩
  · exact ⟨_, s.eng, rfl⟩

/-- The codeblock of a drain goes out. -/
def codeblockSent (s : State) (x : Slot) : State := postWrite s (busAddr s (x.cb * 512)) x.data 512 (BitVec.allOnes 64)

/-- The granule of a drain goes out, with write sequence count `w`. -/
def granuleSent (s : State) (x : Slot) (poison : Bool) (w : BitVec 16) : State :=
  postWrite s (busAddr s (granuleAddr s x.cb))
    ((granuleOf x.data x.str (x.bad || poison) w x.cb).setWidth 4096) 64 (BitVec.allOnes 64)

/-- The state once a drain has sent its codeblock and its granule. -/
def drainSent (s : State) (x : Slot) (perr : Bool) : State :=
  granuleSent (codeblockSent (ifParity s perr 3 0xFF) x) x (x.poison || perr) s.icb.gseq

/-- The write sequence count advances from `w`, and the recent-write table takes the codeblock. -/
def sequenced (s : State) (cb : Nat) (w : BitVec 16) : State := recentPut { s with icb := { s.icb with gseq := w + 1 } } cb w

theorem kept_trans {s t u : State} (h : kept s t) (h' : kept t u) : kept s u := by
  obtain ⟨hr, hv, hc⟩ := h
  obtain ⟨hr', hv', hc'⟩ := h'
  exact ⟨hr'.trans hr, hv'.trans hv, hc'.trans hc⟩

theorem busAddr_congr {s t : State} (h : t.cfg.regs = s.cfg.regs) (a : Nat) : busAddr t a = busAddr s a := by simp only [busAddr, reg, h]

theorem granuleAddr_congr {s t : State} (h : t.cfg.regs = s.cfg.regs) (cb : Nat) : granuleAddr t cb = granuleAddr s cb := by
  simp [granuleAddr, dataEnd, dsize, reg, h]

section
variable (s : State) (x : Slot) (perr : Bool)

theorem codeblockSent_keeps :
    kept s (codeblockSent s x) ∧ (codeblockSent s x).icb = s.icb ∧ (codeblockSent s x).mem.dlUp = s.mem.dlUp := postWrite_keeps ..

theorem drainSent_keeps : kept s (drainSent s x perr) ∧ (drainSent s x perr).icb = s.icb := by
  let a := ifParity s perr 3 0xFF
  obtain ⟨hc, hci, -⟩ := codeblockSent_keeps a x
  have hg : kept (codeblockSent a x) (drainSent s x perr) ∧ (drainSent s x perr).icb = (codeblockSent a x).icb :=
    (postWrite_keeps ..).imp_right And.left
  exact ⟨kept_trans (ifParity_kept ..) (kept_trans hc hg.1), hg.2.trans (hci.trans (ifParity_icb ..))⟩

theorem live_drainSent : live (drainSent s x perr) cntMwr = live s cntMwr + 2 := by
  rw [drainSent, granuleSent, live_postWrite, codeblockSent, live_postWrite, live_ifParity_ne (by decide) (by decide), BitVec.add_assoc]
  rfl

theorem drainSent_out (h : s.mem.dlUp = true) : (drainSent s x perr).out =
    .tlp (.mwr (busAddr s (granuleAddr s x.cb)) ((granuleOf x.data x.str (x.bad || (x.poison || perr)) s.icb.gseq x.cb).setWidth 4096)
      64 (BitVec.allOnes 64)) :: .tlp (.mwr (busAddr s (x.cb * 512)) x.data 512 (BitVec.allOnes 64)) :: s.out := by
  let a := ifParity s perr 3 0xFF
  have hka : kept s a := ifParity_kept ..
  obtain ⟨hkb, -, hub⟩ := codeblockSent_keeps a x
  obtain ⟨hra, -, -⟩ := hka
  obtain ⟨hrb, -, -⟩ := hkb
  have hua : a.mem.dlUp = true := (ifParity_dlUp ..).trans h
  have hrs : (codeblockSent a x).cfg.regs = s.cfg.regs := hrb.trans hra
  have hout : (codeblockSent a x).out = .tlp (.mwr (busAddr a (x.cb * 512)) x.data 512 (BitVec.allOnes 64)) :: a.out :=
    postWrite_out _ _ _ _ _ hua
  refine (postWrite_out _ _ _ _ _ (hub.trans hua)).trans ?_
  rw [hout, granuleAddr_congr hrs, busAddr_congr hrs, busAddr_congr hra, ifParity_out]

theorem drainWrite_eq :
    drainWrite s x perr = slotDone (sequenced (drainSent s x perr) x.cb s.icb.gseq) x (x.poison || perr) := by
  rw [drainSent, ← ifParity_icb s perr 3 0xFF]
  rfl

end

section
variable {s : State} {x : Slot} {r : Round} (hs : s.up) (hp : pickDrain s = some (x, r)) (perr : Bool)
include hs hp

theorem exec_drainWrite :
    exec (.drainWrite x.id perr) s = .next (settle (drainWrite { s with qtk := { s.qtk with memRound := r } } x perr)) := by
  refine (guarded_of_defined hs.1 fun s => when s (isOn s) fun s => writeRow s x.id perr).trans (congrArg _ ?_)
  have hon : isOn s = true := beq_iff_eq.2 hs.2
  rw [when, if_pos hon, writeRow, hp]
  exact if_pos rfl

end

theorem dlUp_of_drainReady {s : State} {x : Slot} (h : drainReady s x = true) : s.mem.dlUp = true := by
  have hw : writesHeld s = false := by simpa using (Bool.and_eq_true_iff.1 h).2
  simpa using (Bool.or_eq_false_iff.1 hw).2

/-! ## What a drain's writes leave (07 R172, R173; 10 R244) -/

section
variable (s : State) (x : Slot) (perr : Bool)

/-- The drain's writes change the outputs, the counters and the sequence, and then its slot, later reads and a VERIFY alone. -/
theorem drainWrite_frame : ∃ c e, drainWrite s x perr =
    { dropSlot (sequenced (drainSent s x perr) x.cb s.icb.gseq) x.id with cch := c, eng := e } := by
  rw [drainWrite_eq]
  exact slotDone_frame ..

theorem drainWrite_sent : (drainWrite s x perr).out = (drainSent s x perr).out ∧ (drainWrite s x perr).cfg = (drainSent s x perr).cfg ∧
    (drainWrite s x perr).vlt = (drainSent s x perr).vlt ∧ (drainWrite s x perr).clk = (drainSent s x perr).clk := by
  obtain ⟨c, e, h⟩ := drainWrite_frame s x perr
  rw [h]
  simp [sequenced, recentPut]

theorem drainWrite_kept : kept s (drainWrite s x perr) := by
  obtain ⟨-, hcfg, hvlt, hclk⟩ := drainWrite_sent s x perr
  rw [kept, hcfg, hvlt, hclk]
  exact (drainSent_keeps s x perr).1

theorem drainWrite_icb : (drainWrite s x perr).icb.gseq = s.icb.gseq + 1 ∧
    (drainWrite s x perr).icb.recent = ((x.cb, s.icb.gseq) :: s.icb.recent.filter (·.1 != x.cb)).take 256 := by
  obtain ⟨c, e, h⟩ := drainWrite_frame s x perr
  rw [h, ← (drainSent_keeps s x perr).2]
  exact ⟨rfl, rfl⟩

theorem live_drainWrite : live (drainWrite s x perr) cntMwr = live s cntMwr + 2 := by
  rw [← live_drainSent s x perr, live, (drainWrite_sent s x perr).2.1, live]

/-- The slot of a drain is free once it has written. -/
theorem drainWrite_slots : ∀ y ∈ (drainWrite s x perr).wrb.slots, y.id ≠ x.id := by
  obtain ⟨c, e, h⟩ := drainWrite_frame s x perr
  rw [h]
  intro y hy
  simpa using (List.mem_filter.1 hy).2

end

/-! ## A flush read (07 R172, R173) -/

theorem bus_captureWseq (s : State) (o : ReadOwner) : (captureWseq s o).bus = s.bus := by
  unfold captureWseq
  split <;> rfl

theorem bus_sendTlp (s : State) (t : Tlp) : (sendTlp s t).bus = s.bus := by
  unfold sendTlp
  split <;> rfl

theorem bus_sendReads (k : Nat) (s : State) : (sendReads k s).bus = s.bus := by
  induction k generalizing s with
  | zero => rfl
  | succ k ih =>
    unfold sendReads
    split
    · rfl
    · split
      · rfl
      · rw [ih, sendRead, bus_sendTlp, bus_captureWseq]
        rfl

/-- A durable release waits for the flush read that is issued next. -/
def flushDurable (s : State) : Bool := s.bus.reqs.any fun r => (flushWaiting s).contains r.id && r.mark == .durable

/-- A flush read for a durable release is counted. -/
def flushCounted (s : State) : State := if flushDurable s then count s cntFlush else s

/-- A release part that needs a flush read waits for one. -/
def flushTaken (d : Dur) : Dur := if d = .needFlush then .flushing else d

/-- The releases that need a flush read wait for the next one. -/
def flushAssigned (s : State) : State :=
  let a := addSlot (flushCounted s) (newSlot s.wrb.nextSlot (.flush (flushWaiting s) false))
  { a with bus := { a.bus with reqs := updIf a.bus.reqs (fun r => (flushWaiting s).contains r.id) fun r =>
    { r with dur := flushTaken r.dur, own := flushTaken r.own } } }

/-- The flush read waits for its tag. -/
def flushAsked (s : State) : State :=
  let a := flushAssigned s
  { a with mem := { a.mem with reads := a.mem.reads ++ [{ owner := .flush s.wrb.nextSlot, tag := none, addr := flushWord a, bytes := 0,
                                                          got := [], cls := 1, quar := false, lost := false }] } }

section
variable (s : State)

theorem flushIssue_eq : flushIssue s = sendReads 1 (flushAsked s) := rfl

theorem flushIssue_extends : Ext (flushAsked s) (flushIssue s) := sendReads_ext 1 (Ext.refl _)

theorem live_flushCounted : live (flushCounted s) cntFlush = live s cntFlush + if flushDurable s then 1 else 0 := by
  unfold flushCounted
  split
  · exact live_count_self ..
  · exact (BitVec.add_zero _).symm

theorem flushCounted_same : kept s (flushCounted s) ∧ (flushCounted s).bus = s.bus ∧ (flushCounted s).mem = s.mem := by
  unfold flushCounted
  split <;> exact ⟨⟨rfl, rfl, rfl⟩, rfl, rfl⟩

theorem flushTaken_ne (d : Dur) : flushTaken d ≠ .needFlush := by cases d <;> simp [flushTaken]

theorem flushAssigned_reqs : (flushAssigned s).bus.reqs = updIf s.bus.reqs (fun r => (flushWaiting s).contains r.id)
    fun r => { r with dur := flushTaken r.dur, own := flushTaken r.own } := by
  rw [← (flushCounted_same s).2.1]
  rfl

/-- No release needs a flush read once one is issued. -/
theorem flushIssue_reqs : ∀ q ∈ (flushIssue s).bus.reqs, q.dur ≠ .needFlush ∧ q.own ≠ .needFlush := by
  rw [flushIssue_eq, bus_sendReads]
  intro q hq
  obtain ⟨r, hr, rfl⟩ := List.mem_map.1 (flushAssigned_reqs s ▸ hq)
  by_cases h : (flushWaiting s).contains r.id = true
  · rw [if_pos h]
    exact ⟨flushTaken_ne _, flushTaken_ne _⟩
  · rw [if_neg h]
    refine not_or.1 fun hn => h ?_
    exact List.contains_iff_mem.2 (List.mem_map_of_mem (List.mem_filter.2 ⟨hr, by simpa using hn⟩))

theorem flushAsked_same : kept s (flushAsked s) ∧
    (flushAsked s).mem.reads.map (·.owner) = s.mem.reads.map (·.owner) ++ [.flush s.wrb.nextSlot] := by
  obtain ⟨hkept, -, hmem⟩ := flushCounted_same s
  refine ⟨hkept, ?_⟩
  rw [← hmem]
  exact List.map_append ..

theorem live_flushAsked : live (flushAsked s) cntFlush = live s cntFlush + if flushDurable s then 1 else 0 := live_flushCounted s

end

theorem exec_flushRead {s : State} (hs : s.up) (hw : flushWaiting s ≠ []) (hf : slotFree s true = true) :
    exec .flushRead s = .next (settle (flushIssue s)) := by
  have hdue : (isOn s && !(flushWaiting s).isEmpty && slotFree s true) = true := by simp [isOn, hs.2, hw, hf]
  refine (guarded_of_defined hs.1 fun s => when s (isOn s && !(flushWaiting s).isEmpty && slotFree s true) fun s =>
    settle (flushIssue s)).trans (congrArg _ ?_)
  exact if_pos hdue

/-! ## The completion of a flush read (07 R172, R173) -/

/-- A release part that waited for the flush read is met. -/
def flushedPart (d : Dur) : Dur := if d = .flushing then .met else d

theorem flushedPart_ne (d : Dur) : flushedPart d ≠ .flushing := by cases d <;> simp [flushedPart]

/-- The releases that waited for a flush read are met. -/
def releasesMet (s : State) (ids : List Nat) : State :=
  ids.foldl (fun s id => updReq s id fun r => { r with dur := flushedPart r.dur, own := flushedPart r.own }) s

/-- An entry into sleep that waited for a flush read is met. -/
def entryFlushed (s : State) (entry : Bool) : State :=
  if entry then { s with pwr := { s.pwr with entry := s.pwr.entry.map fun e => { e with flushed := true } } } else s

section
variable (s : State) (ids : List Nat) (entry : Bool)

theorem releasesMet_concat (k : Nat) : releasesMet s (ids ++ [k]) =
    updReq (releasesMet s ids) k fun r => { r with dur := flushedPart r.dur, own := flushedPart r.own } := List.foldl_concat ..

theorem releasesMet_frame : ∃ b, releasesMet s ids = { s with bus := b } := by
  induction ids using List.reverseRecOn with
  | nil => exact ⟨_, rfl⟩
  | append_singleton ids k ih =>
    obtain ⟨b, hb⟩ := ih
    rw [releasesMet_concat, hb]
    exact ⟨_, rfl⟩

theorem releasesMet_reqs : ∀ q ∈ (releasesMet s ids).bus.reqs, q.id ∈ ids → q.dur ≠ .flushing ∧ q.own ≠ .flushing := by
  induction ids using List.reverseRecOn with
  | nil => exact fun q _ hid => absurd hid List.not_mem_nil
  | append_singleton ids k ih =>
    intro q hq hid
    rw [releasesMet_concat] at hq
    obtain ⟨r, hr, rfl⟩ := List.mem_map.1 hq
    by_cases hk : (r.id == k) = true
    · rw [if_pos hk]
      exact ⟨flushedPart_ne _, flushedPart_ne _⟩
    · rw [if_neg hk] at hid ⊢
      exact ih r hr ((List.mem_append.1 hid).resolve_right fun h => hk (beq_iff_eq.2 (List.mem_singleton.1 h)))

theorem entryFlushed_frame : ∃ p, entryFlushed s entry = { s with pwr := p } ∧
    (entry = true → p.entry = s.pwr.entry.map fun e => { e with flushed := true }) := by
  cases entry
  · exact ⟨_, rfl, nofun⟩
  · exact ⟨_, rfl, fun _ => rfl⟩

end

section
variable {s : State} {i : Nat} {x : Slot} {ids : List Nat} {entry : Bool} (hx : getSlot s i = some x) (hk : x.kind = .flush ids entry)
include hx hk

theorem flushMet_eq : flushMet s i = dropSlot (entryFlushed (releasesMet s ids) entry) i := by
  rw [flushMet, hx]
  simp only [hk]
  rfl

/-- The releases and the entry into sleep are met and the slot is free; nothing else changes. -/
theorem flushMet_frame : ∃ b p, flushMet s i = dropSlot { s with bus := b, pwr := p } i ∧
    (∀ q ∈ b.reqs, q.id ∈ ids → q.dur ≠ .flushing ∧ q.own ≠ .flushing) ∧
    (entry = true → p.entry = s.pwr.entry.map fun e => { e with flushed := true }) := by
  obtain ⟨b, hb⟩ := releasesMet_frame s ids
  have hreqs := releasesMet_reqs s ids
  obtain ⟨p, hp, hentry⟩ := entryFlushed_frame (releasesMet s ids) entry
  rw [hb] at hp hreqs hentry
  refine ⟨b, p, ?_, hreqs, hentry⟩
  rw [flushMet_eq hx hk, hb, hp]

end

section
variable {s : State} {c : Cpl} {m : MRead} {i : Nat} (hs : s.up) (hd : s.mem.dlUp = true) (hm : matching s c = some m)
  (ho : m.owner = .flush i) (hq : m.quar = false) (hz : zeroLenOk m c = true)
include hs hd hm ho hq hz

theorem exec_flushReadDone : exec (.flushReadDone c) s = .next (settle (flushMet (dropRead s c.tag.toNat) i)) := by
  have hdue : (isOn s && s.mem.dlUp) = true := by simp [isOn, hs.2, hd]
  refine (guarded_of_defined hs.1 fun s => when s (isOn s && s.mem.dlUp) fun s => flushRow s c).trans (congrArg _ ?_)
  rw [when, if_pos hdue, flushRow, hm]
  simp only [ho, hq, flushCpl, hz]
  rfl

end

/-- Settles O35: the drain that is next is ready and no read goes before it (`pickDrain_next`), what it writes is written out
(`drainWrite_frame`, `drainSent_out`); the flush read is asked for every release that needs one (`flushIssue_reqs`), and its
completion meets each of them, one after another (`releasesMet_reqs`). -/
theorem drainWritesAndFlushReads : Obligations.DrainWritesAndFlushReads := by
  refine ⟨fun s x r perr hs hp => ?_, fun s hs hw hf => ?_, fun s c m i x ids entry hs hd hm ho hq hx hk hz => ?_⟩
  · obtain ⟨hmem, hready, hreads⟩ := pickDrain_next hp
    let z : State := { s with qtk := { s.qtk with memRound := r } }
    have hext : Ext (drainWrite z x perr) (settle (drainWrite z x perr)) := settle_extends _
    obtain ⟨hseq, hrecent⟩ := drainWrite_icb z x perr
    obtain ⟨hregs, hvlt, -⟩ := hext.keeps (drainWrite_kept z x perr)
    have hout : (drainWrite z x perr).out = _ :=
      (drainWrite_sent z x perr).1.trans (drainSent_out z x perr (dlUp_of_drainReady hready))
    exact ⟨⟨hmem, hready, hreads⟩, _, exec_drainWrite hs hp perr, hext, hout ▸ hext.out, (congrArg Icb.gseq hext.icb).trans hseq,
      (congrArg Icb.recent hext.icb).trans hrecent, (hext.counts _ (by decide)).trans (live_drainWrite ..), drainWrite_slots z x perr,
      hregs, hvlt⟩
  · have hext : Ext (flushAsked s) (settle (flushIssue s)) := settle_ext (flushIssue_extends s)
    obtain ⟨hkept, hreads⟩ := flushAsked_same s
    obtain ⟨hregs, hvlt, -⟩ := hext.keeps hkept
    exact ⟨_, exec_flushRead hs hw hf, settle_extends _, hreads ▸ hext.reads, (hext.counts _ (by decide)).trans (live_flushAsked s),
      flushIssue_reqs s, hregs, hvlt⟩
  · have hext := settle_extends (flushMet (dropRead s c.tag.toNat) i)
    obtain ⟨b, p, hmet, hreqs, hentry⟩ := flushMet_frame (s := dropRead s c.tag.toNat) hx hk
    refine ⟨_, exec_flushReadDone hs hd hm ho hq hz, hext, ?_, ?_, fun he => ?_, ?_, ?_⟩
    · exact hmet ▸ hreqs
    · rw [hmet]
      exact fun y hy => by simpa using (List.mem_filter.1 hy).2
    · rw [hext.pwr, hmet]
      exact hentry he
    · rw [hext.cfg Cfg.regs, hmet]
      rfl
    · rw [hext.vlt, hmet]
      rfl

end Sys2Proof.Machine

/-! SUPPORT. Proofs of the statements of `08_quartz_tick_and_classes.md`: what changes the tick, where its boundaries come from, and the
later steps of the wake, the first of which starts the tick again. -/

namespace Sys2Proof.Machine
set_option Elab.async false

/-! ## What changes the tick (08 R188, R203) -/

/-- A new period or direction comes from a boundary, from the end of a relock, which may start the tick, or from a reset. -/
theorem rate_changed_by {c : Instr} {s t : State} (h : exec c s = .next t) (hr : rateOf t.qtk ≠ rateOf s.qtk) :
    (∃ d, c = .tickBoundary d) ∨ (∃ n r d, c = .syncEdge n r d) ∨ (∃ d, c = .syncLoss d) ∨ c = .relockComplete ∨
      c = .porstNAssert ∨ c = .bedrockSupplyLoss ∨ c = .suppliesRemoved := by
  have hm : mayChange c .rate = true := eq_true_of_ne_false fun hk => hr ((exec_calm h).rate hk)
  have ho : ownChanges c .rate = true := by simpa [mayChange, regWriteChanges, tapChanges] using hm
  cases c
  case tickBoundary | syncEdge | syncLoss | relockComplete | porstNAssert | bedrockSupplyLoss | suppliesRemoved => simp
  all_goals cases ho

/-- The count also changes by a SNAP that clears, a register write of a row of its own or from a store queue. -/
theorem tick_counted_by {c : Instr} {s t : State} (h : exec c s = .next t) (ht : live t cntTick ≠ live s cntTick) :
    (∃ d, c = .tickBoundary d) ∨ (∃ n r d, c = .syncEdge n r d) ∨ (∃ d, c = .syncLoss d) ∨ c = .relockComplete ∨
      writesRegister c = true ∨ (∃ r p, c = .storeRetirement r p) ∨
      c = .porstNAssert ∨ c = .bedrockSupplyLoss ∨ c = .suppliesRemoved := by
  have hm : mayChange c .tick = true := eq_true_of_ne_false fun hk => ht ((exec_calm h).tick hk)
  have ho : writesRegister c = true ∨ ownChanges c .tick = true := by simpa [mayChange, regWriteChanges, tapChanges] using hm
  obtain hw | ho := ho
  · simp [hw]
  · cases c
    case tickBoundary | syncEdge | syncLoss | relockComplete | storeRetirement | porstNAssert | bedrockSupplyLoss | suppliesRemoved => simp
    all_goals cases ho

/-- Settles O6: each command keeps what `mayChange` does not name (`exec_calm`), and for the tick that leaves the commands of
`rate_changed_by` and `tick_counted_by`. -/
theorem onlyBoundariesChangeTheTick : Obligations.OnlyBoundariesChangeTheTick := by
  refine ⟨fun c s t h hr => rate_changed_by h fun he => ?_, fun c s t h ht => tick_counted_by h ht⟩
  simp only [rateOf, Prod.mk.injEq] at he
  obtain ⟨hn, hi, ho⟩ := he
  simp [hn, hi, ho] at hr

/-! ## What a boundary leaves (08 R183 to R191) -/

/-- QTK_CFG applies, and SYNC may pulse; nothing else changes. -/
theorem takeCfg_eq (s : State) : ∃ o, takeCfg s = { s with
    out := o
    qtk := { s.qtk with n := cfgN s, syncIn := (reg s rQtkCfg).getLsbD 8, syncOut := (reg s rQtkCfg).getLsbD 9 }
    csp := { s.csp with ivl := zqIvl s } } := by
  unfold takeCfg
  extract_lets c q z
  split
  · exact ⟨_, rfl⟩
  · exact ⟨s.out, rfl⟩

/-- Once it is counted and QTK_CFG has applied, a boundary changes no part that `Part` names. -/
theorem boundary_keeps (K : Part → Prop) (s : State) (d : BitVec 4) : Calm K (takeCfg (count s cntTick)) (boundary s d) := by
  unfold boundary
  extract_lets s1 s2 s3 s4 s5
  have h1 : Calm K (takeCfg (count s cntTick)) s1 := sampleMembers_calm (Calm.refl _)
  have h3 : Calm K (takeCfg (count s cntTick)) s3 := settle_calm (probeBoundary_calm (reloadBudget_calm (entryBoundary_calm h1)))
  have h5 : Calm K (takeCfg (count s cntTick)) s5 := settle_calm (engineBoundary_calm (houseSteps_calm _ h3))
  exact settle_calm (retryBoundary_calm (zqBoundary_calm (heartbeat_calm h5)))

/-- A boundary: counted, with QTK_CFG in effect. -/
theorem boundary_made {s : State} (d : BitVec 4) (hr : s.qtk.running = true) :
    boundaryMade s (boundary s d) ∧ (boundary s d).clk = s.clk ∧ syncOf (boundary s d).qtk = syncOf s.qtk := by
  have hb := boundary_keeps (fun _ => True) s d
  obtain ⟨o, he⟩ := takeCfg_eq (count s cntTick)
  rw [he] at hb
  have hsync := hb.sync trivial
  have hrate := hb.rate trivial
  have hclk := hb.clk trivial
  simp only [rateOf, Prod.mk.injEq] at hrate
  obtain ⟨hn, hin, hout⟩ := hrate
  have htick : live (boundary s d) cntTick = live (count s cntTick) cntTick := hb.tick trivial
  have hrun : (boundary s d).qtk.running = true := by
    simp only [syncOf, Prod.mk.injEq] at hsync
    exact hsync.1.trans hr
  refine ⟨⟨htick.trans (live_count_self s cntTick), hrun, hn, hin, hout, hb.regs trivial, hb.phase trivial, ?_,
    hb.slots trivial, hb.tap trivial⟩, hclk, hsync⟩
  rw [sameClocks, hclk]
  rfl

/-- A boundary's share of the SYNC measurement run is three fields of the clocks (14 R351). -/
theorem measBoundary_eq (s : State) (sync : Bool) : ∃ n b e, measBoundary s sync =
    { s with clk := { s.clk with measN := n, measBad := b, measEnd := e } } := by
  unfold measBoundary
  extract_lets bad
  split
  · exact ⟨_, _, s.clk.measEnd, rfl⟩
  · split
    · exact ⟨_, _, _, rfl⟩
    · exact ⟨_, _, s.clk.measEnd, rfl⟩

/-- The state in which a boundary of a source begins: the run has its share, and the source is reported. -/
def boundaryDue (s : State) (sync : Bool) : State :=
  { measBoundary s sync with
    qtk := { s.qtk with syncOk := sync, relocked := s.clk.relocking, relockAll := s.clk.relocking } }

theorem boundaryDue_eq (s : State) (sync : Bool) : ∃ n b e, boundaryDue s sync = { s with
    clk := { s.clk with measN := n, measBad := b, measEnd := e }
    qtk := { s.qtk with syncOk := sync, relocked := s.clk.relocking, relockAll := s.clk.relocking } } := by
  obtain ⟨n, b, e, hm⟩ := measBoundary_eq s sync
  exact ⟨n, b, e, by rw [boundaryDue, hm]⟩

theorem boundaryMade.clk {s t : State} (h : boundaryMade s t) : sameClocks s t := by
  obtain ⟨-, -, -, -, -, -, -, hc, -⟩ := h
  exact hc

/-- The boundary that `a` makes is one of `s`, from which `a` differs where a boundary's record does not look. -/
theorem boundaryMade.of_start {a s t : State} (h : boundaryMade a t) (hc : sameClocks s t)
    (hl : live a cntTick = live s cntTick := by rfl) (hr : a.cfg.regs = s.cfg.regs := by rfl) (hp : a.pwr.phase = s.pwr.phase := by rfl)
    (hv : a.vlt.slots = s.vlt.slots := by rfl) (ht : a.tst.tap = s.tst.tap := by rfl) : boundaryMade s t := by
  obtain ⟨htick, hrun, hn, hin, hout, hregs, hphase, -, hslots, htap⟩ := h
  have hreg : reg a 0x4000 = reg s 0x4000 := congrArg (mget resetVal · 0x4000) hr
  rw [hl] at htick
  rw [hreg] at hn hin hout
  exact ⟨htick, hrun, hn, hin, hout, hregs.trans hr, hphase.trans hp, hc, hslots.trans hv, htap.trans ht⟩

/-- A boundary from any source. -/
theorem tickAt_made {s : State} (sync : Bool) (d : BitVec 4) (hr : s.qtk.running = true) : boundaryMade s (tickAt s sync d) ∧
    (tickAt s sync d).clk = (measBoundary s sync).clk ∧ (tickAt s sync d).qtk.syncOk = sync ∧
    (tickAt s sync d).qtk.early = s.qtk.early ∧ (tickAt s sync d).qtk.loss = s.qtk.loss ∧ (tickAt s sync d).qtk.seq = s.qtk.seq := by
  have ht : tickAt s sync d = boundary (boundaryDue s sync) d := rfl
  rw [ht]
  obtain ⟨hmade, hclk, hsync⟩ := boundary_made (s := boundaryDue s sync) d hr
  simp only [syncOf, Prod.mk.injEq] at hsync
  obtain ⟨-, hok, hearly, hloss, hseq⟩ := hsync
  refine ⟨?_, hclk, hok, hearly, hloss, hseq⟩
  obtain ⟨n, b, e, hd⟩ := boundaryDue_eq s sync
  rw [hd] at hmade hclk ⊢
  exact hmade.of_start (by rw [sameClocks, hclk])

/-! ## Where boundaries come from (08 R183, R186, R190) -/

section
variable {s : State} (hs : s.ticks)
include hs

theorem exec_tickBoundary (d : BitVec 4) (hi : s.qtk.syncIn = false) : exec (.tickBoundary d) s = .next (tickAt s false d) :=
  (guarded_of_due hs (fun s => !s.qtk.syncIn) (tickAt · false d)).trans (congrArg _ (if_pos (by rw [hi]; rfl)))

theorem exec_syncEdge (n r : Nat) (d : BitVec 4) (hi : s.qtk.syncIn = true) : exec (.syncEdge n r d) s = .next (syncEdge s n r d) :=
  (guarded_of_due hs (·.qtk.syncIn) (syncEdge · n r d)).trans (congrArg _ (if_pos hi))

theorem exec_syncLoss (d : BitVec 4) (hi : s.qtk.syncIn = true) : exec (.syncLoss d) s = .next (lostEdge s d) :=
  (guarded_of_due hs (·.qtk.syncIn) (lostEdge · d)).trans (congrArg _ (if_pos hi))

end

/-- The boundary counter: 16 for each core cycle of a relock, 1 for each other (08 R186). -/
theorem edgeCounts_eq (s : State) (n r : Nat) : edgeCounts s n r =
    n + 15 * (if s.qtk.relocked = false then 0 else if s.qtk.relockAll then n else min r n) := by
  cases h : s.qtk.relocked <;> simp [edgeCounts, h]

theorem syncEdge_early {s : State} {n r : Nat} (d : BitVec 4) (h : edgeCounts s n r < 2 ^ (s.qtk.n - 1)) :
    syncEdge s n r d = earlyEdge s := if_pos h

theorem syncEdge_in_time {s : State} {n r : Nat} (d : BitVec 4) (h : 2 ^ (s.qtk.n - 1) ≤ edgeCounts s n r) :
    syncEdge s n r d = tickAt s true d := if_neg (Nat.not_lt.2 h)

/-- While SYNC is the tick's input, a boundary of its own edge counts in the measurement run, which ends with the 4,096th (14 R351). -/
theorem measBoundary_sync {s : State} (hi : s.qtk.syncIn = true) :
    (measBoundary s true).clk.measN = (if s.clk.measN + 1 = 4096 then 0 else s.clk.measN + 1) ∧
    (measBoundary s true).clk.measEnd = (if s.clk.measN + 1 = 4096 then some (!s.clk.measBad) else s.clk.measEnd) := by
  by_cases h : s.clk.measN + 1 = 4096 <;> simp [measBoundary, hi, h]

/-- The state in which a lost edge is reported, before the boundary it makes. -/
def edgeLost (s : State) : State :=
  raiseInt (count { s with qtk := { s.qtk with loss := true, seq := s.qtk.seq + 1 } } cntSyncLoss) srcSyncLoss

theorem lostEdge_made {s : State} (d : BitVec 4) (hr : s.qtk.running = true) : boundaryMade s (lostEdge s d) ∧
    (lostEdge s d).qtk.syncOk = false ∧ (lostEdge s d).qtk.early = s.qtk.early ∧ (lostEdge s d).qtk.loss = true ∧
    (lostEdge s d).qtk.seq = s.qtk.seq + 1 := by
  have ht : lostEdge s d = tickAt (edgeLost s) false d := rfl
  obtain ⟨hmade, -, hsync⟩ := tickAt_made (s := edgeLost s) false d hr
  rw [ht]
  exact ⟨hmade.of_start hmade.clk (live_count_ne _ cntSyncLoss_ne.symm), hsync⟩

/-- Settles O12: each source makes its boundary (`tickAt_made`, `lostEdge_made`), and an edge is early by the boundary counter
(`edgeCounts_eq`). -/
theorem boundarySources : Obligations.BoundarySources := by
  refine ⟨fun s d hs hi => ⟨_, exec_tickBoundary hs d hi, ?_⟩, fun s n r d hs hi hc => ⟨_, exec_syncEdge hs n r d hi, ?_⟩,
    fun s n r d hs hi hc => ?_, fun s d hs hi => ⟨_, exec_syncLoss hs d hi, lostEdge_made d hs.2⟩⟩
  · obtain ⟨hmade, -, hsync⟩ := tickAt_made false d hs.2
    exact ⟨hmade, hsync⟩
  · rw [← edgeCounts_eq] at hc
    rw [syncEdge_in_time d hc]
    obtain ⟨hmade, hclk, hok, hsync⟩ := tickAt_made true d hs.2
    obtain ⟨hcount, hend⟩ := measBoundary_sync hi
    exact ⟨hmade, hok, (congrArg Clk.measN hclk).trans hcount, (congrArg Clk.measEnd hclk).trans hend, hsync⟩
  · rw [← edgeCounts_eq] at hc
    rw [exec_syncEdge hs n r d hi, syncEdge_early d hc]
    rfl

end Sys2Proof.Machine

namespace Sys2Proof.Machine
set_option Elab.async false

/-! ## The power state through other blocks' work

The wake waits for its steps while every other block goes on. None of that work touches the power state, the Vault, or whether the link
is up; a boundary does so only in step 9 and where entry starts, and then not the wake. -/

/-- The power state, the Vault, and whether the link is up, are as they were. -/
structure SamePower (a s : State) : Prop where
  pwr : s.pwr = a.pwr
  vlt : s.vlt = a.vlt
  dlUp : s.mem.dlUp = a.mem.dlUp

namespace SamePower

variable {a s x y : State}

theorem refl (a : State) : SamePower a a := ⟨rfl, rfl, rfl⟩

theorem ext (h : SamePower a s) (hx : Ext s x) : SamePower a x :=
  ⟨hx.pwr.trans h.pwr, hx.vlt.trans h.vlt, (congrArg (fun z => z.mem.dlUp) hx.fixed).trans h.dlUp⟩

/-- An update of other fields. -/
theorem upd (h : SamePower a s) (hp : x.pwr = s.pwr := by rfl) (hv : x.vlt = s.vlt := by rfl) (hd : x.mem.dlUp = s.mem.dlUp := by rfl) :
    SamePower a x := ⟨hp.trans h.pwr, hv.trans h.vlt, hd.trans h.dlUp⟩

theorem ite {c : Prop} [Decidable c] (hx : SamePower a x) (hy : SamePower a y) : SamePower a (if c then x else y) := by
  split
  · exact hx
  · exact hy

theorem foldl {β : Type} (l : List β) (f : State → β → State) (hf : ∀ s b, SamePower a s → SamePower a (f s b)) (h : SamePower a s) :
    SamePower a (l.foldl f s) := List.foldlRecOn (motive := SamePower a) l f h fun s hs b _ => hf s b hs

end SamePower

section
variable {a s : State}

theorem event_samePower (b c : Nat) (p : BitVec 384) (h : SamePower a s) : SamePower a (event s b c p) := h.ext (event_ext b c p (Ext.refl s))

theorem raiseInt_samePower (n : Nat) (h : SamePower a s) : SamePower a (raiseInt s n) := h.upd

theorem settle_samePower (h : SamePower a s) : SamePower a (settle s) := h.ext (settle_extends s)

/-! ### Link recovery (12 R297, R298) -/

theorem answerRead_samePower (r : Req) (x : Sector) (h : SamePower a s) : SamePower a (answerRead s r x) :=
  .ext (h.upd (x := updReq s r.id _)) (armWatch_ext _ (respond_ext _ _ _ _ (Ext.refl _)))

theorem handTo_samePower (b : Block) (fail id : Nat) (h : SamePower a s) : SamePower a (handTo b fail s id) := by
  unfold handTo
  split
  · exact h
  · exact .ite (answerRead_samePower _ _ h) (h.ext (failReq_ext _ _ _ (Ext.refl s)))

theorem handAll_samePower (x : Handler) (b : Block) (fail : Nat) (h : SamePower a s) : SamePower a (handAll s x b fail) :=
  .foldl _ _ (fun _ _ => handTo_samePower _ _ _) h.upd

theorem unitTimeout_samePower (n u : Nat) (h : SamePower a s) : SamePower a (unitTimeout s n u) := by
  unfold unitTimeout unitDrop
  split
  · exact h.upd
  · exact .ite h.upd (h.upd (x := updEntry _ _ _) |>.ext (endFetch_ext _ (Ext.refl _)))

theorem pageArrive_samePower (n i : Nat) (b : Block) (fail : Nat) (h : SamePower a s) : SamePower a (pageArrive s n i b fail) :=
  .ite h.upd h.upd

theorem fillUnits_samePower (x : Handler) (fail : Nat) (h : SamePower a s) : SamePower a (fillUnits s x fail) :=
  .foldl _ _ (fun _ _ h => .ite h.upd (.ite h.upd h.upd)) h

theorem poolBad_samePower (cb reason : Nat) (who : Option Nat) (found expect : BitVec 16) (h : SamePower a s) :
    SamePower a (poolBad s cb reason who found expect) :=
  raiseInt_samePower _ (event_samePower _ _ _ (.ite h.upd (.ite h.upd h.upd)))

theorem overlaid_samePower (x : Handler) (b : Block) (fail : Nat) (h : SamePower a s) : SamePower a (overlaid s x b fail).1 := by
  unfold overlaid
  split
  split
  · exact poolBad_samePower _ _ _ _ _ h
  · exact h

theorem readEnd_samePower (x : Handler) (b : Block) (fail fixed : Nat) (h : SamePower a s) : SamePower a (readEnd s x b fail fixed) := by
  have ho := overlaid_samePower x b fail h
  unfold readEnd
  split
  · exact handAll_samePower _ _ _ h
  · exact pageArrive_samePower _ _ _ _ h.upd
  · exact .ite (unitTimeout_samePower _ _ h.upd) h.upd
  · exact .foldl _ _ (fun s _ h => h.ext (fetchEnd_ext _ _ _ _ (Ext.refl s))) ho.upd
  · exact handAll_samePower _ _ _ ho
  · refine .ite h.upd ?_
    split
    extract_lets s1 s2
    have h1 : SamePower a s1 := fillUnits_samePower _ _ (handAll_samePower _ _ _ h)
    have h2 : SamePower a s2 := .ite h1.upd h1
    split
    · exact .ite h2 (h2.ext (dropEntry_ext _ _ (Ext.refl s2)))
    · exact h2

theorem noData_samePower (o : ReadOwner) (fail : Nat) (h : SamePower a s) : SamePower a (noData s o fail) := by
  unfold noData
  split
  · split
    · exact readEnd_samePower _ _ _ _ h
    · exact h
  · exact h.upd
  · exact h.upd
  · exact h

theorem failUnsent_samePower (h : SamePower a s) : SamePower a (failUnsent s) := by
  refine .foldl _ _ (fun s m h => ?_) (.foldl _ _ (fun _ _ => noData_samePower _ _) h.upd)
  split
  · split
    · exact .ite (noData_samePower _ _ h.upd) h
    · exact h
  · exact h.upd
  · exact noData_samePower _ _ h

theorem probeFailed_samePower (h : SamePower a s) : SamePower a (probeFailed s) :=
  .ite h.upd (failUnsent_samePower (event_samePower _ _ _ h.upd))

theorem recoveryProbe_samePower (h : SamePower a s) : SamePower a (recoveryProbe s) := by
  unfold recoveryProbe
  split
  · exact probeFailed_samePower h
  · exact .ext h.upd (sendRead_ext _ _ (Ext.refl _))

theorem recoveryTrain_samePower (h : SamePower a s) : SamePower a (recoveryTrain s) :=
  .ite (.ite h.upd h.upd) (recoveryProbe_samePower h.upd)

theorem startRecovery_samePower (cause : Nat) (h : SamePower a s) : SamePower a (startRecovery s cause) :=
  .ite h (recoveryTrain_samePower h.upd)

/-! ### A boundary (08 R191) -/

theorem wakeAll_samePower (h : SamePower a s) : SamePower a (wakeAll s).1 :=
  List.foldlRecOn (motive := fun p : State × BitVec 8 => SamePower a p.1) _ _ h fun _ hs _ _ =>
    (hs.upd (x := updReq _ _ _)).ext (respond_ext _ _ _ _ (Ext.refl _))

theorem abortRuns_samePower (h : SamePower a s) : SamePower a (abortRuns s) := by
  refine .foldl _ _ (fun s n h => ?_) h
  split
  · exact .ite h h.upd
  · exact h

theorem breakLock_samePower (who cb cause : Nat) (h : SamePower a s) : SamePower a (breakLock s who cb cause) :=
  raiseInt_samePower _ (event_samePower _ _ _ h.upd)

theorem lockBoundary_samePower (k : Nat) (h : SamePower a s) : SamePower a (lockBoundary s k) := by
  unfold lockBoundary
  split
  · exact breakLock_samePower _ _ _ h
  · exact h

theorem deadlockSample_samePower (d : BitVec 4) (h : SamePower a s) : SamePower a (deadlockSample s d) :=
  .ite (.ite (raiseInt_samePower _ (event_samePower _ _ _ (.upd (wakeAll_samePower h)))) h.upd) h.upd

theorem disableCache_samePower (h : SamePower a s) : SamePower a (disableCache s) :=
  .ite (.ext h.upd (cancelFills_ext _ (Ext.refl _))) h

theorem bypassCause_samePower (cause off : Nat) (h : SamePower a s) : SamePower a (bypassCause s cause off) := by
  unfold bypassCause
  extract_lets s1 b1 b2 s2 s3
  have h2 : SamePower a s2 := .ite h (.upd (disableCache_samePower h))
  have h3 : SamePower a s3 := raiseInt_samePower _ (event_samePower _ _ _ h2.upd)
  exact h3.upd

theorem useReg_samePower (off : Nat) (h : SamePower a s) : SamePower a (useReg s off) := .ite (bypassCause_samePower _ _ h.upd) h

theorem endPass_samePower (h : SamePower a s) : SamePower a (endPass s) :=
  .ite h.upd (.ite h.upd (bypassCause_samePower _ _ h.upd))

theorem passRead_samePower (h : SamePower a s) : SamePower a (passRead s) := by
  unfold passRead
  extract_lets ms s1 c s2
  have h1 : SamePower a s1 := .foldl _ _ (fun _ _ => useReg_samePower _) h
  exact .ite (endPass_samePower h1.upd) h1.upd

theorem crcBoundary_samePower (h : SamePower a s) : SamePower a (crcBoundary s) := by
  unfold crcBoundary
  extract_lets c s1 s2
  have h2 : SamePower a s2 := .ite h.upd h.upd
  exact .ite (passRead_samePower h2) h2

theorem expireSuspects_samePower (h : SamePower a s) : SamePower a (expireSuspects s) := h.upd

theorem keyAge_samePower (h : SamePower a s) : SamePower a (keyAge s) := .ite h.upd h

theorem lapseKey_samePower (h : SamePower a s) : SamePower a (lapseKey s) := .ite h.upd h

theorem windowAge_samePower (h : SamePower a s) : SamePower a (windowAge s) := .ite h.upd h

theorem closeWindow_samePower (h : SamePower a s) : SamePower a (closeWindow s) := .ite h.upd h

theorem houseSteps_samePower (d : BitVec 4) (h : SamePower a s) : SamePower a (houseSteps s d) := by
  unfold houseSteps
  extract_lets s1 s2 s3 s4
  have h1 : SamePower a s1 := .foldl _ _ (fun _ _ h => h.upd) h.upd
  have h2 : SamePower a s2 := .foldl _ _ (fun _ _ => lockBoundary_samePower _) h1.upd
  have h3 : SamePower a s3 := settle_samePower (deadlockSample_samePower _ h2)
  have h4 : SamePower a s4 := expireSuspects_samePower (.foldl _ _ (fun _ _ h => h.upd) h3)
  exact crcBoundary_samePower (closeWindow_samePower (windowAge_samePower (lapseKey_samePower (keyAge_samePower h4))))

theorem queueEntry_samePower (e : CEntry) (h : SamePower a s) : SamePower a (queueEntry s e) := h.ext (queueEntry_ext e (Ext.refl s))

theorem abortRing_samePower (n : Nat) (h : SamePower a s) : SamePower a (abortRing s n) := by
  unfold abortRing
  extract_lets r s1 z s2
  refine .ite h ?_
  split
  · exact .ite h.upd h.upd
  · have h2 : SamePower a z := by
      unfold z
      split <;> exact h.upd
    exact h2.upd

theorem dueRing_samePower (n : Nat) (h : SamePower a s) : SamePower a (dueRing s n) := by
  unfold dueRing
  refine .ite h.upd ?_
  split
  · exact .ite h h.upd
  · exact .ite h.upd h

theorem acceptRing_samePower (n : Nat) (h : SamePower a s) : SamePower a (acceptRing s n) :=
  .ite h (.ite (.ite h (queueEntry_samePower _ h.upd)) (event_samePower _ _ _ (queueEntry_samePower _ h.upd)))

theorem updRun_samePower (n : Nat) (f : Running → Running) (h : SamePower a s) : SamePower a (updRun s n f) := h.upd

theorem tickRun_samePower (n : Nat) (h : SamePower a s) : SamePower a (tickRun s n) := by
  unfold tickRun
  split
  · exact h
  · refine .ite h (.ite ?_ h.upd)
    exact updRun_samePower _ _ (queueEntry_samePower _ h.upd)

theorem progRing_samePower (n : Nat) (h : SamePower a s) : SamePower a (progRing s n) := .ite h.upd h

theorem cqFullSaid_samePower (h : SamePower a s) : SamePower a (cqFullSaid s) := .ite h (event_samePower _ _ _ h.upd)

theorem assign_samePower (h : SamePower a s) : SamePower a (assign s) := h.upd

theorem engineBoundary_samePower (h : SamePower a s) : SamePower a (engineBoundary s) := by
  unfold engineBoundary
  extract_lets e s1 s2 s3 s4 s5 s6 s7
  have h2 : SamePower a s2 := .foldl _ _ (fun _ _ => abortRing_samePower _) h.upd
  have h4 : SamePower a s4 := .foldl _ _ (fun _ _ => acceptRing_samePower _) (.foldl _ _ (fun _ _ => dueRing_samePower _) h2)
  have h5 : SamePower a s5 := assign_samePower h4
  have h6 : SamePower a s6 := .foldl _ _ (fun _ _ h => tickRun_samePower _ (progRing_samePower _ h)) h5
  have h7 : SamePower a s7 := cqFullSaid_samePower h6
  clear_value s7
  exact h7.upd

theorem zqRank_samePower (rank : Nat) (h : SamePower a s) : SamePower a (zqRank s rank) := .ite (.ite h.upd h.upd) h

theorem zqBoundary_samePower (h : SamePower a s) : SamePower a (zqBoundary s) :=
  zqRank_samePower _ (zqRank_samePower _ (.ite h.upd h.upd))

theorem retryBoundary_samePower (h : SamePower a s) : SamePower a (retryBoundary s) :=
  .ite (.ite (.ite (recoveryTrain_samePower h.upd) h.upd) h.upd) h

theorem probeBoundary_samePower (h : SamePower a s) : SamePower a (probeBoundary s) := .foldl _ _ (fun _ _ h => .ite h.upd h) h.upd

theorem wake_ite {c : Prop} [Decidable c] {x y : State} {w : Option Wake} (hx : x.pwr.wake = w) (hy : y.pwr.wake = w) :
    (if c then x else y).pwr.wake = w := by
  split
  · exact hx
  · exact hy

/-- Step 9 touches HEARTBEAT and the checks that fail, not the wake. -/
theorem heartbeat_wake (s : State) : (heartbeat s).pwr.wake = s.pwr.wake := by
  unfold heartbeat
  refine wake_ite rfl ?_
  extract_lets f n p s1 s2 q
  have h2 : s2.pwr.wake = s.pwr.wake := wake_ite rfl ((congrArg Pwr.wake (event_pwr s1 _ _ _)).trans rfl)
  exact wake_ite h2 h2

theorem beginEntry_wake (s : State) (off : Bool) : (beginEntry s off).pwr.wake = s.pwr.wake := by
  unfold beginEntry
  extract_lets p c s1
  have h : SamePower s1 (wakeAll (abortRuns s1)).1 := wakeAll_samePower (abortRuns_samePower (.refl s1))
  exact (congrArg Pwr.wake h.pwr).trans rfl

theorem setFail_wake (s : State) (rsn : Nat) : (setFail s rsn).pwr.wake = s.pwr.wake := by
  rw [setFail, raiseInt_pwr, event_pwr]

theorem takeLatches_wake (s : State) : (takeLatches s).pwr.wake = s.pwr.wake :=
  wake_ite rfl (wake_ite (beginEntry_wake ..) (wake_ite (wake_ite (beginEntry_wake ..) (setFail_wake ..)) rfl))

/-- Entry to Sleep or Off starts, or is abandoned, beside the wake. -/
theorem entryBoundary_wake (s : State) : (entryBoundary s).pwr.wake = s.pwr.wake := by
  unfold entryBoundary
  split
  · exact wake_ite (wake_ite rfl (beginEntry_wake ..)) (wake_ite (setFail_wake ..) rfl)
  · exact takeLatches_wake s

/-- A boundary goes by beside the wake. -/
theorem boundary_wake (s : State) (d : BitVec 4) : (boundary s d).pwr.wake = s.pwr.wake := by
  unfold boundary
  extract_lets s1 s2 s3 s4 s5
  have h1 : SamePower s s1 := .foldl _ _ (fun _ _ => useReg_samePower _) (.ite (.upd (.refl s)) (.upd (.refl s)))
  have h5 : SamePower s2 s5 := settle_samePower (engineBoundary_samePower (houseSteps_samePower _
    (settle_samePower (probeBoundary_samePower (.upd (.refl s2))))))
  have h6 : SamePower (heartbeat s5) (settle (retryBoundary (zqBoundary (heartbeat s5)))) :=
    settle_samePower (retryBoundary_samePower (zqBoundary_samePower (.refl _)))
  calc (settle (retryBoundary (zqBoundary (heartbeat s5)))).pwr.wake = (heartbeat s5).pwr.wake := congrArg Pwr.wake h6.pwr
    _ = s5.pwr.wake := heartbeat_wake s5
    _ = s2.pwr.wake := congrArg Pwr.wake h5.pwr
    _ = s1.pwr.wake := entryBoundary_wake s1
    _ = s.pwr.wake := congrArg Pwr.wake h1.pwr

end

/-! ## The relock of the wake (15 R364 W3; 08 R190) -/

/-- The wake's relock has ended, and the reference monitor starts anew; the tick is still to start. -/
def relocked (s : State) : State := monRestart (setWake (relockEnd s) fun w => { w with w3 := true })

section
variable {s : State}

theorem relocked_clk : (relocked s).clk = { s.clk with lock := true, relocking := false, lastWin := none } :=
  congrArg (fun c : Clk => { c with lastWin := none }) (event_clk ..)

theorem relocked_wake {w : Wake} (hw : s.pwr.wake = some w) : (relocked s).pwr.wake = some { w with w3 := true } := by
  show (relockEnd s).pwr.wake.map _ = _
  rw [relockEnd, event_pwr]
  exact congrArg _ hw

theorem live_relocked (c : Nat) : live (relocked s) c = live s c := live_event ..

theorem lockReached_of_wake {w : Wake} (hon : s.pwr.phase = .on) (hw : s.pwr.wake = some w) (h3 : w.w3 = false) :
    lockReached s = startTick (relocked s) := by
  have hp : (relockEnd s).pwr = s.pwr := event_pwr ..
  unfold lockReached
  extract_lets s1
  rw [if_neg (by simp [s1, hp, hon]), show s1.pwr.wake = some w by simp [s1, hp, hw]]
  exact if_neg (by simp [h3])

theorem exec_relockComplete_of_wake {w : Wake} (hs : s.up) (hw : s.pwr.wake = some w) (h3 : w.w3 = false) (hr : s.clk.relocking = true)
    (hx : s.clk.xoOk = true) : exec .relockComplete s = .next (startTick (relocked s)) := by
  have hon : s.pwr.phase = .on := hs.2
  rw [← lockReached_of_wake hon hw h3]
  exact (guarded_of_defined hs.1 _).trans (congrArg _ (if_pos (by simp [hr, hx, isOn, hon])))

theorem startTick_eq (a : State) : startTick a = tickAt { a with qtk := { a.qtk with running := true } } false 0 := rfl

theorem startTick_made (a : State) : boundaryMade a (startTick a) := by
  rw [startTick_eq]
  obtain ⟨hmade, -⟩ := tickAt_made (s := { a with qtk := { a.qtk with running := true } }) false 0 rfl
  exact hmade.of_start hmade.clk

theorem tickAt_wake (s : State) (sync : Bool) (d : BitVec 4) : (tickAt s sync d).pwr.wake = s.pwr.wake := by
  have ht : tickAt s sync d = boundary (boundaryDue s sync) d := rfl
  obtain ⟨n, b, e, hd⟩ := boundaryDue_eq s sync
  rw [ht, boundary_wake, hd]

/-- The end of the wake's relock: the tick starts with a boundary. -/
theorem startTick_relocked {w : Wake} (hw : s.pwr.wake = some w) :
    (startTick (relocked s)).pwr.wake.map (·.w3) = some true ∧ (startTick (relocked s)).qtk.running = true ∧
    sameClocks { s with clk := { s.clk with lock := true, relocking := false, lastWin := none } } (startTick (relocked s)) ∧
    live (startTick (relocked s)) cntTick = live s cntTick + 1 := by
  have hmade := startTick_made (relocked s)
  have hclk := hmade.clk
  obtain ⟨htick, hrun, -⟩ := hmade
  have hwake : (startTick (relocked s)).pwr.wake = some { w with w3 := true } := by
    rw [startTick_eq, tickAt_wake]
    exact relocked_wake hw
  rw [sameClocks, relocked_clk] at hclk
  rw [live_relocked] at htick
  exact ⟨by rw [hwake]; rfl, hrun, hclk, htick⟩

end

/-! ## The L1.2 exit (15 R366, R369; 12 R297, R301) -/

/-- The link of the wake has left L1.2, or is not there. -/
def exited (s : State) (inL0 : Bool) : State :=
  let z := setWake s fun w => { w with w5 := true }
  if inL0 then { z with mem := { z.mem with pstate := 0 } } else linkLost z

section
variable {s : State}

theorem linkLost_samePower (hd : s.mem.dlUp = true) : SamePower (linkDown s) (linkLost s) := by
  unfold linkLost
  rw [if_neg (by simp [hd])]
  exact .ite (recoveryProbe_samePower (.refl _)) (startRecovery_samePower _ (.refl _))

/-- With EN = 1 recovery trains; with EN = 0 there is nothing to claim. -/
theorem linkLost_recovers (hd : s.mem.dlUp = true) : recovers s (linkLost s) 3 := by
  intro hen
  have hen' : linkEn (linkDown s) = true := hen
  have hl : linkLost s = startRecovery (linkDown s) 3 := by
    unfold linkLost
    rw [if_neg (by simp [hd])]
    exact if_neg (by simp [hen'])
  rw [hl]
  by_cases hi : s.mem.recov = .idle
  · have ht : startRecovery (linkDown s) 3 = { count { linkDown s with mem := { (linkDown s).mem with cause := 3 } } cntRecov with
        mem := { (linkDown s).mem with cause := 3, recov := .training } } :=
      (if_neg (not_not.2 hi)).trans ((if_pos hen).trans (if_neg (by simp [linkDown])))
    rw [if_pos hi, ht]
    exact ⟨rfl, rfl, live_count_self ..⟩
  · have ht : startRecovery (linkDown s) 3 = linkDown s := if_pos hi
    rw [if_neg hi, ht]
    exact ⟨rfl, rfl, rfl⟩

/-- What follows leaves the recovery to its course. -/
theorem recovers.of_same {t u : State} {cause : Nat} (h : recovers s t cause) (hr : u.mem.recov = t.mem.recov)
    (hc : u.mem.cause = t.mem.cause) (hl : live u cntRecov = live t cntRecov) : recovers s u cause := by
  intro hen
  rw [hr, hc, hl]
  exact h hen

/-- The page read of the wake's own run falls due, or the decision has no need of it; then waiting work goes on. -/
def afterExit (z : State) (w : Wake) (inL0 : Bool) : State := if w.w7 then z else pageDue (selfEpoch z) (inL0 && z.mem.dlUp)

theorem l0Row_of_wake {w : Wake} (hw : s.pwr.wake = some w) (h5 : w.w5 = false) (b : Bool) :
    l0Row s b = settle (afterExit (exited s b) w b) := by
  rw [l0Row, hw]
  exact if_neg (by simp [h5])

theorem exec_l12ExitDone {w : Wake} (hs : s.up) (hw : s.pwr.wake = some w) (h5 : w.w5 = false) (b : Bool) :
    exec (.l12ExitDone b) s = .next (settle (afterExit (exited s b) w b)) := by
  have hon : isOn s = true := by simp [isOn, hs.2]
  rw [← l0Row_of_wake hw h5]
  exact (guarded_of_defined hs.1 _).trans (congrArg _ (if_pos hon))

/-- The page read is the engine's alone. -/
theorem afterExit_eq (z : State) (w : Wake) (b : Bool) : ∃ e, afterExit z w b = { z with eng := e } := by
  unfold afterExit
  split
  · exact ⟨z.eng, rfl⟩
  · exact ⟨_, rfl⟩

theorem setWake_eq {w : Wake} (hw : s.pwr.wake = some w) (f : Wake → Wake) :
    setWake s f = { s with pwr := { s.pwr with wake := some (f w) } } := by
  rw [setWake, hw]
  rfl

/-- A link in L0: the page read falls due. -/
theorem l12Exit_in_L0 {w : Wake} (hw : s.pwr.wake = some w) (hd : s.mem.dlUp = true) :
    let z := { s with pwr := { s.pwr with wake := some { w with w5 := true } }, mem := { s.mem with pstate := 0 } }
    afterExit (exited s true) w true = if w.w7 then z else pageDue (selfEpoch z) true := by
  intro z
  have hz : exited s true = z := by
    unfold exited
    rw [setWake_eq hw]
    rfl
  rw [hz, afterExit, show z.mem.dlUp = true from hd]
  rfl

theorem exited_pwr {w : Wake} (hw : s.pwr.wake = some w) (hd : s.mem.dlUp = true) (b : Bool) :
    (exited s b).pwr = { s.pwr with wake := some { w with w5 := true } } := by
  have hs : (setWake s fun w => { w with w5 := true }).pwr = { s.pwr with wake := some { w with w5 := true } } :=
    congrArg State.pwr (setWake_eq hw _)
  cases b
  · exact (linkLost_samePower (s := setWake s _) hd).pwr.trans hs
  · exact hs

theorem exited_dlUp (hd : s.mem.dlUp = true) (b : Bool) : (exited s b).mem.dlUp = b := by
  cases b
  · exact (linkLost_samePower (s := setWake s _) hd).dlUp
  · exact hd

/-- Recovery keeps the registers, the Vault and the clocks. -/
theorem exited_kept (hd : s.mem.dlUp = true) (b : Bool) : kept s (exited s b) := by
  cases b
  · have hc : Calm (fun _ => True) s (exited s false) := linkLost_calm (setWake_calm _ (.refl s))
    exact ⟨hc.regs trivial, (linkLost_samePower (s := setWake s _) hd).vlt, hc.clk trivial⟩
  · exact ⟨rfl, rfl, rfl⟩

/-- What the L1.2 exit leaves once waiting work has gone on. -/
theorem l12Exit_frame {w : Wake} (hw : s.pwr.wake = some w) (hd : s.mem.dlUp = true) (b : Bool) :
    let t := settle (afterExit (exited s b) w b)
    kept s t ∧ t.pwr = { s.pwr with wake := some { w with w5 := true } } ∧ t.mem.dlUp = b ∧ (b = false → recovers s t 3) := by
  intro t
  have hx : Ext (afterExit (exited s b) w b) t := settle_extends _
  have hmem : settleFixed t = settleFixed (afterExit (exited s b) w b) := hx.fixed
  obtain ⟨e, he⟩ := afterExit_eq (exited s b) w b
  rw [he] at hx hmem
  refine ⟨hx.keeps (exited_kept hd b), hx.pwr.trans (exited_pwr hw hd b), ?_, ?_⟩
  · exact (congrArg (fun x => x.mem.dlUp) hmem).trans (exited_dlUp hd b)
  · rintro rfl
    exact (linkLost_recovers (s := setWake s _) hd).of_same (congrArg (fun x => x.mem.recov) hmem) (congrArg (fun x => x.mem.cause) hmem)
      (hx.counts cntRecov (by decide))

end

/-! ## Class-0-ready (15 R364 W8, R367; 19 R426) -/

theorem setBit_at {w : Nat} (x : BitVec w) {i : Nat} (hi : i < w) (b : Bool) : (setBit x i b).getLsbD i = b := by
  cases b
  · exact getLsbD_setBit_false x i
  · exact getLsbD_setBit_self x i hi

theorem setBit_other {w : Nat} (x : BitVec w) {i j : Nat} (b : Bool) (h : i ≠ j) : (setBit x i b).getLsbD j = x.getLsbD j := by
  by_cases hj : j < w
  · cases b <;> simp [setBit, getElem_bit, hj, h]
  · simp [BitVec.getLsbD_of_ge _ _ (Nat.not_lt.1 hj)]

/-- Events were added to those of the engine, and it is else as it was. -/
def Reports (a s : Eng) : Prop := ∃ l, s = { a with events := a.events ++ l }

theorem Reports.refl (a : Eng) : Reports a a := ⟨[], by rw [List.append_nil]⟩

theorem Reports.trans {a b c : Eng} (h : Reports a b) (g : Reports b c) : Reports a c := by
  obtain ⟨l, rfl⟩ := h
  obtain ⟨m, rfl⟩ := g
  exact ⟨l ++ m, by simp only [List.append_assoc]⟩

section
variable (s : State) (k : Nat)

/-- A pin that differs from the level last sampled acts; the other pins do nothing. -/
theorem sampleRsns_cases : let pin := s.bus.rsnsPin.getLsbD k
    (pin = true ∧ sampleRsns s k = resetSense s k) ∨ (pin = false ∧ sampleRsns s k = resetEnd s k) ∨
      (pin = inReset s k ∧ sampleRsns s k = s) := by
  intro pin
  cases hp : pin <;> cases hi : inReset s k <;> simp [sampleRsns, show s.bus.rsnsPin.getLsbD k = _ from hp, hi]

theorem resetEnd_rsns : (resetEnd s k).bus.rsns = setBit s.bus.rsns k false := by unfold resetEnd; split <;> rfl
theorem resetEnd_rsnsPin : (resetEnd s k).bus.rsnsPin = s.bus.rsnsPin := by unfold resetEnd; split <;> rfl
theorem resetEnd_eng : (resetEnd s k).eng = s.eng := by unfold resetEnd; split <;> rfl

/-- The port takes the level of the pin. -/
theorem sampleRsns_rsns : (sampleRsns s k).bus.rsns = setBit s.bus.rsns k (s.bus.rsnsPin.getLsbD k) := by
  obtain ⟨hp, h⟩ | ⟨hp, h⟩ | ⟨hp, h⟩ := sampleRsns_cases s k
  · rw [h, hp, resetSense_rsns]
  · rw [h, hp, resetEnd_rsns]
  · rw [h, hp]
    exact (setBit_getLsbD ..).symm

theorem sampleRsns_rsnsPin : (sampleRsns s k).bus.rsnsPin = s.bus.rsnsPin := by
  obtain ⟨-, h⟩ | ⟨-, h⟩ | ⟨-, h⟩ := sampleRsns_cases s k
  · rw [h, resetSense_rsnsPin]
  · rw [h, resetEnd_rsnsPin]
  · rw [h]

theorem event_reports (b c : Nat) (p : BitVec 384) : Reports s.eng (event s b c p).eng := by
  unfold event
  split
  · exact ⟨_, rfl⟩
  · exact .refl _

theorem breakLock_reports (cb cause : Nat) : Reports s.eng (breakLock s k cb cause).eng := by
  rw [breakLock, raiseInt_eng]
  exact event_reports ..

/-- Reset sense has no more to report than a broken lock. -/
theorem resetSense_reports : Reports s.eng (resetSense s k).eng := by
  obtain ⟨r, e, h⟩ := resetSense_eq s k
  have hsil : (silencedBy s k r e).eng = s.eng := setPort_eng ..
  rw [h, ← hsil]
  split
  · obtain h | ⟨cb, h⟩ := dropAgent_eq (silencedBy s k r e) k
    · rw [h]
      exact .refl _
    · rw [h]
      exact breakLock_reports (ackAll (silencedBy s k r e) k true _) ..
  · exact .refl _

theorem sampleRsns_reports : Reports s.eng (sampleRsns s k).eng := by
  obtain ⟨-, h⟩ | ⟨-, h⟩ | ⟨-, h⟩ := sampleRsns_cases s k
  · rw [h]
    exact resetSense_reports s k
  · rw [h, resetEnd_eng]
    exact .refl _
  · rw [h]
    exact .refl _

variable {s} {a : State}

theorem dropAgent_samePower (h : SamePower a s) : SamePower a (dropAgent s k) := by
  unfold dropAgent
  split
  · exact breakLock_samePower _ _ _ h.upd
  · exact h.upd

theorem silencedBy_samePower (l : List Req) (e : List Entry) (h : SamePower a s) : SamePower a (silencedBy s k l e) :=
  h.upd (setPort_pwr ..) (setPort_vlt ..) (congrArg Mem.dlUp (setPort_mem ..))

theorem sampleRsns_samePower (h : SamePower a s) : SamePower a (sampleRsns s k) := by
  refine .ite ?_ (.ite (.ite h.upd h.upd) h)
  obtain ⟨l, e, he⟩ := resetSense_eq s k
  rw [he]
  exact .ite (dropAgent_samePower k (silencedBy_samePower k l e h)) (silencedBy_samePower k l e h)

end

/-- The first `n` pins sampled: each of these requesters is in reset sense as its pin says. The engine has at most gained events, and
the power state, the Vault, the registers and the clocks are kept. -/
structure PinsTaken (n : Nat) (a s : State) : Prop where
  pins : s.bus.rsnsPin = a.bus.rsnsPin
  taken : ∀ k, k < n → inReset s k = a.bus.rsnsPin.getLsbD k
  reports : Reports a.eng s.eng
  power : SamePower a s
  calm : Calm (fun _ => True) a s

theorem pinsTaken_range (a : State) {n : Nat} (hn : n ≤ 12) : PinsTaken n a ((List.range n).foldl sampleRsns a) := by
  induction n with
  | zero => exact ⟨rfl, nofun, .refl _, .refl a, .refl a⟩
  | succ n ih =>
    rw [List.range_succ, List.foldl_append]
    obtain ⟨hpins, htaken, hreports, hpower, hcalm⟩ := ih (Nat.le_of_succ_le hn)
    generalize (List.range n).foldl sampleRsns a = s at *
    refine ⟨(sampleRsns_rsnsPin s n).trans hpins, fun k hk => ?_, hreports.trans (sampleRsns_reports s n), sampleRsns_samePower n hpower,
      sampleRsns_calm n hcalm⟩
    show inReset (sampleRsns s n) k = _
    rw [inReset, sampleRsns_rsns, hpins]
    obtain rfl | hne := eq_or_ne n k
    · exact setBit_at _ hn _
    · rw [setBit_other _ _ hne]
      exact htaken k (by omega)

/-- The wake is over once class-0-ready and full ready have both come. -/
theorem wakeOver_pwr (s : State) : (wakeOver s).pwr =
    if s.pwr.c0Rdy && s.pwr.fullRdy then { s.pwr with st := .run, wake := none } else s.pwr := by
  unfold wakeOver
  split <;> rfl

theorem wakeOver_eq (s : State) : ∃ p, wakeOver s = { s with pwr := p } := by
  unfold wakeOver
  split
  · exact ⟨_, rfl⟩
  · exact ⟨s.pwr, rfl⟩

theorem event_of_runs {s : State} (h : s.eng.eqRuns = true) (b c : Nat) (p : BitVec 384) : (event s b c p).eng = { s.eng with
    events := s.eng.events ++ [{ block := BitVec.ofNat 4 b, code := BitVec.ofNat 16 c, tick := tickCnt s, payload := p }] } := by
  unfold event
  rw [if_pos h]

section
variable {s : State}

/-- The pins of a part that has come to class-0-ready are sampled. -/
def pinsSampled (s : State) : State := (List.range 12).foldl sampleRsns { s with pwr := { s.pwr with c0Rdy := true } }

theorem exec_class0Ready {w : Wake} (hs : s.up) (us : BitVec 16) (hw : s.pwr.wake = some w) (h3 : w.w3 = true) (h4 : w.w4 = true)
    (h7 : w.w7 = true) (hc : s.pwr.c0Rdy = false) :
    exec (.class0Ready us) s = .next (settle (wakeOver (event (pinsSampled s) 11 2 (payload [(16, us.toNat)])))) := by
  have hdue : class0Due s = true := by simp [class0Due, hw, h3, h4, h7, hc]
  exact (guarded_of_defined hs.1 _).trans (congrArg _ (if_pos (by simp [isOn, hs.2, hdue])))

/-- The pins sampled, class-0-ready is reported, and ends the wake if full ready came before. -/
theorem class0Ready_frame {z : State} (hz : PinsTaken 12 { s with pwr := { s.pwr with c0Rdy := true } } z) (p : BitVec 384) :
    let t := settle (wakeOver (event z 11 2 p))
    kept s t ∧
    t.pwr = (if s.pwr.fullRdy then { s.pwr with c0Rdy := true, st := .run, wake := none } else { s.pwr with c0Rdy := true }) ∧
    (s.eng.eqRuns = true → ∃ l e, s.eng.events ++ l ++ [e] <+: t.eng.events ∧ e.block = 11 ∧ e.code = 2) ∧
    ∀ k, k < 12 → inReset t k = s.bus.rsnsPin.getLsbD k := by
  intro t
  obtain ⟨-, htaken, ⟨l, hl⟩, hpower, hcalm⟩ := hz
  have hx : Ext (wakeOver (event z 11 2 p)) t := settle_extends _
  obtain ⟨w, hw⟩ := wakeOver_eq (event z 11 2 p)
  have hpwr : (event z 11 2 p).pwr = { s.pwr with c0Rdy := true } := (event_pwr ..).trans hpower.pwr
  have hcfg : (event z 11 2 p).cfg = z.cfg := event_cfg ..
  have hvlt : (event z 11 2 p).vlt = z.vlt := event_vlt ..
  have hclk : (event z 11 2 p).clk = z.clk := event_clk ..
  refine ⟨hx.keeps ?_, ?_, fun hr => ?_, fun k hk => ?_⟩
  · rw [hw]
    exact ⟨(congrArg Cfg.regs hcfg).trans (hcalm.regs trivial), hvlt.trans hpower.vlt, hclk.trans (hcalm.clk trivial)⟩
  · rw [hx.pwr, wakeOver_pwr, hpwr]
    rfl
  · have hruns : z.eng.eqRuns = true := by rw [hl]; exact hr
    have he := hx.events
    rw [hw] at he
    rw [event_of_runs hruns, hl] at he
    exact ⟨l, _, he, rfl, rfl⟩
  · rw [inReset, hx.rsns, hw]
    exact (congrArg (fun b => b.rsns.getLsbD k) (event_bus ..)).trans (htaken k hk)

end

/-! ## Full ready (15 R364 W10, R367, R368) -/

/-- The wake's run of WAKE_EPOCH may have ended: the power state, the Vault, the clocks and the event queue are as they were. -/
structure OwnOver (s z : State) : Prop where
  pwr : z.pwr = s.pwr
  vlt : z.vlt = s.vlt
  clk : z.clk = s.clk
  events : z.eng.events = s.eng.events
  eqRuns : z.eng.eqRuns = s.eng.eqRuns

section
variable {s : State}

/-- The final entry of the wake's own run while the engine is on; else it waits, or goes (15 R368). -/
theorem queueEntry_own {s : State} {d : CEntry} : ∃ g, queueEntry s d = { s with eng := g } ∧ g.events = s.eng.events ∧
    g.eqRuns = s.eng.eqRuns ∧ (s.eng.en = true → g.cents = s.eng.cents ++ [d]) := by
  unfold queueEntry
  split
  · next h =>
    have hoff : s.eng.en ≠ true := by
      simp only [Bool.and_eq_true, Bool.not_eq_true'] at h
      simp [h.2]
    split
    · exact ⟨s.eng, rfl, rfl, rfl, fun hen => absurd hen hoff⟩
    · exact ⟨_, rfl, rfl, rfl, fun hen => absurd hen hoff⟩
  · exact ⟨_, rfl, rfl, rfl, fun _ => rfl⟩

/-- The entry says that the wake's own run `x` has ended, whatever its outcome. -/
def ownDone (x : Running) (d : CEntry) : Prop := d.typ = 3 ∧ d.ring = 4 ∧ d.status = 0 ∧ d.cmdId = x.cmdId

theorem finishRun_own (s : State) (x : Running) : ∃ g c d, finishRun s 4 x 0 = { s with eng := g, cch := c } ∧
    g.events = s.eng.events ∧ g.eqRuns = s.eng.eqRuns ∧ (s.eng.en = true → g.cents = s.eng.cents ++ [d]) ∧ ownDone x d := by
  let d : CEntry := { runEntry s 4 x 3 0 1024 with final := true, irq := x.irq, durable := x.opcode == 6 || (x.opcode == 7 && x.repair) }
  obtain ⟨g, hq, hev, hrun, hc⟩ := queueEntry_own (s := s) (d := d)
  let g2 : Eng := { g with rings := updAt g.rings 4 fun r => { r with run := none } }
  have hu : updRing { s with eng := g } 4 (fun r => { r with run := none }) = { s with eng := g2 } := rfl
  have hd : ownDone x d := ⟨rfl, rfl, rfl, rfl⟩
  simp only [finishRun, ↓reduceIte, ne_eq, not_true_eq_false, decide_false, Bool.or_false]
  rw [hq, hu]
  split
  · split
    · exact ⟨{ g2 with epoch := none }, { s.cch with filter := [], walked := 0 }, d, rfl, hev, hrun, hc, hd⟩
    · exact ⟨g2, s.cch, d, rfl, hev, hrun, hc, hd⟩
  · exact ⟨g2, s.cch, d, rfl, hev, hrun, hc, hd⟩

theorem applyEpoch_eng (s : State) (e : Epoch) : (applyEpoch s e).eng = s.eng := by unfold applyEpoch; split <;> rfl

theorem ownEnd_none (h : ownEpoch s = none) : ownEnd s = s := by
  rw [ownEnd, h]

theorem ownEnd_some {e : Epoch} {x : Running} (h : ownEpoch s = some e) (hr : getRun s 4 = some x) :
    ∃ g c d, ownEnd s = { applyEpoch s e with eng := g, cch := c } ∧ g.events = s.eng.events ∧ g.eqRuns = s.eng.eqRuns ∧
      (s.eng.en = true → g.cents = s.eng.cents ++ [d]) ∧ ownDone x d := by
  obtain ⟨g, c, d, hz, hev, hrun, hc, hd⟩ := finishRun_own (applyEpoch s e) x
  rw [applyEpoch_eng] at hev hrun hc
  refine ⟨{ g with buffer := none, walker := none }, c, d, ?_, hev, hrun, hc, hd⟩
  rw [ownEnd, h, hr]
  simp only [hz]

theorem ownEnd_over (s : State) : OwnOver s (ownEnd s) := by
  have same : OwnOver s s := ⟨rfl, rfl, rfl, rfl, rfl⟩
  cases he : ownEpoch s with
  | none => rwa [ownEnd_none he]
  | some e =>
    cases hr : getRun s 4 with
    | none => rwa [ownEnd, he, hr]
    | some x =>
      obtain ⟨g, c, d, hz, hev, hrun, -⟩ := ownEnd_some he hr
      rw [hz]
      unfold applyEpoch
      split <;> exact ⟨rfl, rfl, rfl, hev, hrun⟩

/-- Full ready, reported from the state `z` in which the wake's run is over. -/
def fullSaid (z : State) (p : BitVec 384) : State :=
  wakeOver (raiseInt (event { z with pwr := { z.pwr with fullRdy := true } } 11 3 p) srcPwr)

theorem exec_fullReady (hs : s.up) (us : BitVec 16) (hd : fullDue s = true) :
    ∃ p, exec (.fullReady us) s = .next (settle (fullSaid (ownEnd s) p)) :=
  ⟨_, (guarded_of_defined hs.1 _).trans (congrArg _ (if_pos (by simp [isOn, hs.2, hd])))⟩

/-- The state that reports full ready, but for the power state and the engine's events, is `z` with the source raised. -/
theorem fullSaid_eq (z : State) (p : BitVec 384) : ∃ w g, fullSaid z p = { raiseInt z srcPwr with pwr := w, eng := g } := by
  unfold fullSaid event
  split
  · obtain ⟨w, hw⟩ := wakeOver_eq (raiseInt _ srcPwr)
    exact ⟨w, _, hw⟩
  · obtain ⟨w, hw⟩ := wakeOver_eq (raiseInt { z with pwr := { z.pwr with fullRdy := true } } srcPwr)
    exact ⟨w, z.eng, hw⟩

theorem fullSaid_pwr (z : State) (p : BitVec 384) : (fullSaid z p).pwr =
    if z.pwr.c0Rdy then { z.pwr with fullRdy := true, st := .run, wake := none } else { z.pwr with fullRdy := true } := by
  rw [fullSaid, wakeOver_pwr, raiseInt_pwr, event_pwr, Bool.and_true]

theorem fullSaid_eng (z : State) (p : BitVec 384) :
    (fullSaid z p).eng = (event { z with pwr := { z.pwr with fullRdy := true } } 11 3 p).eng := by
  unfold fullSaid
  obtain ⟨w, hw⟩ := wakeOver_eq (raiseInt (event { z with pwr := { z.pwr with fullRdy := true } } 11 3 p) srcPwr)
  rw [hw]
  rfl

theorem fullReady_frame {z : State} (hz : OwnOver s z) (p : BitVec 384) : let t := settle (fullSaid z p)
    t.vlt = s.vlt ∧ t.clk = s.clk ∧
    t.pwr = (if s.pwr.c0Rdy then { s.pwr with fullRdy := true, st := .run, wake := none } else { s.pwr with fullRdy := true }) ∧
    t.err.intStatus.getLsbD srcPwr = true ∧
    (s.eng.eqRuns = true → ∃ e, s.eng.events ++ [e] <+: t.eng.events ∧ e.block = 11 ∧ e.code = 3) := by
  intro t
  have hx : Ext (fullSaid z p) t := settle_extends _
  obtain ⟨w, g, he⟩ := fullSaid_eq z p
  refine ⟨hx.vlt.trans ?_, hx.clk.trans ?_, ?_, hx.ints srcPwr ?_, fun hr => ?_⟩
  · rw [he]
    exact hz.vlt
  · rw [he]
    exact hz.clk
  · rw [hx.pwr, fullSaid_pwr, hz.pwr]
  · rw [he]
    exact getLsbD_setBit_self _ _ (by decide)
  · have hev := hx.events
    rw [fullSaid_eng, event_of_runs (s := { z with pwr := { z.pwr with fullRdy := true } }) (hz.eqRuns.trans hr)] at hev
    exact ⟨_, hz.events ▸ hev, rfl, rfl⟩

/-- Full ready leaves the registers and SEEN as the wake's run left them, and keeps the entries that it queued. -/
theorem fullReady_keeps (z : State) (p : BitVec 384) : let t := settle (fullSaid z p)
    t.cfg.regs = z.cfg.regs ∧ t.mem.seen = z.mem.seen ∧ (∀ off, reg t off = reg z off) ∧ z.eng.cents <+: t.eng.cents := by
  intro t
  have hx : Ext (fullSaid z p) t := settle_extends _
  obtain ⟨w, g, he⟩ := fullSaid_eq z p
  have hcents : (fullSaid z p).eng.cents = z.eng.cents := by
    rw [fullSaid_eng]
    obtain ⟨l, hl⟩ := event_reports { z with pwr := { z.pwr with fullRdy := true } } 11 3 p
    rw [hl]
  have hregs : t.cfg.regs = z.cfg.regs := (hx.cfg Cfg.regs).trans (by rw [he]; rfl)
  have hseen : t.mem.seen = (fullSaid z p).mem.seen := congrArg (fun x => x.mem.seen) hx.fixed
  refine ⟨hregs, hseen.trans (by rw [he]; rfl), fun off => congrArg (mget resetVal · off) hregs, hcents ▸ hx.cents⟩

/-- SEEN takes the page's epoch, in the port and in its two registers (12 R301). -/
theorem applyEpoch_seen (s : State) {e : Epoch} (h : e.failed = false) : (applyEpoch s e).mem.seen = e.epochV ∧
    reg (applyEpoch s e) 0x8030 = e.epochV.extractLsb' 0 32 ∧ reg (applyEpoch s e) 0x8034 = e.epochV.extractLsb' 32 32 := by
  have hp : applyEpoch s e = putSeen s e.epochV := if_neg (by simp [h])
  have hlo : storedMask 0x8030 = BitVec.allOnes 32 := by decide
  have hhi : storedMask 0x8034 = BitVec.allOnes 32 := by decide
  rw [hp]
  refine ⟨rfl, ?_, ?_⟩
  · refine (reg_regPut_ne _ _ (by decide)).trans ((reg_regPut_self ..).trans ?_)
    exact hlo ▸ BitVec.and_allOnes
  · exact (reg_regPut_self ..).trans (hhi ▸ BitVec.and_allOnes)

/-- What the end of the wake's own run leaves: SEEN, unless the run has failed, and its entry, while the engine is on. -/
theorem ownEnd_leaves {e : Epoch} {x : Running} (h : ownEpoch s = some e) (hr : getRun s 4 = some x) :
    (if e.failed then (ownEnd s).mem.seen = s.mem.seen else (ownEnd s).mem.seen = e.epochV ∧
      reg (ownEnd s) 0x8030 = e.epochV.extractLsb' 0 32 ∧ reg (ownEnd s) 0x8034 = e.epochV.extractLsb' 32 32) ∧
    (s.eng.en = true → ∃ d, (ownEnd s).eng.cents = s.eng.cents ++ [d] ∧ ownDone x d) := by
  obtain ⟨g, c, d, hz, -, -, hc, hd⟩ := ownEnd_some h hr
  rw [hz]
  refine ⟨?_, fun hen => ⟨d, hc hen, hd⟩⟩
  split
  · next hf => exact congrArg (·.mem.seen) (show applyEpoch s e = s from if_pos hf)
  · next hf => exact applyEpoch_seen s (Bool.not_eq_true _ ▸ hf)

end

/-- Settles O58: the wake's relock by `startTick_relocked`, the L1.2 exit by `l12Exit_frame`, class-0-ready by `class0Ready_frame` and full
ready by `fullReady_frame`, the end of the wake's own run among it. -/
theorem wakeEnds : Obligations.WakeEnds := by
  refine ⟨fun s w hs hw h3 hr hx => ⟨_, exec_relockComplete_of_wake hs hw h3 hr hx, startTick_relocked hw⟩,
    fun s w hs _ hw h5 hd => ⟨⟨_, exec_l12ExitDone hs hw h5 true, ?_⟩, ⟨_, exec_l12ExitDone hs hw h5 false, ?_⟩⟩,
    fun s w us hs hw h3 h4 h7 hc => ⟨_, exec_class0Ready hs us hw h3 h4 h7 hc, class0Ready_frame (pinsTaken_range _ (Nat.le_refl 12)) _⟩,
    fun s us hs _ hd => ?_, fun s hs hw => ⟨fun us => ?_, fun us => ?_⟩⟩
  · obtain ⟨hk, hp, hu, -⟩ := l12Exit_frame hw hd true
    exact ⟨hk, hp, hu, l12Exit_in_L0 hw hd ▸ settle_extends _⟩
  · obtain ⟨hk, hp, hu, hrec⟩ := l12Exit_frame hw hd false
    exact ⟨hk, hp, hu, hrec rfl⟩
  · obtain ⟨p, hexec⟩ := exec_fullReady hs us hd
    obtain ⟨hvlt, hclk, hpwr, hint, hev⟩ := fullReady_frame (ownEnd_over s) p
    obtain ⟨hregs, hseen, hreg, hcents⟩ := fullReady_keeps (ownEnd s) p
    refine ⟨_, hexec, hvlt, hclk, hpwr, hint, hev, fun hn => ?_, fun e x he hr => ?_⟩
    · have hz := ownEnd_none hn
      exact ⟨hregs.trans (congrArg (·.cfg.regs) hz), hseen.trans (congrArg (·.mem.seen) hz)⟩
    · obtain ⟨hepoch, hcent⟩ := ownEnd_leaves he hr
      rw [hseen, hreg, hreg]
      refine ⟨hepoch, fun hen => ?_⟩
      obtain ⟨d, hc, hd⟩ := hcent hen
      exact ⟨d, hc ▸ hcents, hd⟩
  · exact (guarded_of_defined hs.1 _).trans (congrArg _ (if_neg (by simp [class0Due, hw])))
  · exact (guarded_of_defined hs.1 _).trans (congrArg _ (if_neg (by simp [fullDue, hw])))

end Sys2Proof.Machine

/-! SUPPORT. Proofs of the statements of `09_command_engine.md` about units and entries: RESTRENGTH and VERIFY, descriptor reads, and the
entries of the completion and event rings. -/

namespace Sys2Proof.Machine
set_option Elab.async false

/-! ## The next unit of RESTRENGTH and of VERIFY -/

/-- The pipeline's turn leaves the command whose unit it takes. -/
theorem stepOp_finds {s z : State} {n k c op : Nat} {x : Running} (hd : stepDue s n op = some x) (ht : turn s (.step n) k = some (z, c)) :
    (getRun z n).map (·.opcode) = some op ∧ stepDue z n op = some x ∧ getRun z n = some x := by
  obtain ⟨q, rfl⟩ := turn_eq ht
  obtain ⟨hrun, hop⟩ := getRun_of_stepDue hd
  exact ⟨(congrArg _ hrun).trans (congrArg some hop), hd, hrun⟩

section
variable {s z : State} {n : Fin 4} {c : Nat} {x : Running} (hs : s.up) (ht : turn s (.step n) 1 = some (z, c))
include hs ht

theorem exec_restrength (hd : stepDue s n 6 = some x) : exec (.restrength n) s = .next (settle (restrengthStep z n x)) := by
  refine (guarded_of_defined hs.1 fun s => unitRow s n 6 1).trans (congrArg _ ?_)
  obtain ⟨hop, hdue, -⟩ := stepOp_finds hd ht
  rw [unitRow_of_turn hd ht]
  simp only [stepOp, hop, hdue, Option.elim_some]

theorem exec_verify (hd : stepDue s n 7 = some x) : exec (.verify n) s = .next (settle (verifyStep z n x)) := by
  refine (guarded_of_defined hs.1 fun s => unitRow s n 7 1).trans (congrArg _ ?_)
  obtain ⟨hop, hdue, -⟩ := stepOp_finds hd ht
  rw [unitRow_of_turn hd ht]
  simp only [stepOp, hop, hdue, Option.elim_some]

end

/-! ### The entry that a unit rewrites (09 R228 step 1) -/

/-- The open entry as a rewriting unit leaves it: it is being fetched, to drain at the unit's strength. -/
def rewritten (n u : Nat) (str : BitVec 3) (cls : Nat) (e : Entry) : Entry :=
  holdMark { e with str := str, rewrite := some (n, u), rcls := cls, contrib := setBit e.contrib 12 true }

section
variable {s : State} (n u cb : Nat) (str : BitVec 3) (cls : Nat) (cacheable : Bool)

theorem beginRewrite_eq : beginRewrite s n u cb str cls cacheable =
    updEntry (allocEntry s false cb str cls cacheable).1 (allocEntry s false cb str cls cacheable).2 (rewritten n u str cls) := rfl

theorem allocEntry_eng (nt : Bool) : (allocEntry s nt cb str cls cacheable).1.eng = s.eng := by
  unfold allocEntry
  split <;> rfl

theorem allocEntry_opens (nt : Bool) : ∃ e, openEntry (allocEntry s nt cb str cls cacheable).1 cb = some e ∧
    (allocEntry s nt cb str cls cacheable).2 = e.id := by
  unfold allocEntry
  cases h : openEntry s cb with
  | some e => exact ⟨e, h, rfl⟩
  | none => exact ⟨_, find?_append_new h (beq_self_eq_true _), rfl⟩

theorem beginRewrite_eng : (beginRewrite s n u cb str cls cacheable).eng = s.eng := by
  rw [beginRewrite_eq, updEntry_eng, allocEntry_eng]

theorem beginRewrite_ext {a : State} (h : Ext a s) : Ext a (beginRewrite s n u cb str cls cacheable) :=
  updEntry_ext _ _ (allocEntry_ext _ _ _ _ _ h)

theorem beginRewrite_opens : ∃ e, openEntry (beginRewrite s n u cb str cls cacheable) cb = some (rewritten n u str cls e) := by
  obtain ⟨e, he, hid⟩ := allocEntry_opens (s := s) cb str cls cacheable false
  rw [beginRewrite_eq, hid]
  exact ⟨e, openEntry_updEntry (rewritten n u str cls) (fun _ => rfl) he⟩

end

/-! ### RESTRENGTH (09 R228) -/

/-- The window with one codeblock more under way. -/
def windowTakes (s : State) (w : Window) (cb : Nat) : State :=
  { s with eng := { s.eng with window := some { w with busy := w.busy ++ [cb] } } }

/-- Unit `u` of RESTRENGTH, admitted and issued, with its codeblock busy. -/
def restrengthIssued (s : State) (n u : Nat) (attr : Reg32) (w : Window) (cb : Nat) : State :=
  issueUnit (windowTakes (admitUnit s n u attr).1 w cb) n

section
variable {s : State} {n cb : Nat} {x : Running} {w : Window} {attr : Reg32}

theorem restrengthIssued_ext (u : Nat) : Ext s (restrengthIssued s n u attr w cb) := by
  have ha : Ext s (admitUnit s n u attr).1 := admitUnit_ext _ _ _ (Ext.refl s)
  exact issueUnit_ext _ { ha with }

theorem runTally_restrengthIssued (u : Nat) (hr : getRun s n = some x) (hst : x.stop = none) :
    runTally (restrengthIssued s n u attr w cb) n = some (x.issued + 1, x.doneN, x.count0, x.count1, none) := by
  have hadmit : runTally (windowTakes (admitUnit s n u attr).1 w cb) n = runTally (admitUnit s n u attr).1 n := rfl
  rw [restrengthIssued, runTally_issueUnit, hadmit, runTally_admitUnit s n u attr hr hst]
  rfl

/-- A unit with room for its entry takes it. -/
theorem restrengthStep_takes (hlt : x.issued < x.total) (hb : unitBlock s x x.issued = some (attr, cb)) (hw : s.eng.window = some w)
    (hroom : rewriteRoom s cb (admitUnit s n x.issued attr).2 = true) (hfree : windowBusy s cb = false) :
    restrengthStep s n x = beginRewrite (restrengthIssued s n x.issued attr w cb) n x.issued cb w.new
      (unitClass n attr (admitUnit s n x.issued attr).2) (attrCacheable attr) := by
  simp only [restrengthStep, if_neg (Nat.not_le.2 hlt), hb, hw, hroom, hfree, Bool.not_true, Bool.or_self, Bool.false_eq_true, if_false]
  rfl

end

/-! ### VERIFY (09 R230) -/

/-- What the handlers read: what each is held for, its codeblock, and the strength to decode it at. -/
def handlerReads (s : State) : List (HKind × Nat × BitVec 3) := s.cch.handlers.map fun h => (h.kind, h.cb, h.str)

/-- The engine, and what the handlers read, are as they were. -/
structure SameReads (s t : State) : Prop where
  eng   : t.eng = s.eng
  reads : handlerReads t = handlerReads s

section
variable {s t : State}

theorem SameReads.refl (s : State) : SameReads s s := ⟨rfl, rfl⟩

theorem SameReads.trans {z : State} (h : SameReads s t) (g : SameReads t z) : SameReads s z := ⟨g.eng.trans h.eng, g.reads.trans h.reads⟩

theorem captureWseq_reads (s : State) (o : ReadOwner) : SameReads s (captureWseq s o) := by
  unfold captureWseq
  split
  · exact ⟨rfl, map_updIf _ _ _ _ fun _ _ => rfl⟩
  · exact ⟨rfl, rfl⟩
  · exact .refl s

theorem sendTlp_reads (s : State) (p : Tlp) : SameReads s (sendTlp s p) := by
  unfold sendTlp
  split
  · exact ⟨rfl, rfl⟩
  · exact .refl s

theorem sendRead_reads (s : State) (m : MRead) (tag : Nat) : SameReads s (sendRead s m tag) := by
  unfold sendRead
  refine .trans ?_ (sendTlp_reads _ _)
  refine .trans ?_ (captureWseq_reads _ _)
  exact ⟨rfl, rfl⟩

theorem sendReads_reads (k : Nat) (s : State) : SameReads s (sendReads k s) := by
  induction k generalizing s with
  | zero => exact .refl s
  | succ k ih =>
    unfold sendReads
    split
    · exact .refl s
    · split
      · exact .refl s
      · refine .trans ?_ (ih _)
        refine .trans ?_ (sendRead_reads _ _ _)
        exact ⟨rfl, rfl⟩

theorem askRead_reads (s : State) (o : ReadOwner) (addr bytes cls : Nat) : SameReads s (askRead s o addr bytes cls) := by
  refine .trans ?_ (sendReads_reads 1 _)
  exact ⟨rfl, rfl⟩

theorem askBlock_reads (s : State) (o : Bool → ReadOwner) (cb cls : Nat) : SameReads s (askBlock s o cb cls) :=
  (askRead_reads ..).trans (askRead_reads ..)

/-- The read of a unit: a handler more, and the engine as it was. -/
theorem unitRead_reads (s : State) (n u cb : Nat) (str : BitVec 3) (cls : Nat) (cacheable : Bool) (i : Nat) :
    (unitRead s n u cb str cls cacheable i).eng = s.eng ∧
      handlerReads (unitRead s n u cb str cls cacheable i) = handlerReads s ++ [(.unit n u, cb, str)] := by
  have added (h : Handler) : handlerReads (addHandler s h) = handlerReads s ++ [(h.kind, h.cb, h.str)] := List.map_append
  unfold unitRead readFor
  dsimp only
  split
  · exact ⟨rfl, added _⟩
  · split
    · exact ⟨rfl, added _⟩
    · obtain ⟨heng, hreads⟩ := askBlock_reads (addHandler s { newHandler i (.unit n u) cb 12 str (cls == 0) cls [] with cacheable := cacheable })
        (.handler i) cb (portClass (cls == 0) cls)
      exact ⟨heng, hreads.trans (added _)⟩

end

section
variable {s : State} {n i : Nat} {x : Running} {attr : Reg32} (u : Nat)

theorem unitHandlers_issueUnit (s : State) (n : Nat) : unitHandlers (issueUnit s n) n = unitHandlers s n := by
  rw [unitHandlers, unitWaits_issueUnit]
  rfl

theorem unitHandlers_admitUnit (attr : Reg32) (hr : getRun s n = some x) : unitHandlers (admitUnit s n u attr).1 n = unitHandlers s n := by
  rw [← unitHandlers_issueUnit]
  exact unitHandlers_issuedUnit u attr hr

theorem admitUnit_window (attr : Reg32) : (admitUnit s n u attr).1.eng.window = s.eng.window := by
  unfold admitUnit
  split
  · rfl
  · split
    · rfl
    · split
      · rfl
      · obtain ⟨q, l, h⟩ := admitClass_beside s 0
        dsimp only
        rw [h]
        rfl

theorem strengthFor_admitUnit (cb : Nat) (str : BitVec 3) : strengthFor (admitUnit s n u attr).1 cb str = strengthFor s cb str := by
  rw [strengthFor, admitUnit_window, strengthFor]

/-- The pool read of unit `u` of VERIFY on handler `i`. -/
def verifyAsked (s : State) (n u i : Nat) (attr : Reg32) (cb : Nat) : State :=
  unitRead (admitUnit s n u attr).1 n u cb (strengthFor s cb (attrStr attr)) (unitClass n attr (admitUnit s n u attr).2) (attrCacheable attr) i

theorem verifyStep_reads {cb : Nat} (hlt : x.issued < x.total) (hr : getRun s n = some x) (hb : unitBlock s x x.issued = some (attr, cb))
    (hdrained : ∀ y ∈ s.wrb.slots, y.kind = .drain → y.cb ≠ cb) (hfree : windowBusy s cb = false) (hmax : unitHandlers s n < mhMax s)
    (hp : pickHandler (admitUnit s n x.issued attr).1 (admitUnit s n x.issued attr).2 = some i) :
    verifyStep s n x = issueUnit (verifyAsked s n x.issued i attr cb) n := by
  have hslots : s.wrb.slots.any (fun t => t.kind == .drain && t.cb == cb) = false := by simpa using hdrained
  have hroom : ¬ mhMax (admitUnit s n x.issued attr).1 ≤ unitHandlers (admitUnit s n x.issued attr).1 n := by
    obtain ⟨q, e, l, h⟩ := admitUnit_beside s n x.issued attr
    have hmh : mhMax (admitUnit s n x.issued attr).1 = mhMax s := by rw [h]; rfl
    rw [unitHandlers_admitUnit _ _ hr, hmh]
    exact Nat.not_le.2 hmax
  simp only [verifyStep, if_neg (Nat.not_le.2 hlt), hb, hslots, hfree, verifyRead, withUnit, ge_iff_le, if_neg hroom, hp, Bool.or_self,
    Bool.false_eq_true, if_false, strengthFor_admitUnit, verifyAsked]

theorem verifyAsked_ext (cb : Nat) : Ext s (verifyAsked s n u i attr cb) := unitRead_ext _ _ _ _ _ _ _ (admitUnit_ext _ _ _ (Ext.refl s))

theorem runTally_verifyAsked (cb : Nat) (hr : getRun s n = some x) (hst : x.stop = none) :
    runTally (issueUnit (verifyAsked s n u i attr cb) n) n = some (x.issued + 1, x.doneN, x.count0, x.count1, none) := by
  rw [runTally_issueUnit, verifyAsked, runTally_congr _ n (unitRead_reads ..).1, runTally_admitUnit s n u attr hr hst]
  rfl

theorem verifyAsked_reads (cb : Nat) : ∃ h ∈ (verifyAsked s n u i attr cb).cch.handlers, h.kind = .unit n u ∧ h.cb = cb ∧
    h.str = strengthFor s cb (attrStr attr) := by
  have hmem : (.unit n u, cb, strengthFor s cb (attrStr attr)) ∈ handlerReads (verifyAsked s n u i attr cb) := by
    rw [verifyAsked, (unitRead_reads ..).2]
    exact List.mem_append_right _ (List.mem_singleton_self _)
  obtain ⟨h, hh, he⟩ := List.mem_map.1 hmem
  obtain ⟨hk, hcb, hstr⟩ := by simpa only [Prod.mk.injEq] using he
  exact ⟨h, hh, hk, hcb, hstr⟩

end

/-! ### The codeblock that VERIFY read (09 R230, R235) -/

theorem exec_commandUnitDone {s : State} (hs : s.up) (n : Fin 4) (perr : Bool) :
    exec (.commandUnitDone n perr) s = .next (settle (unitArrival s n perr)) :=
  (guarded_of_defined hs.1 fun s => when s (isOn s) fun s => settle (unitArrival s n perr)).trans
    (congrArg _ (if_pos (beq_iff_eq.2 hs.2)))

/-- The handler brings a unit of ring `n`'s command its codeblock. -/
def bringsUnit (n : Nat) (h : Handler) : Bool :=
  match h.kind, h.data with
  | .unit r _, some _ => r == n
  | _, _ => false

/-- Counts and ERRADDR of a command once a pool read has brought unit `u`. -/
def readCounted (x : Running) (u fixed fail : Nat) : Running :=
  { x with
    count0 := x.count0 + (if fail = 0 ∧ fixed ≠ 0 then 1 else 0), count1 := x.count1 + (if fail = 0 then 0 else 1)
    errAddr := if fail = 0 then x.errAddr else some (min (x.addr + 512 * u) (x.errAddr.getD (x.addr + 512 * u))) }

section
variable {s : State} {n u fail : Nat} {x : Running}

theorem countRead_ext {a : State} (fixed : Nat) (bad : Bool) (h : Ext a s) : Ext a (countRead s n u fixed bad) :=
  ite_ext (updRun_ext _ _ (updRun_ext _ _ h)) (ite_ext (updRun_ext _ _ h) h)

theorem countRead_cch (fixed : Nat) (bad : Bool) : (countRead s n u fixed bad).cch = s.cch := by
  unfold countRead
  split
  · rfl
  · split <;> rfl

theorem getRun_countRead (fixed : Nat) (hr : getRun s n = some x) :
    getRun (countRead s n u fixed (decide (fail ≠ 0))) n = some (readCounted x u fixed fail) := by
  by_cases hf : fail = 0
  · by_cases hx : fixed = 0
    · simp [countRead, readCounted, hf, hx, hr]
    · simp [countRead, readCounted, hf, hx, addCount0, getRun_updRun_self _ hr]
  · simp [countRead, readCounted, hf, noteErr, addCount1, getRun_updRun, hr]

/-- The next codeblock that a VERIFY without REPAIR read is counted; its handler is free and its unit is done. -/
theorem unitArrival_of_verify {h : Handler} {b : Block} (hr : getRun s n = some x) (hop : x.opcode = 7) (hrep : x.repair = false)
    (hgot : x.got = []) (hentry : ∀ e ∈ s.wrb.entries, e.rewrite ≠ some (n, u)) (h2 : fail ≠ 2)
    (hf : s.cch.handlers.find? (bringsUnit n) = some h) (hk : h.kind = .unit n u) (hd : h.data = some (b, fail)) :
    unitArrival s n false = unitDone (countRead (dropHandler s h.idx) n u h.fixed (decide (fail ≠ 0))) n := by
  have hready (g : Handler) (f : Nat) : repairReady s x g f = true := by simp [repairReady, hrep]
  have hnone : s.wrb.entries.find? (fun e => e.rewrite == some (n, u)) = none := by simpa using hentry
  unfold unitArrival
  simp only [hr, hgot, List.head?_nil, hready, Bool.and_true]
  generalize hfind : s.cch.handlers.find? _ = o
  obtain rfl : o = some h := by
    refine hfind.symm.trans ((congrArg (List.find? · s.cch.handlers) (funext fun g => ?_)).trans hf)
    unfold bringsUnit
    cases g.kind <;> cases g.data <;> rfl
  simp only [hk, hd]
  unfold unitArrive
  simp [h2, hop, hnone, hrep]

end

/-- Settles O45: a unit's codeblock is taken or read in the state in which it is issued (`restrengthStep_takes`, `verifyStep_reads`), and
counted when the handler that read it is free (`unitArrival_of_verify`). -/
theorem restrengthAndVerify : Obligations.RestrengthAndVerify := by
  refine ⟨fun s z n c x w attr cb hs _ hd hlt ht hb hw hroom hfree => ?_, fun s z n c x attr cb hs _ hd hlt ht hb hdrained hfree hmax hp => ?_,
    fun s n x h u f b hs _ hr hop hrep hgot hentry h2 hf hk hdata => ?_⟩
  · have hx := settle_extends (restrengthStep z n x)
    obtain ⟨hst, -⟩ := stop_of_stepDue hd
    obtain ⟨-, -, hr⟩ := stepOp_finds hd ht
    refine ⟨_, exec_restrength hs ht hd, ?_⟩
    obtain ⟨q, rfl⟩ := turn_eq ht
    have hblock : unitBlock { s with qtk := q } x x.issued = some (attr, cb) := (unitBlock_beside q s.eng s.cfg.live s x x.issued).trans hb
    have hstep := restrengthStep_takes (s := { s with qtk := q }) hlt hblock hw hroom hfree
    have hkept : kept s (restrengthStep { s with qtk := q } n x) := by
      rw [hstep]
      exact (beginRewrite_ext _ _ _ _ _ _ (restrengthIssued_ext _)).keeps ⟨rfl, rfl, rfl⟩
    refine ⟨hx.keeps hkept, hx, ?_, ?_, ?_⟩
    · rw [hstep, beginRewrite_eng]
      rfl
    · obtain ⟨e, he⟩ := beginRewrite_opens (s := restrengthIssued { s with qtk := q } n x.issued attr w cb) n x.issued cb w.new
        (unitClass n attr (admitUnit { s with qtk := q } n x.issued attr).2) (attrCacheable attr)
      rw [hstep]
      exact ⟨_, he, rfl, rfl, rfl, getLsbD_setBit_self _ _ (by decide)⟩
    · rw [hstep, runTally_congr _ _ (beginRewrite_eng ..), runTally_restrengthIssued _ hr hst]
  · have hx := settle_extends (verifyStep z n x)
    obtain ⟨hst, -⟩ := stop_of_stepDue hd
    obtain ⟨-, -, hr⟩ := stepOp_finds hd ht
    obtain ⟨i, hi⟩ := Option.isSome_iff_exists.1 hp
    refine ⟨_, exec_verify hs ht hd, ?_⟩
    obtain ⟨q, rfl⟩ := turn_eq ht
    have hblock : unitBlock { s with qtk := q } x x.issued = some (attr, cb) := (unitBlock_beside q s.eng s.cfg.live s x x.issued).trans hb
    have hstep := verifyStep_reads (s := { s with qtk := q }) hlt hr hblock hdrained hfree hmax hi
    have hkept : kept s (verifyStep { s with qtk := q } n x) := by
      rw [hstep]
      exact (issueUnit_ext _ (verifyAsked_ext ..)).keeps ⟨rfl, rfl, rfl⟩
    refine ⟨hx.keeps hkept, hx, ?_, ?_⟩
    · rw [hstep, runTally_verifyAsked _ _ hr hst]
    · rw [hstep]
      exact verifyAsked_reads (s := { s with qtk := q }) x.issued cb
  · have hx := settle_extends (unitArrival s n false)
    have hstep := unitArrival_of_verify hr hop hrep hgot hentry h2 hf hk hdata
    have hext : Ext s (unitArrival s n false) := by
      rw [hstep]
      exact unitDone_ext _ (countRead_ext _ _ (dropHandler_ext _ (Ext.refl s)))
    refine ⟨_, exec_commandUnitDone hs n false, hx.keeps hext.kept, hx, ?_, fun g hg => ?_⟩
    · have hrun : getRun (dropHandler s h.idx) n = some x := hr
      rw [hstep, unitDone, getRun_updRun, getRun_countRead h.fixed hrun]
      rfl
    · rw [hstep] at hg
      have hcch : (unitDone (countRead (dropHandler s h.idx) n u h.fixed (decide (f ≠ 0))) n).cch = (dropHandler s h.idx).cch := countRead_cch ..
      rw [hcch] at hg
      exact not_mem_dropHandler hg

/-! ## The engine's own accesses (09 R207) -/

/-- `s` with one more request of the engine, and with what its admission uses. -/
def withRequest (q : Qtk) (l : List (Nat × BitVec 64)) (w : Wrb) (r : Req) (s : State) : State :=
  { s with qtk := q, wrb := w, cfg := { s.cfg with live := l },
           bus := { s.bus with reqs := s.bus.reqs ++ [r], nextReq := s.bus.nextReq + 1 } }

/-- The request accesses 64 bytes for requester 12. -/
structure Accesses (r : Req) (c : ReqCmd) (mark : Mark) (a : Nat) (data : Sector) : Prop where
  who    : r.who = 12
  cmd    : r.cmd = c
  mark   : r.mark = mark
  addr   : r.addr = BitVec.ofNat 48 a
  data   : r.data = data
  mask   : r.mask = BitVec.allOnes 64
  queued : r.queued = !isRead c

theorem engAccess_issues (s : State) (n : Nat) (c : ReqCmd) (mark : Mark) (a : Nat) (data : Sector) (t : Nat × Reg32 × Nat) :
    ∃ q l w r, engAccess s n c mark a data t = (withRequest q l w r s, s.bus.nextReq) ∧ Accesses r c mark a data := by
  obtain ⟨q, l, h⟩ := admitClass_beside (clearRecord s (cbOf t.2.2)) (engClass n t.2.1)
  unfold engAccess
  dsimp only
  rw [h]
  exact ⟨q, l, _, _, rfl, rfl, rfl, rfl, rfl, rfl, rfl, rfl⟩

section
variable {s : State} {c : ReqCmd} {a : Nat}

/-- Decoding looks at no state of the engine. -/
theorem engDecode_beside (q : Qtk) (e : Eng) (l : List (Nat × BitVec 64)) : engDecode (beside q e l s) c a = engDecode s c a := by
  unfold engDecode
  rw [decodeReq_beside]

theorem engDecode_engine (e : Eng) : engDecode { s with eng := e } c a = engDecode s c a := engDecode_beside s.qtk e s.cfg.live

theorem engDecode_lt {x : Nat × Reg32 × Nat} (h : engDecode s c a = some x) : a < 2 ^ 48 := by
  by_contra hge
  rw [engDecode, if_pos (Nat.le_of_not_lt hge)] at h
  cases h

end

/-! ## A ring halts (09 R211, R221) -/

/-- The ERROR entry of a ring that halts. -/
def haltEntry (s : State) (n status : Nat) : CEntry := { blankEntry s 4 n with status := status, irq := true }

/-- Ring `n` is halted. -/
def halted (s : State) (n : Nat) : State := updRing s n fun r => { r with halt := true }

theorem event_cents (s : State) (b c : Nat) (p : BitVec 384) : (event s b c p).eng.cents = s.eng.cents := by
  unfold event
  split <;> rfl

/-- Only the entries that wait change. -/
theorem queueEntry_rings (s : State) (e : CEntry) : (queueEntry s e).eng.rings = s.eng.rings := by
  unfold queueEntry
  split
  · split <;> rfl
  · rfl

section
variable {s : State} {n : Nat} (status : Nat)

theorem haltRing_ext : Ext (halted s n) (haltRing s n status) := event_ext _ _ _ (queueEntry_ext _ (Ext.refl _))

theorem haltRing_cents (hn : n < 4) : (haltRing s n status).eng.cents = s.eng.cents ++ [haltEntry s n status] := by
  have hq (z : State) (e : CEntry) (he : e.ring = n) : queueEntry z e = { z with eng := { z.eng with cents := z.eng.cents ++ [e] } } :=
    if_neg (by simp [he, Nat.ne_of_lt hn])
  refine (event_cents ..).trans ?_
  rw [hq _ _ rfl]
  rfl

theorem getRing_haltRing (hl : n < s.eng.rings.length) : getRing (haltRing s n status) n = { getRing s n with halt := true } := by
  refine (getRing_event ..).trans ?_
  rw [getRing, queueEntry_rings, ← getRing]
  exact getRing_updRing_self _ hl

/-- Waiting work leaves the ring halted, its ERROR entry queued. -/
theorem haltRing_settled (hn : n < 4) (hl : n < s.eng.rings.length) :
    kept s (settle (haltRing s n status)) ∧ (getRing (settle (haltRing s n status)) n).halt = true ∧
      (getRing (settle (haltRing s n status)) n).desc = (getRing s n).desc ∧
      ∃ e, s.eng.cents ++ [e] <+: (settle (haltRing s n status)).eng.cents ∧ e.typ = 4 ∧ e.ring = n ∧ e.status = status := by
  have hx := settle_extends (haltRing s n status)
  have hring := getRing_haltRing status hl
  have hcents := hx.cents
  rw [haltRing_cents status hn] at hcents
  exact ⟨hx.keeps ((haltRing_ext status).keeps ⟨rfl, rfl, rfl⟩), (hx.ring n Ring.halt).trans (congrArg Ring.halt hring),
    (hx.ring n Ring.desc).trans (by rw [hring]), haltEntry s n status, hcents, rfl, rfl, rfl⟩

end

/-! ## Descriptors (09 R212, R217, R221) -/

section
variable {s : State} (hs : s.up)
include hs

theorem exec_descriptorRead (n : Fin 4) (hd : descDue s n = true) : exec (.descriptorRead n) s = .next (settle (descRead s n)) :=
  (guarded_of_defined hs.1 fun s => when s (descDue s n) fun s => settle (descRead s n)).trans (congrArg _ (if_pos hd))

theorem exec_descriptorReadDone (n : Fin 4) {r : Req} (hd : descDone s n = some r) :
    exec (.descriptorReadDone n) s = .next (settle (descArrive s n r)) := by
  refine (guarded_of_defined hs.1 _).trans (congrArg _ ?_)
  have hon : isOn s = true := beq_iff_eq.2 hs.2
  simp only [hon, hd, if_true]

end

theorem ring_of_descDue {s : State} {n : Nat} (h : descDue s n = true) : (getRing s n).halt = false ∧ (getRing s n).desc = none := by
  simp only [descDue, Bool.and_eq_true, Bool.not_eq_true', Option.isNone_iff_eq_none] at h
  obtain ⟨⟨⟨⟨⟨⟨-, hhalt⟩, -⟩, -⟩, -⟩, hdesc⟩, -⟩ := h
  exact ⟨hhalt, hdesc⟩

theorem Ext.nextReq {a s : State} (h : Ext a s) : s.bus.nextReq = a.bus.nextReq := congrArg (fun x => x.bus.nextReq) h.fixed

section
variable {s : State} {n : Nat} (hn : n < s.eng.rings.length)

theorem descRead_undecoded (h : engDecode s .read (ringBase s n + 64 * (getRing s n).head) = none) : descRead s n = haltRing s n 9 := by
  simp only [descRead, h]

/-- The request of ring `n`'s descriptor read is taken. -/
def descTaken (s : State) (n : Nat) (r : Req) : State := updRing (takeReq s r.id) n fun g => { g with desc := none }

/-- The ring holds the descriptor, and its head has moved on. -/
def ringHolds (z : Nat) (d : BitVec 512) (g : Ring) : Ring :=
  { g with head := (g.head + 1) % z, num := g.num + 1, held := some d, stamp := g.stamps.headD 0, stamps := g.stamps.drop 1 }

theorem descArrive_good {r : Req} (h : r.fail = 0) : descArrive s n r = updRing (descTaken s n r) n (ringHolds (ringSize s n) r.result) := by
  rw [descArrive, h]
  rfl

theorem descArrive_kept {r : Req} (h : r.fail = 0) : kept s (descArrive s n r) := by
  rw [descArrive_good h]
  exact ⟨rfl, rfl, rfl⟩

theorem descArrive_failed {r : Req} (h : r.fail ≠ 0) : descArrive s n r = haltRing (descTaken s n r) n (if r.fail = 2 then 7 else 6) :=
  if_pos h

include hn

theorem getRing_descTaken (r : Req) : getRing (descTaken s n r) n = { getRing s n with desc := none } :=
  getRing_updRing_self (s := takeReq s r.id) _ hn

/-- The read of a descriptor is one request more, which the ring waits for. -/
theorem descRead_decoded {x : Nat × Reg32 × Nat} (h : engDecode s .read (ringBase s n + 64 * (getRing s n).head) = some x) :
    kept s (descRead s n) ∧ (descRead s n).bus.nextReq = s.bus.nextReq + 1 ∧
      getRing (descRead s n) n = { getRing s n with desc := some s.bus.nextReq } := by
  obtain ⟨q, l, w, r, hacc, -⟩ := engAccess_issues s n .read .none (ringBase s n + 64 * (getRing s n).head) 0 x
  have hread : descRead s n = updRing (withRequest q l w r s) n fun g => { g with desc := some s.bus.nextReq } := by
    simp only [descRead, h, hacc]
  rw [hread]
  exact ⟨⟨rfl, rfl, rfl⟩, rfl, getRing_updRing_self (s := withRequest q l w r s) _ hn⟩

theorem lt_rings_length_descTaken (r : Req) : n < (descTaken s n r).eng.rings.length := hn.trans_eq (length_updAt ..).symm

theorem getRing_descArrive {r : Req} (h : r.fail = 0) :
    getRing (descArrive s n r) n = ringHolds (ringSize s n) r.result { getRing s n with desc := none } := by
  rw [descArrive_good h, getRing_updRing_self _ (lt_rings_length_descTaken hn r), getRing_descTaken hn]

end

/-! ## Completion entries (09 R207, R208, R213, R214, R223) -/

/-- The oldest entry is no longer queued. -/
def dequeued (s : State) : State := { s with eng := { s.eng with cents := s.eng.cents.drop 1 } }

/-- The next place of a ring of `z` entries, and the PHASE there. -/
def nextPlace (tail z : Nat) : Nat := (tail + 1) % z
def nextPhase (tail z : Nat) (phase : Bool) : Bool := if (tail + 1) % z = 0 then !phase else phase

section
variable {s : State} {e : CEntry} {l : List CEntry}

theorem exec_completionEntryWrite (hs : s.up) (ho : entriesOpen s = true) : exec .completionEntryWrite s = .next (settle (cqRow s)) := by
  have hon : isOn s = true := beq_iff_eq.2 hs.2
  exact (guarded_of_defined hs.1 fun s => when s (isOn s && entriesOpen s) fun s => settle (cqRow s)).trans
    (congrArg _ (if_pos (by simp [hon, ho])))

theorem cqRow_full (hc : s.eng.cents = e :: l) (hf : cqFree s = 0) : cqRow s = cqFullSaid s := by
  simp only [cqRow, hc, List.head?_cons, hf, if_true]

theorem cqRow_writes (hc : s.eng.cents = e :: l) (hf : cqFree s ≠ 0) (hp : probesOwed s e = false) (hq : (storeQueue s 12).length < 8) :
    cqRow s = cqWrite s e := by
  simp [cqRow, hc, hf, hp, engQueueFree, hq]

/-- CQ_FULL is said, now or before. -/
theorem cqFullSaid_said (hc : s.eng.cents = e :: l) (hf : cqFree s = 0) :
    Ext { s with eng := { s.eng with cqSaid := true } } (cqFullSaid s) := by
  have hw : cqWanted s = true := by simp [cqWanted, hc]
  by_cases h : s.eng.cqSaid = true
  · have hsame : ({ s with eng := { s.eng with cqSaid := true } } : State) = s := by rw [← h]
    rw [hsame, cqFullSaid, if_pos (by simp [h])]
    exact Ext.refl s
  · rw [cqFullSaid, if_neg (by simp [hw, hf, h])]
    exact event_ext _ _ _ (Ext.refl _)

/-- What is noted of an entry's write until it retires. -/
def cqNote (s : State) (e : CEntry) : EngWrite :=
  { req := s.bus.nextReq, ring := e.ring, final := e.final, accepted := e.typ == 1, irq := e.irq, event := false }

theorem cqWrite_eq {x : Nat × Reg32 × Nat} (h : engDecode s .write (ringBase s 4 + 64 * s.eng.cqTail) = some x) :
    ∃ q k w r, cqWrite s e = withRequest q k w r { s with eng := { s.eng with
        cents := s.eng.cents.drop 1, cqTail := nextPlace s.eng.cqTail (ringSize s 4),
        cqPhase := nextPhase s.eng.cqTail (ringSize s 4) s.eng.cqPhase, writes := s.eng.writes ++ [cqNote s e] } } ∧
      Accesses r .write (entryMark e) (ringBase s 4 + 64 * s.eng.cqTail) (entryBytes s e) := by
  obtain ⟨q, k, w, r, hacc, hr⟩ := engAccess_issues (dequeued s) e.ring .write (entryMark e) (ringBase s 4 + 64 * s.eng.cqTail)
    (entryBytes s e) x
  have hdec : engDecode (dequeued s) .write (ringBase s 4 + 64 * s.eng.cqTail) = some x := (engDecode_engine _).trans h
  refine ⟨q, k, w, r, ?_, hr⟩
  unfold cqWrite
  dsimp only
  split
  · next hnone => exact nomatch hnone.symm.trans hdec
  · next t ht =>
    obtain rfl : t = x := Option.some.inj (ht.symm.trans hdec)
    rw [dequeued] at hacc
    rw [hacc]
    rfl

/-- The write of the oldest entry is one request more, and takes the ring's next place. -/
theorem cqWrite_decoded {x : Nat × Reg32 × Nat} (h : engDecode s .write (ringBase s 4 + 64 * s.eng.cqTail) = some x) :
    ∃ r, kept s (cqWrite s e) ∧ (cqWrite s e).eng.cents = s.eng.cents.drop 1 ∧
      (cqWrite s e).eng.cqTail = nextPlace s.eng.cqTail (ringSize s 4) ∧
      (cqWrite s e).eng.cqPhase = nextPhase s.eng.cqTail (ringSize s 4) s.eng.cqPhase ∧ r ∈ (cqWrite s e).bus.reqs ∧
      r.addr.toNat = ringBase s 4 + 64 * s.eng.cqTail ∧
      Accesses r .write (entryMark e) (ringBase s 4 + 64 * s.eng.cqTail) (entryBytes s e) := by
  obtain ⟨q, k, w, r, hwrite, hr⟩ := cqWrite_eq (e := e) h
  rw [hwrite]
  refine ⟨r, ⟨rfl, rfl, rfl⟩, rfl, rfl, rfl, List.mem_append_right _ (List.mem_singleton_self _), ?_, hr⟩
  rw [hr.addr, BitVec.toNat_ofNat, Nat.mod_eq_of_lt (engDecode_lt h)]

/-- Every ring is halted, for an entry was lost. -/
def cqHalts (s : State) (m : BitVec 4) : State :=
  let z := onRings (fun s _ => s) (fun r => { r with halt := true }) (List.range 4) s
  { z with eng := { z.eng with cqErr := true, cqHalted := m } }

theorem cqLost_ext (s : State) (e : CEntry) (a : Nat) : ∃ m, Ext (cqHalts s m) (cqLost s e a) := by
  unfold cqLost
  extract_lets now s1 eng s2 s3
  have h2 : Ext (cqHalts s (s1.eng.cqHalted ||| now)) s2 := Ext.refl _
  clear_value s2
  exact ⟨_, event_ext _ _ _ (ite_ext (finalWritten_ext _ h2) h2)⟩

theorem cqWrite_lost (h : engDecode s .write (ringBase s 4 + 64 * s.eng.cqTail) = none) :
    ∃ m, Ext (cqHalts (dequeued s) m) (cqWrite s e) := by
  have hdec : engDecode (dequeued s) .write (ringBase s 4 + 64 * s.eng.cqTail) = none := (engDecode_engine _).trans h
  unfold cqWrite
  dsimp only
  split
  · exact cqLost_ext (dequeued s) e _
  · next t ht => exact nomatch ht.symm.trans hdec

theorem cqHalts_frame (s : State) (m : BitVec 4) : kept s (cqHalts s m) ∧ (cqHalts s m).eng.cqErr = true ∧
    (cqHalts s m).eng.cents = s.eng.cents ∧ (cqHalts s m).eng.cqTail = s.eng.cqTail := by
  obtain ⟨rs, c, -, h⟩ := onRings_eq (g := fun s _ => s) (fun s _ => ⟨s.eng.cqHalted, rfl⟩) (fun r => { r with halt := true }) (List.range 4) s
  unfold cqHalts
  rw [h]
  exact ⟨⟨rfl, rfl, rfl⟩, rfl, rfl, rfl⟩

theorem cqHalts_halt {n : Nat} (m : BitVec 4) (hn : n < 4) (hl : n < s.eng.rings.length) : (getRing (cqHalts s m) n).halt = true := by
  have h := getRing_onRings (g := fun s _ => s) (fun s _ => ⟨s.eng.cqHalted, rfl⟩) (fun r => { r with halt := true }) (fun _ => rfl)
    (List.range 4) hl
  rw [if_pos (List.mem_range.2 hn)] at h
  exact congrArg Ring.halt h

end

/-! ## Event entries (09 R213, R237) -/

section
variable {s : State} {e : Event} {l : List Event}

theorem exec_eventEntryWrite (hs : s.up) (ho : entriesOpen s = true) : exec .eventEntryWrite s = .next (settle (eqRow s)) := by
  have hon : isOn s = true := beq_iff_eq.2 hs.2
  exact (guarded_of_defined hs.1 fun s => when s (isOn s && entriesOpen s) fun s => settle (eqRow s)).trans
    (congrArg _ (if_pos (by simp [hon, ho])))

/-- The oldest event is no longer queued. -/
def eventTaken (s : State) (l : List Event) : State := { s with eng := { s.eng with events := l } }

theorem eqRow_event (he : s.eng.events = e :: l) (hm : s.eng.marker = false ∨ eqFree s = 0) (hq : (storeQueue s 12).length < 8) :
    eqRow s = if eqFree s ≥ 2 then eqWrite (eventTaken s l) (eventBytes s e) else eqLose (eventTaken s l) 1 := by
  have hmark : (s.eng.marker && decide (eqFree s ≠ 0)) = false := by rcases hm with h | h <;> simp [h]
  have hroom : (!engQueueFree s) = false := by simp [engQueueFree, hq]
  rw [eqRow, hroom, if_neg Bool.false_ne_true, hmark, if_neg Bool.false_ne_true, he]
  rfl

/-- The marker counts the events that it takes with it. -/
theorem eqRow_marker (hm : s.eng.marker = true) (hf : eqFree s ≠ 0) (hq : (storeQueue s 12).length < 8) :
    ∃ d, eqRow s = eqWrite { s with eng := { s.eng with events := [], marker := false, eqLost := 0 } } d := by
  have hmark : (s.eng.marker && decide (eqFree s ≠ 0)) = true := by simp [hm, hf]
  have hroom : (!engQueueFree s) = false := by simp [engQueueFree, hq]
  rw [eqRow, hroom, if_neg Bool.false_ne_true, if_pos hmark]
  unfold eqMarker
  exact ⟨_, rfl⟩

/-- What is noted of an event's write until it retires. -/
def eqNote (s : State) : EngWrite :=
  { req := s.bus.nextReq, ring := 4, final := false, accepted := false, irq := false, event := true }

theorem eqWrite_decoded {x : Nat × Reg32 × Nat} (d : Sector) (h : engDecode s .write (ringBase s 5 + 64 * s.eng.eqTail) = some x) :
    ∃ q k w r, eqWrite s d = withRequest q k w r { s with eng := { s.eng with
        eqTail := nextPlace s.eng.eqTail (ringSize s 5), eqPhase := nextPhase s.eng.eqTail (ringSize s 5) s.eng.eqPhase,
        writes := s.eng.writes ++ [eqNote s] } } := by
  obtain ⟨q, k, w, r, hacc, -⟩ := engAccess_issues s 4 .write .none (ringBase s 5 + 64 * s.eng.eqTail) d x
  refine ⟨q, k, w, r, ?_⟩
  unfold eqWrite
  simp only [h, hacc]
  rfl

theorem eqLose_one (s : State) : ∃ z, eqLose s 1 = { z with eng := { s.eng with eqLost := s.eng.eqLost + 1 } } ∧ kept s z ∧
    (s.eng.eqLost = 0 → z.err.intStatus.getLsbD srcEqOvf = true) := by
  unfold eqLose
  by_cases h : s.eng.eqLost = 0
  · rw [if_pos (by simp [h])]
    exact ⟨raiseInt s srcEqOvf, rfl, ⟨rfl, rfl, rfl⟩, fun _ => getLsbD_setBit_self _ _ (by decide)⟩
  · rw [if_neg (by simpa using h)]
    exact ⟨s, rfl, ⟨rfl, rfl, rfl⟩, fun h0 => absurd h0 h⟩

end

/-- Settles O42: each row is its write (`descRead_decoded`, `cqWrite_decoded`, `eqWrite_decoded`), or what becomes of a descriptor or an
entry that is not to be written (`haltRing_ext`, `cqWrite_lost`, `eqLose_one`); waiting work keeps it (`settle_extends`). -/
theorem descriptorsAndEntries : Obligations.DescriptorsAndEntries := by
  refine ⟨⟨fun s n hs hsound hd => ?_, fun s n r hs hsound hd => ?_⟩, fun s e l hs hsound hc ho => ?_,
    fun s e l hs he ho hm hq => ?_, fun s hs ho hm hf hq x hx => ?_⟩
  · have hn := lt_rings_length hsound n.isLt
    obtain ⟨hhalt, hdesc⟩ := ring_of_descDue hd
    refine ⟨fun x hx => ?_, fun hnone => ?_⟩
    · have hext := settle_extends (descRead s n)
      obtain ⟨hkept, hnext, hring⟩ := descRead_decoded hn hx
      exact ⟨_, exec_descriptorRead hs n hd, hext.keeps hkept, (hext.ring n Ring.desc).trans (congrArg Ring.desc hring),
        hext.nextReq.trans hnext, (hext.ring n Ring.halt).trans ((congrArg Ring.halt hring).trans hhalt)⟩
    · obtain ⟨hkept, hhalted, hnodesc, hentry⟩ := haltRing_settled 9 n.isLt hn
      refine ⟨_, exec_descriptorRead hs n hd, ?_⟩
      rw [descRead_undecoded hnone]
      exact ⟨hkept, hhalted, hnodesc.trans hdesc, hentry⟩
  · have hn := lt_rings_length hsound n.isLt
    have hext := settle_extends (descArrive s n r)
    refine ⟨fun h0 => ⟨_, exec_descriptorReadDone hs n hd, ?_⟩, fun hfail => ⟨_, exec_descriptorReadDone hs n hd, ?_⟩⟩
    · have hring := getRing_descArrive hn h0
      exact ⟨hext.keeps (descArrive_kept h0), hext, congrArg Ring.head hring, congrArg Ring.held hring,
        (hext.ring n Ring.desc).trans (congrArg Ring.desc hring), (hext.ring n Ring.halt).trans (by rw [hring, ringHolds])⟩
    · have hl := lt_rings_length_descTaken hn r
      obtain ⟨hkept, hhalted, hdesc, hentry⟩ := haltRing_settled (if r.fail = 2 then 7 else 6) n.isLt hl
      rw [descArrive_failed hfail] at hext ⊢
      have htaken := getRing_descTaken hn r
      refine ⟨hkept, hext, hhalted, hdesc.trans (congrArg Ring.desc htaken), ?_, hentry⟩
      rw [getRing_haltRing _ hl, htaken]
  · refine ⟨fun hf => ⟨_, exec_completionEntryWrite hs ho, ?_⟩, fun hf hp hq x hx => ⟨_, exec_completionEntryWrite hs ho, ?_⟩,
      fun hf hp hq hnone => ⟨_, exec_completionEntryWrite hs ho, ?_⟩⟩
    · rw [cqRow_full hc hf]
      have hext := settle_ext (cqFullSaid_said hc hf)
      exact ⟨hext.kept, hext.cents, hext.eng Eng.cqTail, hext.eng Eng.cqSaid⟩
    · rw [cqRow_writes hc hf hp hq]
      have hext := settle_extends (cqWrite s e)
      obtain ⟨r, hkept, hcents, htail, hphase, hmem, haddr, hr⟩ := cqWrite_decoded (e := e) hx
      have hl : (cqWrite s e).eng.cents = l := hcents.trans (congrArg (List.drop 1) hc)
      exact ⟨hext.keeps hkept, hl ▸ hext.cents, (hext.eng Eng.cqTail).trans htail, (hext.eng Eng.cqPhase).trans hphase, hext,
        r, hmem, hr.who, hr.cmd, haddr, hr.data, hr.mask, hr.queued, hr.mark⟩
    · rw [cqRow_writes hc hf hp hq]
      obtain ⟨m, hlost⟩ := cqWrite_lost (e := e) hnone
      obtain ⟨hkept, herr, hcents, htail⟩ := cqHalts_frame (dequeued s) m
      have hext := settle_ext hlost
      have hl : (cqHalts (dequeued s) m).eng.cents = l := hcents.trans (congrArg (List.drop 1) hc)
      exact ⟨hext.keeps hkept, (hext.eng Eng.cqErr).trans herr, hl ▸ hext.cents, (hext.eng Eng.cqTail).trans htail,
        fun n hn => (hext.ring n Ring.halt).trans (cqHalts_halt m hn (lt_rings_length hsound hn))⟩
  · have hrow := eqRow_event he hm hq
    have hext := settle_extends (eqRow s)
    refine ⟨fun h2 x hx => ⟨_, exec_eventEntryWrite hs ho, ?_⟩, fun h2 => ⟨_, exec_eventEntryWrite hs ho, ?_⟩⟩
    · obtain ⟨q, k, w, r, hwrite⟩ := eqWrite_decoded (s := eventTaken s l) (eventBytes s e) ((engDecode_engine _).trans hx)
      rw [if_pos h2, hwrite] at hrow
      rw [hrow] at hext ⊢
      exact ⟨hext.keeps ⟨rfl, rfl, rfl⟩, hext.events, hext.eng Eng.eqTail, hext.eng Eng.eqLost, hext.eng Eng.eqPhase⟩
    · obtain ⟨z, hlose, hkept, hint⟩ := eqLose_one (eventTaken s l)
      rw [if_neg (Nat.not_le.2 h2), hlose] at hrow
      rw [hrow] at hext ⊢
      exact ⟨hext.keeps hkept, hext.events, hext.eng Eng.eqTail, hext.eng Eng.eqLost, fun h0 => hext.ints _ (hint h0)⟩
  · obtain ⟨d, hrow⟩ := eqRow_marker hm hf hq
    have hext := settle_extends (eqRow s)
    obtain ⟨q, k, w, r, hwrite⟩ :=
      eqWrite_decoded (s := { s with eng := { s.eng with events := [], marker := false, eqLost := 0 } }) d
        ((engDecode_engine _).trans hx)
    rw [hwrite] at hrow
    refine ⟨_, exec_eventEntryWrite hs ho, ?_⟩
    rw [hrow] at hext ⊢
    exact ⟨hext.keeps ⟨rfl, rfl, rfl⟩, hext.eng Eng.marker, hext.eng Eng.eqLost, hext.eng Eng.eqTail⟩

end Sys2Proof.Machine

/-! SUPPORT. Proofs of the statements of `10_integrity_codes.md`: SECDED, the check granule, and the completions of pool reads. -/

namespace Sys2Proof.Machine
set_option Elab.async false

/-! ## SECDED(72,64) (10 R252 to R254) -/

/-- The XOR over a symmetric difference is the XOR of the two. -/
theorem foldl_xor_filter (f : Nat → Nat) (p q : Nat → Bool) (l : List Nat) (a b : Nat) :
    (l.filter fun i => p i ^^ q i).foldl (fun x i => x ^^^ f i) (a ^^^ b) =
      (l.filter p).foldl (fun x i => x ^^^ f i) a ^^^ (l.filter q).foldl (fun x i => x ^^^ f i) b := by
  induction l generalizing a b with
  | nil => rfl
  | cons i l ih =>
    cases hp : p i <;> cases hq : q i <;> simp only [List.filter_cons, hp, hq, Bool.xor_false, Bool.xor_true, Bool.not_false, Bool.not_true,
      Bool.false_eq_true, if_false, if_true, List.foldl_cons] <;> rw [← ih]
    · rw [Nat.xor_assoc]
    · rw [Nat.xor_right_comm]
    · rw [Nat.xor_assoc a, Nat.xor_left_comm (f i), Nat.xor_self, Nat.xor_zero]

theorem secEncode_xor (d e : BitVec 64) : secEncode (d ^^^ e) = secEncode d ^^^ secEncode e := by
  simp only [secEncode, ← BitVec.ofNat_xor, bitsOf, BitVec.getLsbD_xor]
  exact congrArg _ (foldl_xor_filter _ _ _ _ 0 0)

theorem secCols_length : secCols.length = 64 := by decide
theorem secCols_nodup : secCols.Nodup := by decide
theorem secCols_odd : ∀ c ∈ secCols, ones 8 c % 2 = 1 ∧ ones 8 c ≠ 1 ∧ c < 256 := by decide

theorem bitsOf_bit {i : Nat} (hi : i < 64) : bitsOf 64 (bit true i : BitVec 64) = [i] := by
  revert i
  decide

theorem ones_xor (n a b : Nat) : ones n (a ^^^ b) % 2 = (ones n a + ones n b) % 2 := by
  induction n generalizing a b with
  | zero => rfl
  | succ n ih =>
    have hdiv := ih (a / 2) (b / 2)
    rw [← Nat.xor_div_two] at hdiv
    have hmod : (a ^^^ b) % 2 = (a + b) % 2 := Nat.xor_mod_two_eq
    simp only [ones]
    omega

theorem ones_zero (n : Nat) : ones n 0 = 0 := by
  induction n with
  | zero => rfl
  | succ n ih => simp [ones, ih]

/-- Column `h_i` of the code: the syndrome of an error in data bit `i`. -/
def secCol (i : Nat) : BitVec 8 := BitVec.ofNat 8 (secCols.getD i 0)

theorem secEncode_bit {i : Nat} (hi : i < 64) : secEncode (bit true i) = secCol i := by
  rw [secEncode, bitsOf_bit hi, List.foldl_cons, List.foldl_nil, Nat.zero_xor, secCol]

theorem secCol_toNat {i : Nat} (hi : i < 64) : ∃ h : i < secCols.length, (secCol i).toNat = secCols[i] := by
  have h : i < secCols.length := secCols_length.symm ▸ hi
  refine ⟨h, ?_⟩
  obtain ⟨-, -, hlt⟩ := secCols_odd _ (List.getElem_mem h)
  rw [secCol, List.getD_eq_getElem _ _ h, BitVec.toNat_ofNat, Nat.mod_eq_of_lt hlt]

theorem ones_secCol {i : Nat} (hi : i < 64) : ones 8 (secCol i).toNat % 2 = 1 := by
  obtain ⟨h, hcol⟩ := secCol_toNat hi
  obtain ⟨hodd, -, -⟩ := secCols_odd _ (List.getElem_mem h)
  rw [hcol, hodd]

theorem secCol_inj {i j : Nat} (hi : i < 64) (hj : j < 64) (h : secCol i = secCol j) : i = j := by
  obtain ⟨hi', hcoli⟩ := secCol_toNat hi
  obtain ⟨hj', hcolj⟩ := secCol_toNat hj
  exact (secCols_nodup.getElem_inj_iff).1 (hcoli.symm.trans ((congrArg BitVec.toNat h).trans hcolj))

section
variable {d : BitVec 64} {c : BitVec 8}

theorem secDecode_good : secDecode d (secEncode d) = (d, .good) := by simp [secDecode]

/-- A syndrome that is a column names the data bit that flipped. -/
theorem secDecode_of_column {i : Nat} (hi : i < 64) (h : c ^^^ secEncode d = secCol i) :
    secDecode d c = (d ^^^ bit true i, .corrected) := by
  obtain ⟨hlen, hcol⟩ := secCol_toNat hi
  have hne : (secCol i).toNat ≠ 0 := fun h0 => by simpa [h0, ones_zero] using ones_secCol hi
  have hfind : secCols.findIdx? (· == (secCol i).toNat) = some i := by
    rw [List.findIdx?_eq_some_iff_getElem]
    refine ⟨hlen, by simp [hcol], fun j hj => ?_⟩
    simp only [hcol, beq_iff_eq]
    exact fun h => absurd (secCols_nodup.getElem_inj_iff.1 h) (Nat.ne_of_lt hj)
  simp only [secDecode, h, hne, hfind, if_false]

/-- Any other syndrome but 0 is of one check bit, or of errors that cannot be corrected. -/
theorem secDecode_of_no_column (h0 : (c ^^^ secEncode d).toNat ≠ 0) (h : (c ^^^ secEncode d).toNat ∉ secCols) :
    secDecode d c = (d, if ones 8 (c ^^^ secEncode d).toNat = 1 then .corrected else .bad) := by
  have hfind : secCols.findIdx? (· == (c ^^^ secEncode d).toNat) = none := by
    rw [List.findIdx?_eq_none_iff]
    exact fun x hx => beq_eq_false_iff_ne.2 (ne_of_mem_of_not_mem hx h)
  simp only [secDecode, h0, hfind, if_false]
  exact (apply_ite (Prod.mk d) ..).symm

/-- A syndrome of even weight is of no column and of no check bit. -/
theorem secDecode_of_even (h0 : (c ^^^ secEncode d).toNat ≠ 0) (h : ones 8 (c ^^^ secEncode d).toNat % 2 = 0) :
    secDecode d c = (d, .bad) := by
  have hcol : (c ^^^ secEncode d).toNat ∉ secCols := fun hm => by
    obtain ⟨hodd, -, -⟩ := secCols_odd _ hm
    omega
  rw [secDecode_of_no_column h0 hcol, if_neg (by omega)]

end

theorem xor_xor_self {w : Nat} (x e : BitVec w) : x ^^^ e ^^^ x = e := by
  rw [BitVec.xor_comm x, BitVec.xor_assoc, BitVec.xor_self, BitVec.xor_zero]

theorem secSyndrome (d e : BitVec 64) : secEncode d ^^^ secEncode (d ^^^ e) = secEncode e := by
  rw [secEncode_xor, ← BitVec.xor_assoc, BitVec.xor_self, BitVec.zero_xor]

theorem secDecode_dataBit (d : BitVec 64) {i : Nat} (hi : i < 64) : secDecode (d ^^^ bit true i) (secEncode d) = (d, .corrected) := by
  rw [secDecode_of_column hi ((secSyndrome ..).trans (secEncode_bit hi)), BitVec.xor_assoc, BitVec.xor_self, BitVec.xor_zero]

theorem checkBit_weight : ∀ j < 8, (bit true j : BitVec 8).toNat ≠ 0 ∧ ones 8 (bit true j : BitVec 8).toNat = 1 := by decide

theorem secDecode_checkBit (d : BitVec 64) {j : Nat} (hj : j < 8) : secDecode d (secEncode d ^^^ bit true j) = (d, .corrected) := by
  obtain ⟨h0, h1⟩ := checkBit_weight j hj
  have hcol : (bit true j : BitVec 8).toNat ∉ secCols := fun hm => by
    obtain ⟨-, hne, -⟩ := secCols_odd _ hm
    exact hne h1
  rw [← xor_xor_self (secEncode d) (bit true j)] at h0 h1 hcol
  rw [secDecode_of_no_column h0 hcol, if_pos h1]

theorem secDecode_twoDataBits (d : BitVec 64) {i j : Nat} (hi : i < 64) (hj : j < 64) (hij : i ≠ j) :
    (secDecode (d ^^^ bit true i ^^^ bit true j) (secEncode d)).2 = .bad := by
  have hs : secEncode d ^^^ secEncode (d ^^^ bit true i ^^^ bit true j) = secCol i ^^^ secCol j := by
    rw [BitVec.xor_assoc, secSyndrome, secEncode_xor, secEncode_bit hi, secEncode_bit hj]
  rw [secDecode_of_even] <;> rw [hs]
  · exact fun h0 => hij (secCol_inj hi hj (BitVec.xor_eq_zero_iff.1 (BitVec.eq_of_toNat_eq h0)))
  · have hi' := ones_secCol hi
    have hj' := ones_secCol hj
    rw [BitVec.toNat_xor, ones_xor]
    omega

theorem secDecode_twoCheckBits (d : BitVec 64) : secDecode d (secEncode d ^^^ 3) = (d, .bad) :=
  secDecode_of_even (by rw [xor_xor_self]; decide) (by rw [xor_xor_self]; decide)

/-! ## The check granule and what reads it (10 R242 to R244, R248) -/

theorem bchRem_lt (g d k m : Nat) {r : Nat} (h : r < 2 ^ d) : bchRem g d k m r < 2 ^ d := by
  induction k generalizing r with
  | zero => exact h
  | succ k ih =>
    have hpos : 0 < 2 ^ d := Nat.two_pow_pos d
    have hshift : 2 * r % 2 ^ d < 2 ^ d := Nat.mod_lt _ hpos
    refine ih ?_
    split
    · exact Nat.xor_lt_two_pow hshift (Nat.mod_lt _ hpos)
    · exact hshift

theorem bchCheck_lt (t msg : Nat) : bchCheck t msg < 2 ^ (13 * t) := bchRem_lt _ _ _ _ (Nat.two_pow_pos _)

theorem tOf_le (str : BitVec 3) : tOf str ≤ 32 := by
  revert str
  decide

/-! ### Two numbers in one, the low `k` bits for the first -/

section
variable {c k : Nat} (m : Nat) (hc : c < 2 ^ k)
include hc

theorem packed_low : (c + m <<< k) % 2 ^ k = c := by
  rw [Nat.shiftLeft_eq, Nat.add_mul_mod_self_right, Nat.mod_eq_of_lt hc]

theorem packed_high : (c + m <<< k) >>> k = m := by
  rw [Nat.shiftLeft_eq, Nat.shiftRight_eq_div_pow, Nat.add_mul_div_right _ _ (Nat.two_pow_pos k), Nat.div_eq_of_lt hc, Nat.zero_add]

theorem ofNat_packed_toNat {j n : Nat} (x : BitVec j) (hn : j + k = n) :
    (BitVec.ofNat n (c + x.toNat <<< k)).toNat = c + x.toNat <<< k := by
  subst hn
  rw [BitVec.toNat_ofNat, Nat.mod_eq_of_lt]
  calc c + x.toNat <<< k < 2 ^ k + x.toNat * 2 ^ k := by rw [Nat.shiftLeft_eq]; exact Nat.add_lt_add_right hc _
    _ = (x.toNat + 1) * 2 ^ k := by rw [Nat.succ_mul, Nat.add_comm]
    _ ≤ 2 ^ j * 2 ^ k := Nat.mul_le_mul_right _ x.isLt
    _ = 2 ^ (j + k) := (Nat.pow_add ..).symm

end

theorem ofNat_packed_low {k : Nat} (x : BitVec k) (m : Nat) : BitVec.ofNat k (x.toNat + m <<< k) = x :=
  BitVec.eq_of_toNat_eq ((BitVec.toNat_ofNat ..).trans (packed_low m x.isLt))

theorem toNat_packed_high {k : Nat} (x : BitVec k) (m : Nat) : (x.toNat + m <<< k) >>> k = m := packed_high m x.isLt

theorem extract_packed_high {n j k c : Nat} {g : BitVec n} {x : BitVec j} (hg : g.toNat = c + x.toNat <<< k) (hc : c < 2 ^ k) :
    g.extractLsb' k j = x := by
  refine BitVec.eq_of_toNat_eq ?_
  rw [BitVec.extractLsb'_toNat, hg, packed_high _ hc, Nat.mod_eq_of_lt x.isLt]

/-! ### META -/

section
variable (str : BitVec 3) (unc : Bool) (w : BitVec 16) (cb : Nat)

/-- META as the sum of its fields in their places, none of which reaches into the next. -/
theorem metaOf_toNat : (metaOf str unc w cb).toNat =
    2 ^ 60 + unc.toNat * 2 ^ 59 + str.toNat * 2 ^ 56 + w.toNat * 2 ^ 40 + cb % 2 ^ 35 := by
  have hs : str.toNat < 8 := str.isLt
  have hw : w.toNat < 65536 := w.isLt
  simp only [metaOf, BitVec.toNat_ofNat, Nat.shiftLeft_eq]
  cases unc <;> simp only [Bool.toNat_false, Bool.toNat_true, Bool.false_eq_true, if_false, if_true] <;> omega

theorem metaOf_fields : fld (metaOf str unc w cb) 95 62 = 0 ∧ fld (metaOf str unc w cb) 61 60 = 1 ∧
    fld (metaOf str unc w cb) 59 59 = unc.toNat ∧ fld (metaOf str unc w cb) 58 56 = str.toNat ∧
    fld (metaOf str unc w cb) 55 40 = w.toNat ∧ fld (metaOf str unc w cb) 39 35 = 0 ∧ fld (metaOf str unc w cb) 34 0 = cb % 2 ^ 35 := by
  have hs : str.toNat < 8 := str.isLt
  have hw : w.toNat < 65536 := w.isLt
  have hu : unc.toNat ≤ 1 := unc.toNat_le
  simp only [fld_eq, metaOf_toNat]
  omega

theorem metaOf_wseq : (metaOf str unc w cb).extractLsb' 40 16 = w := by
  obtain ⟨-, -, -, -, hwseq, -, -⟩ := metaOf_fields str unc w cb
  exact BitVec.eq_of_toNat_eq hwseq

theorem metaOf_unc : (metaOf str unc w cb).getLsbD 59 = unc := by
  obtain ⟨-, -, hunc, -, -, -, -⟩ := metaOf_fields str unc w cb
  rw [fld_eq] at hunc
  rw [BitVec.getLsbD, Nat.testBit_eq_decide_div_mod_eq]
  exact decide_eq_of_toNat hunc

end

/-! ### A codeblock and the granule that a drain writes for it -/

theorem checkLength_le (str : BitVec 3) : 13 * tOf str ≤ 416 := Nat.mul_le_mul_left 13 (tOf_le str)

section
variable (b : Block) (str : BitVec 3) (unc : Bool) (w : BitVec 16) (cb : Nat)

/-- The message that a drain's granule protects. -/
def drainMsg : Nat := bchMsg b (metaOf str unc w cb)

/-- The check bits that a drain writes. -/
def drainCheck : Nat := bchCheck (tOf str) (drainMsg b str unc w cb)

theorem drainCheck_lt : drainCheck b str unc w cb < 2 ^ (13 * tOf str) := bchCheck_lt ..

theorem drainCheck_lt_meta : drainCheck b str unc w cb < 2 ^ 416 :=
  (drainCheck_lt ..).trans_le (pow_le_pow_right₀ one_le_two (checkLength_le str))

theorem drainMsg_data : BitVec.ofNat 4096 (drainMsg b str unc w cb) = b := ofNat_packed_low b _

theorem drainMsg_meta : drainMsg b str unc w cb >>> 4096 = (metaOf str unc w cb).toNat := toNat_packed_high b _

/-- The check bits lie below META: neither reaches into the other. -/
theorem granuleOf_toNat : (granuleOf b str unc w cb).toNat = drainCheck b str unc w cb + (metaOf str unc w cb).toNat <<< 416 :=
  ofNat_packed_toNat (drainCheck_lt_meta ..) _ rfl

theorem granuleOf_meta : (granuleOf b str unc w cb).extractLsb' 416 96 = metaOf str unc w cb :=
  extract_packed_high (granuleOf_toNat ..) (drainCheck_lt_meta ..)

theorem granuleOf_check : (granuleOf b str unc w cb).toNat % 2 ^ (13 * tOf str) = drainCheck b str unc w cb := by
  have hdvd : 2 ^ (13 * tOf str) ∣ 2 ^ 416 := pow_dvd_pow 2 (checkLength_le str)
  rw [← Nat.mod_mod_of_dvd _ hdvd, granuleOf_toNat, packed_low _ (drainCheck_lt_meta ..), Nat.mod_eq_of_lt (drainCheck_lt ..)]

/-- The codeword received is the one that was written. -/
theorem codeword_granuleOf :
    codeword (tOf str) b (granuleOf b str unc w cb) = drainCheck b str unc w cb + drainMsg b str unc w cb <<< (13 * tOf str) := by
  rw [codeword, granuleOf_check, granuleOf_meta, drainMsg]

theorem bchErrors_of_codeword {t c : Nat} (h : bchCheck t (c >>> (13 * t)) = c % 2 ^ (13 * t)) : bchErrors t c = some [] := by
  rw [bchErrors]
  exact if_pos h

end

/-- A codeword without error that is not all zeros reads back as it is; its META is what is left to check. -/
theorem decodeBlock_of_codeword {str : BitVec 3} {b : Block} {g : Granule} {c : Nat} (hc : codeword (tOf str) b g = c)
    (he : bchErrors (tOf str) c = some []) (h0 : c ≠ 0) {m : BitVec 96} (hm : BitVec.ofNat 96 (c >>> (13 * tOf str + 4096)) = m)
    (hfix : fld m 61 60 = 1 ∧ fld m 95 62 = 0 ∧ fld m 39 35 = 0) (hstr : fld m 58 56 = str.toNat)
    (cb : Nat) (expect : Option (BitVec 16)) (blankOk seqChk : Bool) :
    decodeBlock str cb expect blankOk seqChk b g =
      { reason := if fld m 34 0 ≠ cb % 2 ^ 35 then 4
          else if seqChk ∧ expect.isSome ∧ expect ≠ some (m.extractLsb' 40 16) then 6 else if m.getLsbD 59 then 7 else 0
        data := BitVec.ofNat 4096 (c >>> (13 * tOf str)), fixed := 0, blank := false, found := m.extractLsb' 40 16 } := by
  -- `bchErrors` becomes a variable before the match on it is taken apart: evaluated, it would run through all 4,192 message bits.
  have hdef : @decodeBlock = @decodeBlock := rfl
  conv at hdef => rhs; delta decodeBlock
  rw [hdef]
  generalize bchErrors = errors at he ⊢
  subst hm
  simp only [hc, he, List.foldl_nil, List.length_nil, h0, decide_false, Bool.false_eq_true, if_false, hfix, hstr,
    and_self, not_true_eq_false, ne_eq]

section
variable (b : Block) (str : BitVec 3) (unc : Bool) (w : BitVec 16) (cb : Nat)

/-- A drain's codeblock and granule decode to what was written; what may be found then is another place, a stale sequence number, or
the drain's own mark. -/
theorem decodeBlock_granuleOf (cb' : Nat) (expect : Option (BitVec 16)) (blankOk seqChk : Bool) :
    decodeBlock str cb' expect blankOk seqChk b (granuleOf b str unc w cb) =
      { reason := if cb % 2 ^ 35 ≠ cb' % 2 ^ 35 then 4 else if seqChk ∧ expect.isSome ∧ expect ≠ some w then 6 else if unc then 7 else 0
        data := b, fixed := 0, blank := false, found := w } := by
  obtain ⟨hres, hone, -, hstr, -, hzero, hcb⟩ := metaOf_fields str unc w cb
  have hcheck := drainCheck_lt b str unc w cb
  have hmsg := packed_high (drainMsg b str unc w cb) hcheck
  rw [decodeBlock_of_codeword (codeword_granuleOf b str unc w cb) ?_ ?_ ?_ ⟨hone, hres, hzero⟩ hstr, hmsg, drainMsg_data, hcb,
    metaOf_wseq, metaOf_unc]
  · refine bchErrors_of_codeword ?_
    rw [hmsg, packed_low _ hcheck, drainCheck]
  · intro h0
    have hm := metaOf_toNat str unc w cb
    rw [← drainMsg_meta b, ← hmsg, h0, Nat.zero_shiftRight, Nat.zero_shiftRight] at hm
    omega
  · rw [Nat.shiftRight_add, hmsg, drainMsg_meta, BitVec.ofNat_toNat, BitVec.setWidth_eq]

end

/-- Settles O28: the syndrome of a flipped data bit is its column (`secSyndrome`, `secEncode_bit`), columns are distinct and of odd weight
(`secCols_nodup`, `secCols_odd`); what a granule's drain wrote is the codeword received (`codeword_granuleOf`), and only the checks of
META are left (`decodeBlock_granuleOf`). -/
theorem codesCorrectAndDetect : Obligations.CodesCorrectAndDetect := by
  refine ⟨fun d => ⟨secDecode_good, fun i hi => secDecode_dataBit d hi, fun j hj => secDecode_checkBit d hj,
    fun i j hi hj hij => secDecode_twoDataBits d hi hj hij, secDecode_twoCheckBits d⟩,
    fun str cb w unc blankOk seqChk b _ => ⟨?_, fun cb' hne => ?_⟩⟩
  · rw [decodeBlock_granuleOf, if_neg (not_not.2 rfl), if_neg (by simp)]
  · rw [decodeBlock_granuleOf]
    exact if_pos hne.symm

/-! ## Completions of pool reads (12 R296, R307, R472; 10 R248, R249, R258) -/

/-! ### The row -/

section
variable {s : State} {c : Cpl} {m : MRead} {perr : Bool}

theorem exec_poolReadCompletion (hs : s.up) (hd : s.mem.dlUp = true) :
    exec (.poolReadCompletion c perr) s = .next (completionRow s c perr) := by
  have hdue : (isOn s && s.mem.dlUp) = true := by simp [isOn, hs.2, hd]
  exact (guarded_of_defined hs.1 fun s => when s (isOn s && s.mem.dlUp) fun s => completionRow s c perr).trans (congrArg _ (if_pos hdue))

theorem completionRow_unexpected (hm : matching s c = none) : completionRow s c perr = logMemViol s 1 c.header := by
  rw [completionRow, hm]

theorem completionRow_late (hm : matching s c = some m) (hq : m.quar = true) :
    completionRow s c perr = settle (lateCpl s m c.tag.toNat c) := by
  rw [completionRow, hm]
  exact if_pos hq

theorem completionRow_data (hm : matching s c = some m) (hq : m.quar = false) (ho : ownerIsFlush m.owner = false) :
    completionRow s c perr = settle (dataCpl s m c.tag.toNat c perr) := by
  simp [completionRow, hm, hq, ho]

end

/-! ### Violations (R307, R308) -/

theorem violated_logMemViol (s : State) (code : Nat) (header : List Reg32) : violated s (logMemViol s code header) code header :=
  ⟨rfl, rfl, rfl, live_count_self .., getLsbD_setBit_self _ _ (by decide)⟩

/-- Waiting work touches no violation. -/
theorem violated.ext {s a t : State} {code : Nat} {header : List Reg32} (h : violated s a code header) (hx : Ext a t) :
    violated s t code header := by
  obtain ⟨hcode, hseq, hhdr, hcnt, hint⟩ := h
  exact ⟨(congrArg (fun x => x.mem.vCode) hx.fixed).trans hcode, (congrArg (fun x => x.mem.vSeq) hx.fixed).trans hseq,
    (congrArg (fun x => x.mem.vHdr) hx.fixed).trans hhdr, (hx.counts _ (by decide)).trans hcnt, hx.ints _ hint⟩

/-! ### A late completion (R296, R472) -/

/-- A late completion is counted; the reads are all that changes besides, and its tag is free when nothing more can come for it. -/
theorem lateCpl_frame (s : State) (m : MRead) (tag : Nat) (c : Cpl) : ∃ l,
    lateCpl s m tag c = { count s cntLate with mem := { s.mem with reads := l } } ∧
    (m.ended = false ∨ c.status ≠ .sc ∨ m.bytes ≤ m.got.length + c.data.length → ∀ x ∈ l, x.tag ≠ some tag) := by
  by_cases h : m.ended = false ∨ c.status ≠ .sc ∨ m.bytes ≤ m.got.length + c.data.length
  · have hfree : (!m.ended || c.status ≠ .sc || (m.got ++ c.data).length ≥ m.bytes) = true := by
      simpa [or_assoc] using h
    refine ⟨_, if_pos hfree, fun _ x hx => ?_⟩
    simpa using (List.mem_filter.1 hx).2
  · have hkeep : ¬ (!m.ended || c.status ≠ .sc || (m.got ++ c.data).length ≥ m.bytes) = true := by
      simpa [or_assoc] using h
    exact ⟨_, if_neg hkeep, fun h' => absurd h' h⟩

/-! ### A completion that agrees, and one that does not -/

/-- The read's violation is logged and its parts are ended (R307, R472). -/
def disagreed (s : State) (m : MRead) (tag : Nat) (c : Cpl) : State :=
  let a := logMemViol s (cplCode m c) c.header
  let got := m.got ++ c.data
  endParts (if c.status ≠ .sc || got.length ≥ m.bytes then dropRead a tag else updRead a tag fun x => { x with got := got })
    m.owner true

section
variable {s : State} {m : MRead} {tag : Nat} {c : Cpl} {perr : Bool}

theorem dataCpl_partial (hc : cplCode m c = 0) (hl : m.got.length + c.data.length < m.bytes) :
    dataCpl s m tag c perr = updRead s tag fun _ => { m with got := m.got ++ c.data } := by
  have hne : (m.got ++ c.data).length ≠ m.bytes := by
    rw [List.length_append]
    exact Nat.ne_of_lt hl
  simp only [dataCpl, hc]
  exact if_neg hne

theorem dataCpl_whole (hc : cplCode m c = 0) (hl : m.got.length + c.data.length = m.bytes) :
    dataCpl s m tag c perr = partArrived (dropRead s tag) { m with got := m.got ++ c.data } perr := by
  simp only [dataCpl, hc]
  exact if_pos (List.length_append.trans hl)

theorem dataCpl_disagrees (hc : cplCode m c ≠ 0) : dataCpl s m tag c perr = noData (disagreed s m tag c) m.owner 3 := by
  unfold dataCpl
  split
  · next h => exact absurd h hc
  · rfl

/-- Beside the violation only the reads change. -/
theorem disagreed_frame (s : State) (m : MRead) (tag : Nat) (c : Cpl) : ∃ l, disagreed s m tag c =
    { logMemViol s (cplCode m c) c.header with mem := { (logMemViol s (cplCode m c) c.header).mem with reads := l } } := by
  unfold disagreed
  dsimp only
  split <;> exact ⟨_, rfl⟩

end

/-! ### A read that ends without data does no more than waiting work may -/

section
variable {a s : State} {fail : Nat}

/-- Data or a failure, handed to one waiting read. -/
theorem handToAny_ext (b : Block) (fail id : Nat) (h : Ext a s) : Ext a (handTo b fail s id) := by
  unfold handTo
  split
  · exact h
  · exact ite_ext (answerRead_ext _ _ h) (failReq_ext _ _ _ h)

theorem handAll_ext (x : Handler) (b : Block) (fail : Nat) (h : Ext a s) : Ext a (handAll s x b fail) :=
  foldl_ext _ _ (fun _ _ => handToAny_ext _ _ _) (dropHandler_ext _ h)

theorem unitEnd_ext (fail : Nat) (u : Nat × Nat) (h : Ext a s) : Ext a (unitEnd fail s u) :=
  ite_ext (unitDone_ext _ h) (ite_ext (stopRun_ext _ _ _ h) (unitDone_ext _ (updRun_ext _ _ h)))

theorem fillUnits_ext (x : Handler) (fail : Nat) (h : Ext a s) : Ext a (fillUnits s x fail) :=
  foldl_ext _ _ (fun _ _ => unitEnd_ext _ _) h

theorem unitDrop_ext (n u : Nat) (h : Ext a s) : Ext a (unitDrop s n u) := by
  unfold unitDrop
  split
  · exact h
  · extract_lets e z
    have hz : Ext a z := { h with }
    exact ite_ext { hz with } (endFetch_ext _ (updEntry_ext _ _ hz))

theorem pageArrive_ext (n i : Nat) (b : Block) (fail : Nat) (h : Ext a s) : Ext a (pageArrive s n i b fail) :=
  ite_ext (unitDone_ext _ (updRun_ext _ _ (updEpoch_ext _ h))) (updEpoch_ext _ h)

/-- A read that has failed is not bad a second time for the overlay. -/
theorem overlaid_failed (x : Handler) (b : Block) (hf : fail ≠ 0) : overlaid s x b fail = (s, (overlay s x.cb x.later b).1, fail) := by
  simp [overlaid, hf]

theorem readEnd_ext (x : Handler) (b : Block) (fixed : Nat) (hf : fail ≠ 0) (h : Ext a s) : Ext a (readEnd s x b fail fixed) := by
  unfold readEnd
  simp only [overlaid_failed x b hf]
  split
  · exact handAll_ext _ _ _ h
  · exact pageArrive_ext _ _ _ _ (dropHandler_ext _ h)
  · exact ite_ext (unitDrop_ext _ _ (stopRun_ext _ _ _ (dropHandler_ext _ h))) (updHandler_ext _ _ h)
  · exact foldl_ext _ _ (fun _ _ => fetchEnd_ext _ _ _ _) (dropHandler_ext _ h)
  · exact handAll_ext _ _ _ h
  · rw [if_neg hf]
    have h1 : Ext a (fillUnits (handAll s x (overlay s x.cb x.later b).1 fail) x fail) := fillUnits_ext _ _ (handAll_ext _ _ _ h)
    have h2 := ite_ext (c := x.kind = .prefetch) (count_ext mem_cntPfDrop h1) h1
    split
    · exact ite_ext h2 (dropEntry_ext _ _ h2)
    · exact h2

theorem noData_ext (o : ReadOwner) (hf : fail ≠ 0) (h : Ext a s) : Ext a (noData s o fail) := by
  unfold noData
  split
  · split
    · exact readEnd_ext _ _ _ hf h
    · exact h
  · exact updSlot_ext _ _ h
  · exact updSlot_ext _ _ h
  · exact h

end

/-! ### A codeblock decoded (10 R248, R249, R258) -/

/-- The codeblock is counted as blank if it is. -/
def blankCounted (s : State) (d : Decoded) : State := if d.blank then count s cntIcbBlank else s

/-- The reason of bad data is counted. -/
def reasonCounted (s : State) (reason : Nat) : State :=
  if reason = 4 then count s cntIcbMisdir else if reason = 6 then count s cntIcbStale else s

section
variable {s : State} {str : BitVec 3} {cb : Nat} {expect : Option (BitVec 16)} {who : Option Nat} {b : Block} {g : Granule} {d : Decoded}

theorem live_blankCounted {c : Nat} (h : c ≠ cntIcbBlank) : live (blankCounted s d) c = live s c := by
  unfold blankCounted
  split
  · exact live_count_ne _ h
  · rfl

theorem blankCounted_frame (s : State) (d : Decoded) : ∃ l, blankCounted s d = { s with cfg := { s.cfg with live := l } } := by
  unfold blankCounted
  split <;> exact ⟨_, rfl⟩

theorem blankCounted_kept (s : State) (d : Decoded) : kept s (blankCounted s d) := by
  obtain ⟨l, hl⟩ := blankCounted_frame s d
  rw [hl]
  exact ⟨rfl, rfl, rfl⟩

theorem poolBad_cfg (s : State) (cb reason : Nat) (who : Option Nat) (found expect : BitVec 16) :
    (poolBad s cb reason who found expect).cfg = (reasonCounted (count s cntIcbUnc) reason).cfg := by
  unfold poolBad reasonCounted
  rw [raiseInt_cfg, event_cfg]
  split_ifs <;> rfl

theorem live_reasonCounted (s : State) (reason : Nat) :
    live (reasonCounted s reason) cntIcbUnc = live s cntIcbUnc ∧
    live (reasonCounted s reason) cntIcbMisdir = live s cntIcbMisdir + (if reason = 4 then 1 else 0) ∧
    live (reasonCounted s reason) cntIcbStale = live s cntIcbStale + (if reason = 6 then 1 else 0) := by
  have same {c k : Nat} (h : c ≠ k) : live (count s k) c = live s c + 0 := (live_count_ne _ h).trans (BitVec.add_zero _).symm
  unfold reasonCounted
  split_ifs with h4 h6 h6
  · omega
  · exact ⟨live_count_ne _ (by decide), live_count_self .., same (by decide)⟩
  · exact ⟨live_count_ne _ (by decide), same (by decide), live_count_self ..⟩
  · exact ⟨rfl, (BitVec.add_zero _).symm, (BitVec.add_zero _).symm⟩

theorem live_poolBad (s : State) (cb reason : Nat) (who : Option Nat) (found expect : BitVec 16) :
    let t := poolBad s cb reason who found expect
    live t cntIcbUnc = live s cntIcbUnc + 1 ∧ live t cntIcbMisdir = live s cntIcbMisdir + (if reason = 4 then 1 else 0) ∧
    live t cntIcbStale = live s cntIcbStale + (if reason = 6 then 1 else 0) := by
  have hlive (c : Nat) : live (poolBad s cb reason who found expect) c = live (reasonCounted (count s cntIcbUnc) reason) c := by
    rw [live, poolBad_cfg, live]
  obtain ⟨hunc, hmis, hstale⟩ := live_reasonCounted (count s cntIcbUnc) reason
  rw [live_count_self] at hunc
  rw [live_count_ne _ (by decide)] at hmis hstale
  exact ⟨(hlive _).trans hunc, (hlive _).trans hmis, (hlive _).trans hstale⟩

theorem poolBad_leaves (s : State) (cb reason : Nat) (who : Option Nat) (found expect : BitVec 16) :
    let t := poolBad s cb reason who found expect
    kept s t ∧ t.icb.log0 = BitVec.ofNat 32 (cb * 512) ∧ t.err.intStatus.getLsbD srcPoolBad = true := by
  have hcalm := poolBad_calm (K := fun _ => True) cb reason who found expect (Calm.refl s)
  have hpower := poolBad_samePower cb reason who found expect (.refl s)
  refine ⟨⟨hcalm.regs trivial, hpower.vlt, hcalm.clk trivial⟩, ?_, getLsbD_setBit_self _ _ (by decide)⟩
  unfold poolBad
  rw [raiseInt_icb, event_icb]
  split_ifs <;> rfl

theorem readBlock_bad (hd : decodeBlock str cb expect (blankOk s) (seqChk s) b g = d) (h : d.reason ≠ 0) :
    readBlock s str cb expect who b g = (poolBad (blankCounted s d) cb d.reason who d.found (expect.getD 0), d) := by
  unfold readBlock
  rw [hd]
  exact if_pos h

/-- The bits corrected in good data are counted. -/
def goodCounted (s : State) (d : Decoded) : State :=
  if d.fixed = 0 then blankCounted s d else bucketEvent (countN (count (blankCounted s d) cntIcbCorr) cntIcbBit d.fixed) 1

theorem readBlock_good (hd : decodeBlock str cb expect (blankOk s) (seqChk s) b g = d) (h : d.reason = 0) :
    readBlock s str cb expect who b g = (goodCounted s d, d) := by
  unfold readBlock
  rw [hd]
  exact (if_neg (not_not.2 h)).trans (apply_ite (·, d) ..).symm

theorem live_countN_self (s : State) (c n : Nat) : live (countN s c n) c = live s c + BitVec.ofNat 64 n := by
  simp [countN, live, mget_mset]

theorem live_countN_ne {s : State} {c k : Nat} (n : Nat) (h : c ≠ k) : live (countN s k n) c = live s c := by
  simp [countN, live, mget_mset, Ne.symm h]

theorem live_goodCounted (s : State) (d : Decoded) : live (goodCounted s d) cntIcbUnc = live s cntIcbUnc ∧
    live (goodCounted s d) cntIcbBit = live s cntIcbBit + BitVec.ofNat 64 d.fixed := by
  have hunc : live (blankCounted s d) cntIcbUnc = live s cntIcbUnc := live_blankCounted (by decide)
  have hbit : live (blankCounted s d) cntIcbBit = live s cntIcbBit := live_blankCounted (by decide)
  rw [← hunc, ← hbit]
  unfold goodCounted
  split
  · next h0 => exact ⟨rfl, by rw [h0]; exact (BitVec.add_zero _).symm⟩
  · have hbucket (x : State) (c : Nat) : live (bucketEvent x 1) c = live x c := by rw [live, bucketEvent_cfg, live]
    rw [hbucket, hbucket, live_countN_self, live_countN_ne _ (by decide), live_count_ne _ (by decide), live_count_ne _ (by decide)]
    exact ⟨rfl, rfl⟩

theorem goodCounted_leaves (s : State) (d : Decoded) :
    kept s (goodCounted s d) ∧ (goodCounted s d).icb = s.icb ∧ (goodCounted s d).cch = s.cch := by
  obtain ⟨l, hl⟩ := blankCounted_frame s d
  unfold goodCounted
  rw [hl]
  split
  · exact ⟨⟨rfl, rfl, rfl⟩, rfl, rfl⟩
  · obtain ⟨e, q, hq⟩ := bucketEvent_eq (countN (count { s with cfg := { s.cfg with live := l } } cntIcbCorr) cntIcbBit d.fixed) 1
    rw [hq]
    exact ⟨⟨rfl, rfl, rfl⟩, rfl, rfl⟩

end

/-! ### The last part of a handler's codeblock and granule -/

section
variable {s z : State} {h : Handler} {b : Block} {g : Granule} {d : Decoded} {i : Nat} {m : MRead} {perr : Bool}

theorem partArrived_granule (ho : m.owner = .handler i true) (hg : getHandler s i = some h) (hdev : h.dev = none)
    (hcb : h.cbData = some b) (hn : BitVec.ofNat 512 (ofBytes m.got) = g) : partArrived s m perr =
      handlerArrived (updHandler s i fun _ => { h with grData := some g }) { h with grData := some g } b g perr := by
  simp only [partArrived, ho, hg, hdev, hcb, if_true, hn]

theorem handlerArrived_read (hr : readBlock s h.str h.cb h.expect (handlerWho h) b g = (z, d)) :
    handlerArrived s h b g false = readEnd z { h with found := d.found } d.data (if d.reason = 0 then 0 else 1) d.fixed := by
  unfold handlerArrived
  extract_lets s0 s1
  rw [if_neg (by simp)]
  split
  next z' d' e =>
    obtain ⟨rfl, rfl⟩ := Prod.mk.inj (hr.symm.trans e)
    simp

theorem getHandler_updHandler {f : Handler → Handler} (hf : ∀ x, x.idx = i → (f x).idx = i) (hg : getHandler s i = some h) :
    getHandler (updHandler s i f) i = some (f h) := by
  have hi : (h.idx == i) = true := List.find?_some (p := fun x : Handler => x.idx == i) hg
  refine (find?_updIf s.cch.handlers _ _ f fun x hx => ?_).trans ?_
  · rw [hx]
    exact beq_iff_eq.2 (hf x (beq_iff_eq.1 hx))
  · rw [show s.cch.handlers.find? (·.idx == i) = some h from hg, Option.map_some, if_pos hi]

/-- Good data of a fill waits for its install. -/
def installDue (s : State) (h : Handler) (b : Block) (fixed : Nat) : State :=
  due2 (over2 (updHandler s h.idx fun x => { x with data := some (b, 0), fixed := fixed, found := h.found }) (.install h.idx))
    (.install h.idx)

theorem readEnd_installs (hk : h.kind = .demand) (fixed : Nat) : readEnd s h b 0 fixed = installDue s h b fixed := by
  simp [readEnd, hk, installDue]

theorem over2_ext {a s : State} (o : Rank2) (h : Ext a s) : Ext a (over2 s o) := { h with }

theorem installDue_ext (s : State) (h : Handler) (b : Block) (fixed : Nat) : Ext s (installDue s h b fixed) :=
  due2_ext _ (over2_ext _ (updHandler_ext _ _ (Ext.refl s)))

theorem getHandler_installDue {x : Handler} (hi : h.idx = i) (hx : getHandler s i = some x) (fixed : Nat) :
    getHandler (installDue s h b fixed) i = some { x with data := some (b, 0), fixed := fixed, found := h.found } := by
  subst hi
  exact getHandler_updHandler (fun _ hy => hy) hx

end

/-- The last part, a granule, has freed its tag and is kept beside the codeblock. -/
def granuleKept (s : State) (i tag : Nat) (h : Handler) (g : Granule) : State :=
  updHandler (dropRead s tag) i fun _ => { h with grData := some g }

section
variable {s z : State} {c : Cpl} {m : MRead} {i tag : Nat} {h : Handler} {b : Block} {g : Granule} {d : Decoded}
  (ho : m.owner = .handler i true) (hc : cplCode m c = 0) (hl : m.got.length + c.data.length = m.bytes) (hg : getHandler s i = some h)
  (hdev : h.dev = none) (hcb : h.cbData = some b) (hk : h.kind = .demand) (hn : BitVec.ofNat 512 (ofBytes (m.got ++ c.data)) = g)
  (hd : decodeBlock h.str h.cb h.expect (blankOk s) (seqChk s) b g = d)

include ho hc hl hg hdev hcb hn in
theorem dataCpl_decodes (hr : readBlock (granuleKept s i tag h g) h.str h.cb h.expect (handlerWho h) b g = (z, d)) :
    dataCpl s m tag c false =
      readEnd z { h with grData := some g, found := d.found } d.data (if d.reason = 0 then 0 else 1) d.fixed :=
  calc dataCpl s m tag c false = partArrived (dropRead s tag) { m with got := m.got ++ c.data } false := dataCpl_whole hc hl
    _ = handlerArrived (granuleKept s i tag h g) { h with grData := some g } b g false := partArrived_granule ho hg hdev hcb hn
    _ = _ := handlerArrived_read hr

include ho hc hl hg hdev hcb hn hd

/-- Bad data is counted, reported and logged with the codeblock's address. -/
theorem dataCpl_bad (h0 : d.reason ≠ 0) :
    let t := settle (dataCpl s m tag c false)
    kept s t ∧ live t cntIcbUnc = live s cntIcbUnc + 1 ∧ t.icb.log0 = BitVec.ofNat 32 (h.cb * 512) ∧
      t.err.intStatus.getLsbD srcPoolBad = true ∧ live t cntIcbMisdir = live s cntIcbMisdir + (if d.reason = 4 then 1 else 0) ∧
      live t cntIcbStale = live s cntIcbStale + (if d.reason = 6 then 1 else 0) := by
  have hread := dataCpl_decodes ho hc hl hg hdev hcb hn (tag := tag) (readBlock_bad (s := granuleKept s i tag h g) hd h0)
  rw [if_neg h0] at hread
  obtain ⟨hkept, hlog, hint⟩ :=
    poolBad_leaves (blankCounted (granuleKept s i tag h g) d) h.cb d.reason (handlerWho h) d.found (h.expect.getD 0)
  obtain ⟨hunc, hmis, hstale⟩ :=
    live_poolBad (blankCounted (granuleKept s i tag h g) d) h.cb d.reason (handlerWho h) d.found (h.expect.getD 0)
  rw [live_blankCounted (by decide)] at hunc hmis hstale
  have ht := settle_ext (hread ▸ readEnd_ext _ _ _ Nat.one_ne_zero (Ext.refl _))
  exact ⟨ht.keeps (kept_trans (blankCounted_kept (granuleKept s i tag h g) d) hkept), (ht.counts _ (by decide)).trans hunc,
    (congrArg Icb.log0 ht.icb).trans hlog, ht.ints _ hint, (ht.counts _ (by decide)).trans hmis, (ht.counts _ (by decide)).trans hstale⟩

include hk

/-- Good data waits for its install; its corrected bits are counted, and nothing is logged. -/
theorem dataCpl_good (h0 : d.reason = 0) :
    let t := settle (dataCpl s m tag c false)
    kept s t ∧ t.icb = s.icb ∧ live t cntIcbUnc = live s cntIcbUnc ∧ live t cntIcbBit = live s cntIcbBit + BitVec.ofNat 64 d.fixed ∧
      ∃ h', getHandler (dataCpl s m tag c false) i = some h' ∧ h'.data = some (d.data, 0) ∧ h'.fixed = d.fixed := by
  obtain ⟨hkept, hicb, hcch⟩ := goodCounted_leaves (granuleKept s i tag h g) d
  obtain ⟨hunc, hbit⟩ := live_goodCounted (granuleKept s i tag h g) d
  have hidx : h.idx = i := beq_iff_eq.1 (List.find?_some (p := fun x : Handler => x.idx == i) hg)
  have hhave : getHandler (goodCounted (granuleKept s i tag h g) d) i = some { h with grData := some g } := by
    rw [getHandler, hcch]
    exact getHandler_updHandler (fun _ _ => hidx) hg
  have hread := dataCpl_decodes ho hc hl hg hdev hcb hn (tag := tag) (readBlock_good (s := granuleKept s i tag h g) hd h0)
  rw [if_pos h0] at hread
  replace hread := hread.trans (readEnd_installs (h := { h with grData := some g, found := d.found }) hk _)
  have ht : Ext (goodCounted (granuleKept s i tag h g) d) (settle (dataCpl s m tag c false)) := by
    rw [hread]
    exact settle_ext (installDue_ext ..)
  refine ⟨ht.keeps hkept, ht.icb.trans hicb, (ht.counts _ (by decide)).trans hunc, (ht.counts _ (by decide)).trans hbit, ?_⟩
  rw [hread]
  exact ⟨_, getHandler_installDue (h := { h with grData := some g, found := d.found }) hidx hhave _, rfl, rfl⟩

end

/-- Settles O36: what a completion does is one of `completionRow_unexpected`, `completionRow_late` and `completionRow_data`; a late one is
counted (`lateCpl_frame`), one that disagrees leaves its violation (`violated_logMemViol`) and ends the read as waiting work may
(`noData_ext`), and the last part of a demand fill's codeblock is decoded (`dataCpl_decodes`, `dataCpl_good`, `dataCpl_bad`). -/
theorem poolReadCompletions : Obligations.PoolReadCompletions := by
  refine ⟨⟨fun s c perr hs hd hm => ?_, fun s c perr m hs hd hm hq => ?_, fun s c perr m hs hd hm hq ho hc hl => ?_,
    fun s c perr m hs hd hm hq ho hc => ?_⟩, fun s c m i h b hs hd hm hq ho hc hl hg hdev hcb hk => ?_⟩
  · refine ⟨_, exec_poolReadCompletion hs hd, ?_⟩
    rw [completionRow_unexpected hm]
    exact ⟨violated_logMemViol .., rfl, rfl, rfl⟩
  · obtain ⟨l, hl, hfree⟩ := lateCpl_frame s m c.tag.toNat c
    have hext := settle_extends (lateCpl s m c.tag.toNat c)
    refine ⟨_, exec_poolReadCompletion hs hd, ?_⟩
    rw [completionRow_late hm hq]
    refine ⟨(hext.counts _ (by decide)).trans ?_, hext, ?_, hext.keeps ?_⟩ <;> rw [hl]
    · exact live_count_self ..
    · exact hfree
    · exact ⟨rfl, rfl, rfl⟩
  · have hext := settle_extends (dataCpl s m c.tag.toNat c perr)
    refine ⟨_, exec_poolReadCompletion hs hd, ?_⟩
    rw [completionRow_data hm hq ho]
    rw [dataCpl_partial hc hl] at hext ⊢
    exact ⟨hext, hext.keeps ⟨rfl, rfl, rfl⟩⟩
  · obtain ⟨l, hl⟩ := disagreed_frame s m c.tag.toNat c
    have hends : Ext (disagreed s m c.tag.toNat c) (dataCpl s m c.tag.toNat c perr) := by
      rw [dataCpl_disagrees hc]
      exact noData_ext _ (by decide) (Ext.refl _)
    have hviol : violated s (disagreed s m c.tag.toNat c) (cplCode m c) c.header := hl ▸ violated_logMemViol ..
    have hkept : kept s (disagreed s m c.tag.toNat c) := hl ▸ ⟨rfl, rfl, rfl⟩
    refine ⟨_, exec_poolReadCompletion hs hd, ?_⟩
    rw [completionRow_data hm hq ho]
    exact ⟨hviol.ext (settle_ext hends), settle_extends _, (settle_ext hends).keeps hkept⟩
  · have hrow : completionRow s c false = settle (dataCpl s m c.tag.toNat c false) := completionRow_data hm hq (by rw [ho]; rfl)
    refine ⟨_, exec_poolReadCompletion hs hd, ?_⟩
    rw [hrow]
    generalize hn : BitVec.ofNat 512 (ofBytes (m.got ++ c.data)) = g
    generalize hdec : decodeBlock h.str h.cb h.expect (blankOk s) (seqChk s) b g = d
    have hgood := dataCpl_good ho hc hl hg hdev hcb hk hn hdec (tag := c.tag.toNat)
    have hbad := dataCpl_bad ho hc hl hg hdev hcb hn hdec (tag := c.tag.toNat)
    refine ⟨⟨fun h0 => ?_, fun h0 => ?_⟩, settle_extends _, ?_⟩
    · obtain ⟨-, hicb, hunc, hbit, hwaits⟩ := hgood h0
      exact ⟨hunc, hicb, hbit, hwaits⟩
    · obtain ⟨-, hunc, hlog, hint, hmis, hstale⟩ := hbad h0
      exact ⟨hunc, hlog, hint, hmis, hstale⟩
    · by_cases h0 : d.reason = 0
      · obtain ⟨hkept, -⟩ := hgood h0
        exact hkept
      · obtain ⟨hkept, -⟩ := hbad h0
        exact hkept

end Sys2Proof.Machine
